-- ==== Sys2Proof/Word.lean ====
section
/-!
DEFINITION. The word types of the K7 (R10, R27): 64-bit scalar words, 128-bit vector words, bytes.
-/
namespace Sys2Proof

/-- A scalar register or address (R18, R81). -/
abbrev Word := BitVec 64
/-- A vector register (R18, R101). -/
abbrev VWord := BitVec 128
/-- A byte of scratchpad or memory. -/
abbrev Byte := BitVec 8

end Sys2Proof
end

