-- ==== Sys2Proof/Config.lean ====
section
/-!
DEFINITION. What the spec leaves to the hardware: constants without a body, so that nothing can be proved of their
values (log 5, log 6, log 7, log 8).
-/
namespace Sys2Proof.Config

/-- Cycles that an event without a promised time takes beyond the next cycle (R90, R221): the n-th such wait. -/
opaque freeDelay : Nat → Nat

/-- Cycles from the start of an engine entry to its completion (R138 gives figures that carry no promise): of its kind
and the rows or passes it works on. -/
opaque engineCycles : Nat → Nat → Nat

/-- A byte that the spec leaves undefined (R170, R174, R275): the n-th such byte. -/
opaque freeByte : Nat → Byte

/-- A choice among k things that the spec leaves open: the n-th such choice. -/
opaque freeChoice : Nat → Nat → Nat

/-- The way of a full L1 set that gives up its line (R85): of the rank of a core in its group and the lines that it has
filled, so that the same run evicts the same lines (R222). -/
opaque l1Victim : Nat → Nat → Nat

/-- How far the GTC reading of a die runs ahead, 0 to 2 ticks (R5, R290). -/
opaque gtcSkew : Nat → Fin 3

/-- SHAKE256 with an output of a number of bytes (R293): FIPS 202, outside the spec. -/
opaque shake256 : List Byte → Nat → List Byte

/-- The check of an Ed448 signature of an image made with the vendor key (R293): RFC 8032, outside the spec. -/
opaque ed448Verify : List Byte → Bool

/-- A signature with the device key (R294). -/
opaque ed448Sign : List Byte → List Byte

/-- The image of a boot stage (R293). -/
opaque bootImage : Nat → List Byte

/-- The planes Y, U, V (row by row, with their width and height) that an AV1 decoder gives for a frame of a bitstream
(R175, R176): the bit depth, whether it cannot be decoded in the Main profile, the frames of the batch that it references, and
whether it references one outside the batch. -/
structure Frame where
  depth : Nat := 8
  width : Nat := 0
  height : Nat := 0
  y : List Nat := []
  u : List Nat := []
  v : List Nat := []
  corrupt : Bool := true
  refs : List Nat := []
  outside : Bool := false
  deriving DecidableEq, Repr, Inhabited

/-- AV1 decoding: the n-th frame of a bitstream, with those earlier frames of it zeroed as references that are listed (R175,
R176): the AV1 standard, outside the spec. -/
opaque av1Frame : List Byte → List Nat → Nat → Frame

/-- An entry of a section of the resync record, of its type and values, and the heading of a section, of its type, entry
count, byte length and GTC (R292): the spec names the contents, not the layout. -/
opaque resyncEntry : Nat → List Nat → List Byte
opaque resyncHeading : Nat → Nat → Nat → Nat → List Byte

/-- The average power in watts of a window (R7, R291): measured. -/
opaque windowPower : Nat → Nat

/-- The estimate of the own offset from the reference node, in ticks (R290): the n-th exchange. -/
opaque clockOffset : Nat → Int

/-- The k-th intermediate of the non-minimal paths to a node, drawn at the n-th module reset (R286). -/
opaque routeVia : Nat → Nat → Nat → Nat

/-- The flits that a port may have unacknowledged at full width, and the cycles of its retry time-out (R285, R288): no figure in
the spec. -/
opaque creditWindow : Nat
opaque retryTimeout : Nat

/-- The bytes of a packet between modules, of its fields (R285): the spec gives no layout. -/
opaque packetBytes : List Nat → List Byte

/-- The corrected-symbol count and the eye margin of a lane of a port at the n-th sample, and whether they cross the limit
(R288): measured. -/
opaque laneSample : Nat → Nat → Nat → Nat × Nat
opaque laneCrossed : Nat → Nat → Bool

/-- A number that the hardware part of a bivouac frame holds, of the bytes there now and of its place (R256): the layout is the
scheduler's own. -/
opaque frameField : List Byte → List Nat → Nat

/-- The HBM row of an ECC word (R283): the row size is not in the spec. -/
opaque hbmRow : Nat → Nat

end Sys2Proof.Config
end

