-- ==== Sys2Proof/Syntax.lean ====
section
/-!
DEFINITION. The instructions of the K7 and the steps that are no instructions: one constructor for each row of
spec/opcode_table.json.  The operand records follow the layouts of R48, R50 and R51: a record holds the fields of its
layout as the manual names them, and Sys2Proof/WellFormed.lean says which values an instruction accepts (R58).
The steps of the machine that no instruction word names (an access performed at its home, a landing, a start of a
queued entry) are constructors without fields: the object that such a step acts on stands in the state (State.obj), and
the agenda of the state says when each is due.  They stand last, after ILLEGAL_ENCODING, whose field is word 0.
-/
namespace Sys2Proof

/-- Format R (R48): STALL, d, a, b. -/
structure RF where
  st : BitVec 3
  d : BitVec 5
  a : BitVec 5
  b : BitVec 5
  deriving DecidableEq, Repr

/-- Format R of an AMO (R94): the ordering stands in the two low bits of MIN6. -/
structure AF where
  st : BitVec 3
  d : BitVec 5
  a : BitVec 5
  b : BitVec 5
  ord : BitVec 2
  deriving DecidableEq, Repr

/-- Format I (R48): a signed 11-bit immediate. -/
structure IF where
  st : BitVec 3
  d : BitVec 5
  a : BitVec 5
  imm : BitVec 11
  deriving DecidableEq, Repr

/-- Format I with a 64-bit literal (LEN 10, R51). -/
structure IL where
  st : BitVec 3
  d : BitVec 5
  a : BitVec 5
  lit : BitVec 64
  deriving DecidableEq, Repr

/-- Format M (R48): base, SIZE and a displacement in units of the size. -/
structure MF where
  st : BitVec 3
  d : BitVec 5
  base : BitVec 5
  size : BitVec 3
  disp : BitVec 8
  deriving DecidableEq, Repr

/-- Format M with a 64-bit byte displacement (LEN 10, R51). -/
structure ML where
  st : BitVec 3
  d : BitVec 5
  base : BitVec 5
  size : BitVec 3
  lit : BitVec 64
  deriving DecidableEq, Repr

/-- Format B (R48). -/
structure BF where
  st : BitVec 3
  cond : BitVec 3
  a : BitVec 5
  b : BitVec 5
  off : BitVec 8
  deriving DecidableEq, Repr

/-- The long branch (LEN 01, R51). -/
structure BL where
  st : BitVec 3
  cond : BitVec 3
  a : BitVec 5
  b : BitVec 5
  off : BitVec 32
  deriving DecidableEq, Repr

/-- Format J (R48). -/
structure JF where
  st : BitVec 3
  off : BitVec 21
  deriving DecidableEq, Repr

/-- Format J with an absolute target (LEN 10, R51). -/
structure JL where
  st : BitVec 3
  lit : BitVec 64
  deriving DecidableEq, Repr

/-- The extended form (LEN 01, R50). -/
structure XF where
  st : BitVec 3
  d : BitVec 5
  a : BitVec 5
  b : BitVec 5
  c : BitVec 5
  et : BitVec 4
  k : BitVec 3
  kneg : Bool
  ro : BitVec 3
  aux8 : BitVec 8
  aux32 : BitVec 32
  deriving DecidableEq, Repr

/-- The extended form with a literal (LEN 11, R51). -/
structure XL where
  x : XF
  lit : BitVec 64
  deriving DecidableEq, Repr

/-- One constructor for each row of spec/opcode_table.json: the instructions in its order, then the other steps. -/
inductive Instr where
  /-- ADD (R63): adds two scalar operands and writes the sum to d. -/
  | add (f : RF)
  /-- SUB (R63): subtracts b from a and writes the difference to d. -/
  | sub (f : RF)
  /-- MUL (R63): writes the low 64 bits of a·b to d. -/
  | mul (f : RF)
  /-- MULH (R63): writes the high 64 bits of the signed 128-bit product to d. -/
  | mulh (f : RF)
  /-- MULHU (R63): writes the high 64 bits of the unsigned 128-bit product to d. -/
  | mulhu (f : RF)
  /-- DIV (R65): signed division truncating toward zero, with fixed results for a zero divisor and overflow. -/
  | div (f : RF)
  /-- DIVU (R65): unsigned division, with a fixed result for a zero divisor. -/
  | divu (f : RF)
  /-- REM (R65): signed remainder that takes the sign of the dividend. -/
  | rem (f : RF)
  /-- REMU (R65): unsigned remainder. -/
  | remu (f : RF)
  /-- AND (R63): bitwise AND of a and b. -/
  | and (f : RF)
  /-- OR (R63): bitwise OR of a and b. -/
  | or (f : RF)
  /-- XOR (R63): bitwise XOR of a and b. -/
  | xor (f : RF)
  /-- ANDN (R63): computes a AND NOT b. -/
  | andn (f : RF)
  /-- SHL (R64): shifts a left by the full 64-bit amount in b. -/
  | shl (f : RF)
  /-- SHR (R64): shifts a right logically by the amount in b. -/
  | shr (f : RF)
  /-- SRA (R64): shifts a right arithmetically by the amount in b. -/
  | sra (f : RF)
  /-- ROTR (R64): rotates a right by b modulo 64. -/
  | rotr (f : RF)
  /-- SLT (R63): writes 1 if a is less than b as signed values, else 0. -/
  | slt (f : RF)
  /-- SLTU (R63): writes 1 if a is less than b as unsigned values, else 0. -/
  | sltu (f : RF)
  /-- MIN (R63): writes the signed minimum of a and b. -/
  | min (f : RF)
  /-- MAX (R63): writes the signed maximum of a and b. -/
  | max (f : RF)
  /-- MINU (R63): writes the unsigned minimum of a and b. -/
  | minu (f : RF)
  /-- MAXU (R63): writes the unsigned maximum of a and b. -/
  | maxu (f : RF)
  /-- SEL (R63): writes a if the old d is non-zero, else b. -/
  | sel (f : RF)
  /-- CLZ (R63): counts the leading zero bits of a. -/
  | clz (f : RF)
  /-- CTZ (R63): counts the trailing zero bits of a. -/
  | ctz (f : RF)
  /-- POPC (R63): counts the set bits of a. -/
  | popc (f : RF)
  /-- BFX (R66): extracts a sign-extended bit field of a selected by b. -/
  | bfx (f : RF)
  /-- BFXU (R66): extracts a zero-extended bit field of a selected by b. -/
  | bfxu (f : RF)
  /-- BFI (R66): inserts the low bits of a into d at the field selected by b. -/
  | bfi (f : RF)
  /-- ADDI (R67): adds a sign-extended 11-bit immediate to a. -/
  | addi (f : IF)
  /-- ADDI_LIT (R67): ADDI with a 64-bit literal immediate (LEN 10). -/
  | addiLit (f : IL)
  /-- ANDI (R67): ANDs a with a sign-extended immediate. -/
  | andi (f : IF)
  /-- ANDI_LIT (R67): ANDI with a 64-bit literal immediate. -/
  | andiLit (f : IL)
  /-- ORI (R67): ORs a with a sign-extended immediate. -/
  | ori (f : IF)
  /-- ORI_LIT (R67): ORI with a 64-bit literal immediate. -/
  | oriLit (f : IL)
  /-- XORI (R67): XORs a with a sign-extended immediate. -/
  | xori (f : IF)
  /-- XORI_LIT (R67): XORI with a 64-bit literal immediate. -/
  | xoriLit (f : IL)
  /-- SHLI (R67): shifts a left by an immediate amount. -/
  | shli (f : IF)
  /-- SHLI_LIT (R67): SHLI with a 64-bit literal amount. -/
  | shliLit (f : IL)
  /-- SHRI (R67): shifts a right logically by an immediate amount. -/
  | shri (f : IF)
  /-- SHRI_LIT (R67): SHRI with a 64-bit literal amount. -/
  | shriLit (f : IL)
  /-- SRAI (R67): shifts a right arithmetically by an immediate amount. -/
  | srai (f : IF)
  /-- SRAI_LIT (R67): SRAI with a 64-bit literal amount. -/
  | sraiLit (f : IL)
  /-- SLTI (R67): signed comparison of a with an immediate. -/
  | slti (f : IF)
  /-- SLTI_LIT (R67): SLTI with a 64-bit literal immediate. -/
  | sltiLit (f : IL)
  /-- SLTIU (R67): unsigned comparison of a with a sign-extended immediate. -/
  | sltiu (f : IF)
  /-- SLTIU_LIT (R67): SLTIU with a 64-bit literal immediate. -/
  | sltiuLit (f : IL)
  /-- MOVI (R67): writes a sign-extended immediate to d. -/
  | movi (f : IF)
  /-- MOVI_LIT (R67): writes a 64-bit literal to d. -/
  | moviLit (f : IL)
  /-- FADD (R68): FP32 addition rounded by RND.MODE. -/
  | fadd (f : RF)
  /-- FSUB (R68): FP32 subtraction rounded by RND.MODE. -/
  | fsub (f : RF)
  /-- FMUL (R68): FP32 multiplication rounded by RND.MODE. -/
  | fmul (f : RF)
  /-- FFMA (R68): FP32 fused multiply-add into the old d with one rounding. -/
  | ffma (f : RF)
  /-- FMIN (R68): FP32 minimum with -0 below +0. -/
  | fmin (f : RF)
  /-- FMAX (R68): FP32 maximum with -0 below +0. -/
  | fmax (f : RF)
  /-- FABS (R68): clears the FP32 sign bit. -/
  | fabs (f : RF)
  /-- FNEG (R68): inverts the FP32 sign bit. -/
  | fneg (f : RF)
  /-- FCMPEQ (R68): writes 1 if the FP32 operands are equal. -/
  | fcmpeq (f : RF)
  /-- FCMPLT (R68): writes 1 if FP32 a is less than b. -/
  | fcmplt (f : RF)
  /-- FCMPLE (R68): writes 1 if FP32 a is at most b. -/
  | fcmple (f : RF)
  /-- FCVTIF (R68): converts a 64-bit integer to FP32. -/
  | fcvtif (f : RF)
  /-- FCVTFI (R68): converts FP32 to a saturated 64-bit integer. -/
  | fcvtfi (f : RF)
  /-- FCLASS (R69): writes a one-hot class mask of an FP32 value. -/
  | fclass (f : RF)
  /-- BR (R70): compares two scalars and branches by a word offset if the condition holds. -/
  | br (f : BF)
  /-- BR_LONG (R70): long branch with a 32-bit word offset in aux32 (LEN 01). -/
  | brLong (f : BL)
  /-- JMP (R71): jumps by a 21-bit word offset. -/
  | jmp (f : JF)
  /-- JMP_LIT (R71): jumps to an absolute literal target. -/
  | jmpLit (f : JL)
  /-- CALL (R71): writes the return address to w27 and jumps by a word offset. -/
  | call (f : JF)
  /-- CALL_LIT (R71): CALL to an absolute literal target. -/
  | callLit (f : JL)
  /-- JR (R72): jumps to the address in a. -/
  | jr (f : RF)
  /-- CALLR (R72): writes the link to d and jumps to the address in a. -/
  | callr (f : RF)
  /-- NOP (R73): does nothing beyond its turn. -/
  | nop (f : RF)
  /-- SAFEPT (R74): marks safe point n and stops the context there if a pre-emption is pending. -/
  | safept (f : RF)
  /-- TRAP (R75): enters the trap handler with cause TRAP and TVAL n. -/
  | trap (f : RF)
  /-- TRET (R76): returns from the handler to TRETPC and clears INH. -/
  | tret (f : RF)
  /-- BKPT (R75): enters the trap handler with cause BKPT, returning to itself. -/
  | bkpt (f : RF)
  /-- MFS (R77): reads a system register into d. -/
  | mfs (f : RF)
  /-- MTS (R77): writes a into a system register, refusing reserved bits. -/
  | mts (f : RF)
  /-- RDTIME (R80): reads the GTC into d. -/
  | rdtime (f : RF)
  /-- GETID (R80): writes the identifier chosen by the selector into d. -/
  | getid (f : RF)
  /-- LD (R87): loads 1 to 8 bytes at base plus scaled displacement into d. -/
  | ld (f : MF)
  /-- LD_LIT (R87): LD with a 64-bit unscaled literal displacement. -/
  | ldLit (f : ML)
  /-- ST (R87): stores the low bytes of s at base plus scaled displacement. -/
  | st (f : MF)
  /-- ST_LIT (R87): ST with a 64-bit unscaled literal displacement. -/
  | stLit (f : ML)
  /-- LD_ACQ (R88): load with acquire of the accessed address's scope. -/
  | ldAcq (f : MF)
  /-- LD_ACQ_LIT (R88): LD.ACQ with a 64-bit literal displacement. -/
  | ldAcqLit (f : ML)
  /-- ST_REL (R88): store with release of the accessed address's scope. -/
  | stRel (f : MF)
  /-- ST_REL_LIT (R88): ST.REL with a 64-bit literal displacement. -/
  | stRelLit (f : ML)
  /-- PFETCH (R92): asks the L1 to fill the line holding an address. -/
  | pfetch (f : RF)
  /-- L1INV (R92): invalidates every line of the core's L1. -/
  | l1inv (f : RF)
  /-- WAITV (R93): parks until an 8-byte word differs from b and returns it. -/
  | waitv (f : RF)
  /-- AMOADD (R95): atomically adds b to the memory word and returns the old word. -/
  | amoadd (f : AF)
  /-- AMOAND (R95): atomic AND into the memory word. -/
  | amoand (f : AF)
  /-- AMOOR (R95): atomic OR into the memory word. -/
  | amoor (f : AF)
  /-- AMOXOR (R95): atomic XOR into the memory word. -/
  | amoxor (f : AF)
  /-- AMOMIN (R95): atomic signed minimum. -/
  | amomin (f : AF)
  /-- AMOMAX (R95): atomic signed maximum. -/
  | amomax (f : AF)
  /-- AMOMINU (R95): atomic unsigned minimum. -/
  | amominu (f : AF)
  /-- AMOMAXU (R95): atomic unsigned maximum. -/
  | amomaxu (f : AF)
  /-- AMOSWAP (R95): atomically swaps b into the memory word. -/
  | amoswap (f : AF)
  /-- AMOCAS (R95): atomic compare-and-swap against the old d. -/
  | amocas (f : AF)
  /-- AMOFADD (R96): atomic FP32 add rounded by RNE. -/
  | amofadd (f : AF)
  /-- AMOAMAX (R96): atomic FP32 maximum of magnitudes. -/
  | amoamax (f : AF)
  /-- FENCE_C (R98): fence of core scope. -/
  | fenceC (f : RF)
  /-- FENCE_K (R98): waits for the context's stores homed in the cluster scope. -/
  | fenceK (f : RF)
  /-- FENCE_P (R98): waits for stores homed in the package scope and invalidates the L1. -/
  | fenceP (f : RF)
  /-- FENCE_S (R100): system-scope fence that reads and clears the per-peer error bits. -/
  | fenceS (f : RF)
  /-- VADD (R103): lane-wise integer addition. -/
  | vadd (f : XF)
  /-- VSUB (R103): lane-wise integer subtraction. -/
  | vsub (f : XF)
  /-- VMUL (R103): lane-wise low integer product. -/
  | vmul (f : XF)
  /-- VMULH (R103): lane-wise high integer product. -/
  | vmulh (f : XF)
  /-- VMAD (R103): lane-wise integer multiply-add. -/
  | vmad (f : XF)
  /-- VMACW (R105): multiplies 8-bit lanes and accumulates into four INT32 q registers. -/
  | vmacw (f : XF)
  /-- VDOT4 (R105): four-way 8-bit dot products accumulated into INT32 lanes. -/
  | vdot4 (f : XF)
  /-- VMIN (R103): lane-wise integer minimum. -/
  | vmin (f : XF)
  /-- VMAX (R103): lane-wise integer maximum. -/
  | vmax (f : XF)
  /-- VABS (R103): lane-wise integer absolute value. -/
  | vabs (f : XF)
  /-- VAND (R103): lane-wise AND. -/
  | vand (f : XF)
  /-- VOR (R103): lane-wise OR. -/
  | vor (f : XF)
  /-- VXOR (R103): lane-wise XOR. -/
  | vxor (f : XF)
  /-- VSHLI (R103): lane-wise left shift by an immediate. -/
  | vshli (f : XF)
  /-- VSHRI (R103): lane-wise logical right shift by an immediate. -/
  | vshri (f : XF)
  /-- VSRAI (R103): lane-wise arithmetic right shift by an immediate. -/
  | vsrai (f : XF)
  /-- VRSHR (R104): lane-wise right shift rounding ties toward +infinity. -/
  | vrshr (f : XF)
  /-- VFADD (R106): lane-wise floating-point addition. -/
  | vfadd (f : XF)
  /-- VFSUB (R106): lane-wise floating-point subtraction. -/
  | vfsub (f : XF)
  /-- VFMUL (R106): lane-wise floating-point multiplication. -/
  | vfmul (f : XF)
  /-- VFFMA (R106): lane-wise fused multiply-add. -/
  | vffma (f : XF)
  /-- VFMIN (R106): lane-wise floating-point minimum. -/
  | vfmin (f : XF)
  /-- VFMAX (R106): lane-wise floating-point maximum. -/
  | vfmax (f : XF)
  /-- VLD (R107): loads 16 bytes into a vector operand. -/
  | vld (f : XF)
  /-- VST (R107): stores the on lanes of a vector operand as one partial write. -/
  | vst (f : XF)
  /-- VSPLAT (R108): copies a scalar into every lane. -/
  | vsplat (f : XF)
  /-- VSPLAT_LIT (R108): VSPLAT with a literal value (LEN 11). -/
  | vsplatLit (f : XL)
  /-- VPERM (R108): permutes lanes by index nibbles in b. -/
  | vperm (f : XF)
  /-- VPERM_LIT (R108): VPERM with a literal index vector (LEN 11). -/
  | vpermLit (f : XL)
  /-- VSLIDE (R108): slides lanes across two operands by n. -/
  | vslide (f : XF)
  /-- VRED (R109): sequentially reduces the on lanes into lane 0. -/
  | vred (f : XF)
  /-- VSEL (R110): selects lanes from a or b by the predicate. -/
  | vsel (f : XF)
  /-- VCMP (R111): compares lanes and writes a predicate. -/
  | vcmp (f : XF)
  /-- KAND (R112): ANDs two predicates. -/
  | kand (f : XF)
  /-- KOR (R112): ORs two predicates. -/
  | kor (f : XF)
  /-- KNOT (R112): inverts a predicate. -/
  | knot (f : XF)
  /-- KMOV (R112): copies a predicate. -/
  | kmov (f : XF)
  /-- KMOV_IMM (R112): writes a 16-bit immediate to a predicate. -/
  | kmovImm (f : XF)
  /-- VFCVT (R113): converts lanes between types, with a part selector. -/
  | vfcvt (f : XF)
  /-- VNARROW (R114): saturates INT32 lanes of several q registers to 8 or 16 bits. -/
  | vnarrow (f : XF)
  /-- VWIDEN (R114): extends 8- or 16-bit lanes to INT32 across several q registers. -/
  | vwiden (f : XF)
  /-- SRCP (R122): SFU reciprocal. -/
  | srcp (f : XF)
  /-- SRSQ (R122): SFU reciprocal square root. -/
  | srsq (f : XF)
  /-- SEXP2 (R122): SFU base-2 exponential. -/
  | sexp2 (f : XF)
  /-- SLOG2 (R122): SFU base-2 logarithm. -/
  | slog2 (f : XF)
  /-- SSIN (R122): SFU sin(pi x). -/
  | ssin (f : XF)
  /-- SCOS (R122): SFU cos(pi x). -/
  | scos (f : XF)
  /-- STANH (R122): SFU hyperbolic tangent. -/
  | stanh (f : XF)
  /-- SSIGM (R122): SFU logistic sigmoid. -/
  | ssigm (f : XF)
  /-- STBIND (R115): binds a stream port to a last. -/
  | stbind (f : XF)
  /-- STEND (R117): unbinds a stream port, waiting for write acknowledgements. -/
  | stend (f : XF)
  /-- CHBIND (R118): binds a channel to a remote core's inbound queue. -/
  | chbind (f : XF)
  /-- CHEND (R120): drains and unbinds a channel. -/
  | chend (f : XF)
  /-- MXLDW (R130): loads 64 weight rows into an engine's shadow plane. -/
  | mxldw (f : XF)
  /-- MXSWAP (R131): queues a swap of an engine's active and shadow planes. -/
  | mxswap (f : XF)
  /-- MXQ (R134): checks a tile-task record, locks its operands and queues it. -/
  | mxq (f : XF)
  /-- MXWAITV (R139): parks until an accumulator reaches an immediate version. -/
  | mxwaitv (f : XF)
  /-- MXWAITV_REG (R139): parks until an accumulator reaches the version in a register. -/
  | mxwaitvReg (f : XF)
  /-- MXDRAIN (R140): queues a drain of an accumulator to memory and waits for it. -/
  | mxdrain (f : XF)
  /-- MXDRAIN_CE (R140): streams an accumulator into a collective-engine plan slot. -/
  | mxdrainCe (f : XF)
  /-- MXZERO (R141): queues a zero entry for an accumulator. -/
  | mxzero (f : XF)
  /-- MXZERO_LD (R141): reads 8 KiB and queues a fill entry for an accumulator. -/
  | mxzeroLd (f : XF)
  /-- MXCB (R132): reads 16 BF16 entries and queues a codebook load. -/
  | mxcb (f : XF)
  /-- SCACC (R142): reads MX scales and queues a scale of one block tile into another accumulator. -/
  | scacc (f : XF)
  /-- MXSTAT (R143): reads an accumulator's status word. -/
  | mxstat (f : XF)
  /-- NORMREF (R150): builds or refreshes a handle's norm table. -/
  | normref (f : XF)
  /-- NORMRD (R151): reads one norm-table entry with its stale bit. -/
  | normrd (f : XF)
  /-- SEND (R166): checks, locks and accepts a bulk copy, optionally into a handle or from a handle. -/
  | send (f : XF)
  /-- MBWAIT (R162): parks until a mailbox count is reached or abandoned, then invalidates the L1. -/
  | mbwait (f : XF)
  /-- MBREAD (R162): reads a mailbox tag's COUNT and ABANDON. -/
  | mbread (f : XF)
  /-- MBSET (R162): writes a mailbox tag's COUNT and ABANDON. -/
  | mbset (f : XF)
  /-- HCLAIM (R164): claims a FREE handle over a scratchpad range. -/
  | hclaim (f : XF)
  /-- HWAIT (R165): parks until a handle is neither FILLING nor DRAINING and returns its status. -/
  | hwait (f : XF)
  /-- HFREE (R163): frees a FULL unpinned handle and its norm table. -/
  | hfree (f : XF)
  /-- HSTAT (R165): reads a handle's status word. -/
  | hstat (f : XF)
  /-- GATHER (R172): accepts a gather of indexed rows into a handle. -/
  | gather (f : XF)
  /-- NZSCAN (R173): lists the indices of non-zero elements. -/
  | nzscan (f : XF)
  /-- RSCAT (R174): hands a reduce-scatter plan to the die's collective engine. -/
  | rscat (f : XF)
  /-- VDEC (R175): queues an AV1 decode command on a decoder. -/
  | vdec (f : XF)
  /-- GMADD (R181): SFU request adding two Gaussian records. -/
  | gmadd (f : XF)
  /-- GMADD_J (R181): SFU request adding a record into a joint block at offset o. -/
  | gmaddJ (f : XF)
  /-- GMSUB (R181): SFU request subtracting two Gaussian records. -/
  | gmsub (f : XF)
  /-- GMSUB_J (R181): SFU request subtracting a record from a joint block at offset o. -/
  | gmsubJ (f : XF)
  /-- GMSCHUR (R182): SFU request eliminating dimensions of a joint block by Schur complement. -/
  | gmschur (f : XF)
  /-- GMDAMP (R186): SFU request blending two records by a damping factor, whose bit 0 is 0 (R178, log 66). -/
  | gmdamp (f : XF)
  /-- GMSEND (R184): sends a record as one store to a destination record. -/
  | gmsend (f : XF)
  /-- GMPOLL (R187): picks the record with the largest residual and zeroes it. -/
  | gmpoll (f : XF)
  /-- GMMEAN (R183): SFU request solving for the mean of a record. -/
  | gmmean (f : XF)
  /-- START (R189): makes a helper context live at an offset target. -/
  | start (f : XF)
  /-- START_R (R189): makes a helper context live at a register target. -/
  | startR (f : XF)
  /-- REAP (R190): parks the control context until a helper is not live. -/
  | reap (f : XF)
  /-- EXIT (R191): ends the issuing context, or the core's part for a control context. -/
  | exit (f : XF)
  /-- RESOLE (R198): checks and parks for a hand-off of the pitch to a successor kernel. -/
  | resole (f : XF)
  /-- LAUNCH (R194): asks the scheduler to place a new group from a launch record. -/
  | launch (f : XF)
  /-- MIGRATE (R193): moves a task helper to another core of the pitch. -/
  | migrate (f : XF)
  /-- YIELD (R192): holds the context for its next n own turns. -/
  | yield (f : XF)
  /-- RDVINIT (R203): sets a rendezvous point's expected arrivals. -/
  | rdvinit (f : XF)
  /-- ARRIVE (R204): releases and sends one arrival to a rendezvous point's home. -/
  | arrive (f : XF)
  /-- RDVWAIT (R205): parks until the context's target phase is reached. -/
  | rdvwait (f : XF)
  /-- RDVWAIT_PHASE (R205): parks until a phase given in a register is reached. -/
  | rdvwaitPhase (f : XF)
  /-- ILLEGAL_ENCODING (R58): A context issues a fetched word that decodes to no instruction, such as major 0x00, 0x3F, a reserved major or a reserved minor, and traps ILLEGAL. -/
  | illegalEncoding (w0 : BitVec 32)
  /-- FIXED_LATENCY_WRITE (R20): A fixed-latency result is written at its readable turn.  Object: a = cid. -/
  | fixedLatencyWrite
  /-- INTERLOCKED_RESULT (R23): the response of an interlocked access arrives and its result is written or its trap taken.  Object: a = id; c = 1 for the second step of a scan. -/
  | interlockedResult
  /-- STALL_DISTANCE_END (R21): the STALL distance of a context's last instruction elapses.  Object: a = cid, b = slot. -/
  | stallDistanceEnd
  /-- YIELD_END (R192): the count of turns held by YIELD runs out.  Object: a = cid, b = slot. -/
  | yieldEnd
  /-- HOME_ACCESS (R235): an arriving access is performed at its home in home order.  Object: a = id. -/
  | homeAccess
  /-- STORE_ACK (R89): A store acknowledgement arrives and USTORE falls.  Object: a = id. -/
  | storeAck
  /-- L1_FILL (R85): A line fill arrives at the L1, or is discarded after an invalidation.  Object: a = id. -/
  | l1Fill
  /-- WAITV_POLL (R93): A WAITV without a watch re-reads every 1,024 turns.  Object: a = cid, b = slot, c = id. -/
  | waitvPoll
  /-- STREAM_PREFETCH (R116): A read stream fetches a word ahead.  Object: a = cid, b = port. -/
  | streamPrefetch
  /-- CHANNEL_WORD_DELIVERY (R119): A written word leaves the outbound queue into the remote inbound queue.  Object: a = cid, b = ch, c = the binding. -/
  | channelWordDelivery
  /-- CHANNEL_CREDIT_RETURN (R221): A place freed by a pop becomes known to the sender.  Object: a = cid, b = ch, c = the binding. -/
  | channelCreditReturn
  /-- ENGINE_QUEUE_ACCEPT (R126): A posted engine instruction waiting for a free place is accepted.  Object: a = cl. -/
  | engineQueueAccept
  /-- TASK_START (R128): the oldest tile task starts once its conditions hold.  Object: a = cl. -/
  | taskStart
  /-- SWAP_START (R131): A queued swap exchanges an engine's planes and completes.  Object: a = cl. -/
  | swapStart
  /-- CODEBOOK_LOAD_START (R132): A queued codebook load writes its slot and completes.  Object: a = cl. -/
  | codebookLoadStart
  /-- DRAIN_START (R140): A queued drain starts writing an accumulator.  Object: a = cl. -/
  | drainStart
  /-- ZERO_START (R141): A queued zero entry starts.  Object: a = cl. -/
  | zeroStart
  /-- FILL_START (R141): A queued fill entry starts.  Object: a = cl. -/
  | fillStart
  /-- SCALE_START (R142): A queued scale entry starts.  Object: a = cl. -/
  | scaleStart
  /-- ENTRY_COMPLETION (R129): an engine entry writes words and status, advances versions, releases locks and arrives.  Object: a = cl, b = id. -/
  | entryCompletion
  /-- SFU_SERVICE_START (R180): the SFU begins serving the oldest request and reads its operands.  Object: a = cl, and for the reads of a Gaussian
  request b = its id. -/
  | sfuServiceStart
  /-- SFU_COMPLETION (R180): the SFU writes outputs and returns the token, or raises SINGULAR.  Object: a = cl, b = id. -/
  | sfuCompletion
  /-- TRANSFER_ACCEPT (R161): A posted transfer waiting for room or locks is accepted.  Object: a = cid; for
  the first reads of an accepted one b = its id. -/
  | transferAccept
  /-- LOCK_MESSAGE_ARRIVAL (R167): A SEND lock message takes the destination lock or waits for a free entry.  Object: a = the
  message of the network; to take the lock ok, a = id of the transfer. -/
  | lockMessageArrival
  /-- GATE_REQUEST (R168): A request for the scheduled remainder is placed at the gate.  Object: a = id. -/
  | gateRequest
  /-- TOKEN_GRANT (R168): the gate grants a pull token by priority, share and round-robin.  Object: a = die. -/
  | tokenGrant
  /-- TOKEN_ARRIVAL (R168): A token reaches the sender, which sends up to four packets.  Object: a = id, b = k. -/
  | tokenArrival
  /-- TOKEN_EXPIRY (R168): an unused token expires after TOKEXP ticks and returns to the gate.  Object: a = id, b = k. -/
  | tokenExpiry
  /-- PACKET_LANDING (R169): A packet's bytes are performed, the lock released, counts and handles updated.  Object: a = id, b = n, c = the
  unit; ok for a last unit in the place of its source. -/
  | packetLanding
  /-- NOTIFY_LATCH_DRAIN (R163): A latched handle status word enters the inbound queue when room appears.  Object: a = cid, b = h. -/
  | notifyLatchDrain
  /-- LAST_SOURCE_READ (R167): the last source byte is read, releasing the source lock or draining the handle.  Object: a = id. -/
  | lastSourceRead
  /-- SEND_DONE (R169): after the last acknowledgement a SEND with DONE counts the sender's tag.  Object: a = id. -/
  | sendDone
  /-- CXL_TRANSFER_FAILURE (R275): A CXL-tier failure abandons a transfer and logs an event.  Object: a = id, c = 0 for its source and 1 for its destination. -/
  | cxlTransferFailure
  /-- GATHER_ROW_FETCH (R172): one indexed row is fetched and lands in the handle.  Object: a = id, b = n, c = the unit. -/
  | gatherRowFetch
  /-- GATHER_COMPLETION (R172): A gather sets LANDED, SWZ, counts and makes the handle FULL.  Object: a = id. -/
  | gatherCompletion
  /-- RSCAT_COMPLETION (R174): A reduce-scatter writes DST, counts MB and may arrive.  Object: a = id, c = 0 to go on, 1 for
  its input, 2 for a failure, 3 for unit b of its result; 4 with a = the message whose chunk has come. -/
  | rscatCompletion
  /-- VDEC_COMMAND_START (R175): A decoder starts its next queued command.  Object: a = die, b = dec. -/
  | vdecCommandStart
  /-- FRAME_LANDING (R175): A decoded frame lands in its handle.  Object: a = id, b = f, c = 0 to decode it, else the next unit,
  256 for each packet. -/
  | frameLanding
  /-- DECODE_BATCH_END (R176): the last frame is counted and the decoder may arrive.  Object: a = id. -/
  | decodeBatchEnd
  /-- GMSEND_LANDING (R185): A Gaussian message lands with damping, residual and count.  Object: a = id. -/
  | gmsendLanding
  /-- RENDEZVOUS_ARRIVAL (R204): an arrival is counted at the home and may complete the phase.  Object: a = id. -/
  | rendezvousArrival
  /-- ARRIVE_RESPONSE (R204): the response sets the context's target phase.  Object: a = id. -/
  | arriveResponse
  /-- PHASE_UPDATE (R202): A new PHASE sent by the home is received on a core.  Object: a = cid, b = pt, c = gid, v = phase. -/
  | phaseUpdate
  /-- RDVINIT_AT_HOME (R203): A remote RDVINIT is performed at the home.  Object: a = id. -/
  | rdvinitAtHome
  /-- CLOAD_REFRESH (R212): every 1,024 turns the core refreshes its load summary.  Object: a = cid, c = gid. -/
  | cloadRefresh
  /-- MIGRATION_SEND (R193): after its waits a migrating context is packed and sent.  Object: a = cid, b = slot, c = target; ok with the answer to the request v. -/
  | migrationSend
  /-- MIGRATION_RESERVATION (R214): the target core chooses a slot for a migration or refuses it.  Object: a = id. -/
  | migrationReservation
  /-- MIGRATION_LANDING (R214): A migrant lands in its slot and the L1 is invalidated.  Object: a = id. -/
  | migrationLanding
  /-- REMOTE_LOAD_MOVE (R215): A context with a load homed on another module is packed and sent there.  Object: a = cid, b = slot. -/
  | remoteLoadMove
  /-- GUEST_LANDING (R216): A moved context is placed on a guest core.  Object: a = id. -/
  | guestLanding
  /-- GUEST_RETURN (R218): A guest is packed and sent back home.  Object: a = cid, b = slot. -/
  | guestReturn
  /-- GUEST_HOME_LANDING (R218): A returning guest lands in its home slot, taking any pending trap.  Object: a = id. -/
  | guestHomeLanding
  /-- RESOLE_SCRUB (R200): after the waits every core scrubs what is not kept.  Object: a = gid. -/
  | resoleScrub
  /-- RESOLE_SUCCESSOR_START (R200): the successor's first instruction issues after the scrub and copy.  Object: a = gid. -/
  | resoleSuccessorStart
  /-- PITCH_RELEASE (R191): once started entries and SFU requests complete, the pitch is released.  Object: a = gid. -/
  | pitchRelease
  /-- RELEASE_SCRUB_DONE (R231): the release scrub of 8,192 cycles finishes.  Object: a = gid. -/
  | releaseScrubDone
  /-- PLACEMENT (R254): the scheduler places a waiting request on a pitch. -/
  | placement
  /-- SAVE_ROUTINE_START (R257): after stopping and draining, save routines start.  Object: a = gid. -/
  | saveRoutineStart
  /-- PREEMPT_HW_SAVE (R257): the gate and scheduler write the hardware part of the frame.  Object: a = gid. -/
  | preemptHwSave
  /-- PREEMPT_TIMEOUT (R257): PTO expires before saving began and the group is killed.  Object: a = gid, c = the deadline. -/
  | preemptTimeout
  /-- RESTORE_HW_WRITEBACK (R258): after restore routines the hardware part is written back.  Object: a = gid. -/
  | restoreHwWriteback
  /-- PAGE_WALK (R265): A walker translates a missing page.  Object: off = 1, a = die, b = the miss; after a hit in the die's TLB a = cid; b = slot,
  v = serial; for a prefetch ok, v = address; for a stream c = port + 1, b = word, v = address. -/
  | pageWalk
  /-- TLB_MISS_RETRY (R270): A miss finding the queue full is retried each cycle.  Object: a = die. -/
  | tlbMissRetry
  /-- INSTRUCTION_FETCH_DONE (R307): A pending instruction fetch completes.  Object: a = cid, b = slot, v = serial. -/
  | instructionFetchDone
  /-- PORT_RCB (R260): writing RCB creates or reloads a region.  Object: a = p, v = v. -/
  | portRcb
  /-- PORT_LAUNCH (R260): writing LAUNCH submits a launch record.  Object: a = p, v = v. -/
  | portLaunch
  /-- PORT_PREEMPT (R260): writing PREEMPT makes a group pending for pre-emption.  Object: a = p, v = v. -/
  | portPreempt
  /-- PORT_KILL (R260): writing KILL kills a group or the whole region.  Object: a = p, v = v. -/
  | portKill
  /-- PORT_WRITE_DONE (R260): handling of a port write ends and RESULT status changes.  Object: a = p, b = status, c = gid. -/
  | portWriteDone
  /-- ART_CTRL_WRITE (R268): writing an address-range CTRL enables or refuses an entry.  Object: a = e, v = v; for a
  die that performs a write that was broadcast b = die + 1, c = the register's offset. -/
  | artCtrlWrite
  /-- INVALIDATE_PAGE (R272): INVCTL KIND 0 removes one 64 KiB page's translations.  Object: a = region. -/
  | invalidatePage
  /-- INVALIDATE_RANGE (R272): INVCTL KIND 1 removes a 512 MiB range's translations.  Object: a = region. -/
  | invalidateRange
  /-- INVALIDATE_REGION (R272): INVCTL KIND 2 removes a region's translations.  Object: a = region. -/
  | invalidateRegion
  /-- INVALIDATE_ALL (R272): INVCTL KIND 3 removes every region's translations. -/
  | invalidateAll
  /-- INVALIDATION_DONE (R272): the invalidation finishes and INVSTAT reads 0.  Object: c = the first identifier after the write. -/
  | invalidationDone
  /-- MULTICAST_COMMIT (R287): writing COMMIT installs a staged multicast bitmap.  Object: a = g. -/
  | multicastCommit
  /-- COMMIT_ACK (R287): every link die holds the new version and COMMIT is acknowledged.  Object: a = g, v = version. -/
  | commitAck
  /-- RESYNC (R292): the resync command writes a state summary to a buffer.  Object: v = v. -/
  | resync
  /-- RESYNC_DONE (R292): the resync finishes and RSSTAT reports its result.  Object: v = start GTC. -/
  | resyncDone
  /-- ATTESTATION_QUOTE (R294): A quote request returns measurements signed by the device key.  Object: bytes = nonce. -/
  | attestationQuote
  /-- MODULE_RESET (R293): A module reset starts the boot chain.  Object: ok = a die-to-die link cannot be retrained. -/
  | moduleReset
  /-- BOOT_STAGE (R293): the Welt verifies and runs the next boot stage.  Object: a = n. -/
  | bootStage
  /-- GOVERNOR_WINDOW (R7): at each power window the governor adjusts G or the clock.  Object: v = avg. -/
  | governorWindow
  /-- PATROL_SCRUB (R282): the patrol reads and corrects ECC words of HBM and L2.  Object: a = the storage place; ok for the
  whole module. -/
  | patrolScrub
  /-- GTC_SYNC (R290): neighbours exchange timestamps and slew their GTC.  Object: off = offset; for a correction ok, c = corrections left. -/
  | gtcSync
  /-- LANE_SAMPLE (R288): ports sample lane error counts and margins.  Object: b = the sample. -/
  | laneSample
  /-- FLIT_RECEIVE (R285): A flit arrives; an uncorrectable one is asked for again.  Object: a = port, ok = good;
  b = 0 the flit expected, 1 an acknowledgement up to flit c, 2 a request for flit c again. -/
  | flitReceive
  /-- E2E_TIMEOUT (R286): an unacknowledged fabric packet is resent after E2ETO.  Object: a = id. -/
  | e2eTimeout
  /-- FABRIC_PACKET_DELIVERY (R286): the destination delivers a fabric packet in sequence and acknowledges it.  Object: a = id; for one of
  this module ok = performed, v = the value. -/
  | fabricPacketDelivery
  /-- REGISTER_WRITE (R260): A write to a control register with no behaviour of its own.  Object: a = addr, v = v. -/
  | registerWrite
  /-- LINK_RETRY_TIMEOUT (R285): A Grisia Link flit asked for again is not received within the retry time-out, counting toward the eight failures that take the port down.  Object: a = port, c = the flit. -/
  | linkRetryTimeout
  /-- CXL_LINK_DROP (R275): A CXL root-port link drops, every slice discards its clean lines of that port, and later tier loads fail.  Object: a = port. -/
  | cxlLinkDrop
  /-- CXL_LINK_RETURN (R275): A dropped CXL root-port link comes back, and tier loads succeed again.  Object: a = port. -/
  | cxlLinkReturn
  deriving DecidableEq, Repr

end Sys2Proof
end

