-- ==== Sys2Proof/Machine/State.lean ====
section
/-!
DEFINITION. The state of one K7 module: everything the spec gives the machine, as plain data.  A register of a context
lives in the bytes of its workspace (R224), so it has no field of its own; the accessors are in Machine/Ops.lean.
Objects that a core, cluster or die holds many of are sparse tables: an absent entry is the object's start value.
-/
namespace Sys2Proof.Machine

/-- Bytes by address, in one canonical form: addresses strictly rising, no byte equal to the unlisted value 0 (log 2). -/
abbrev Mem := List Host.Cell

/-- A sparse table. -/
abbrev Tab (α : Type) := List (Nat × α)

/-- Why a step can stop for good. -/
inductive Fault where
  /-- Raised by a step of a module that is stopped: a failed check of boot stage 1 (R293) or a die-to-die link that
  cannot be retrained (R285).  Safe: the stopped module does nothing. -/
  | moduleStopped
  deriving DecidableEq, Repr

/-- Why an instruction has no meaning. -/
inductive Refusal where
  /-- An arm of exec that has no meaning yet.  Safe: nothing can be proved of it. -/
  | notModelled (mnemonic : String)
  deriving DecidableEq, Repr

/-- The trap causes that reach TCAUSE, and PREEMPT_TIMEOUT, which only event records carry (R277). -/
inductive Cause where
  | illegal | feature | align | xlate | perm | peerGone | rangeLock | stallCheck | singular | swizzle | shape | handle
  | channel | trap | bkpt | memerr | sendDenied | preemptTimeout
  deriving DecidableEq, Repr

/-- A trap: its cause, TVAL, and the operand use that met it with its direction (R26). -/
structure TrapInfo where
  cause : Cause
  tval : BitVec 64
  /-- TSTATUS.SLOT: 0 the instruction as a whole, 1 to 4 the uses a, b, c, d. -/
  use : Nat := 0
  /-- TSTATUS.DIR: the faulting use was a write. -/
  write : Bool := false
  /-- TRETPC is the sequential successor (TRAP, R75). -/
  after : Bool := false
  deriving DecidableEq, Repr

/-- The settings that MODE reports (R78); GUEST is Slot.guest. -/
structure ModeBits where
  det : Bool := false
  gov : Bool := false
  sbchk : Bool := false
  task : Bool := false
  deriving DecidableEq, Repr

/-- The home of a byte (R235): a scratchpad, an L2 slice, or a home on another module. -/
inductive Home where
  | scratch (cid : Nat)
  | slice (g : Nat)
  | node (n : Nat)
  deriving DecidableEq, Repr

/-- An access after decoding and translation. -/
structure Loc where
  home : Home
  /-- The scratchpad offset, the storage place (R267, R274), or the address on the other module. -/
  addr : Nat
  /-- The physical address of a global access (the tag of an L1 line); 0 otherwise. -/
  pa : Nat := 0
  /-- A page of the CXL tier (R274). -/
  tier : Bool := false
  /-- The class of its page, in which its line enters the L2 (R264, R269). -/
  cls : Nat := 0
  deriving DecidableEq, Repr

/-- When an event is due: a cycle, a turn of a core (R90, R221), or a GTC value (R7). -/
inductive Due where
  | cycle (n : Nat)
  | turn (cid n : Nat)
  | gtc (n : Nat)
  deriving DecidableEq, Repr

/-- The object of a step that no instruction word names: each step's docstring in Syntax.lean says which fields it uses. -/
structure Obj where
  a : Nat := 0
  b : Nat := 0
  c : Nat := 0
  v : BitVec 64 := 0
  off : Int := 0
  ok : Bool := false
  bytes : List (BitVec 8) := []
  deriving DecidableEq, Repr

/-- One entry of the agenda: a step that no instruction word names, its due time, and its place among the steps of
one cycle (R236). -/
structure Event where
  due : Due
  rank : Nat
  ins : Instr
  obj : Obj := {}
  deriving DecidableEq, Repr

/-- Where a result goes when it is written. -/
inductive Dest where
  /-- Discarded (w0, R18). -/
  | none
  /-- A word of the workspace of a slot, at an offset from WP (R224). -/
  | reg (slot off : Nat)
  /-- Bytes of the core's own scratchpad, through a pointer (R20), or through a write stream, which STEND waits for (R117). -/
  | scratch (off : Nat)
  | stream (port off : Nat)
  /-- The place a push took in the outbound queue of a channel (R119). -/
  | place (ch seq : Nat)
  /-- A store of the network that leaves at the readable turn (R102). -/
  | send (id : Nat)
  deriving DecidableEq, Repr

/-- A fixed-latency result that is not yet written (R20, R22). -/
structure Pend where
  due : Nat
  slot : Nat
  dest : Dest
  data : BitVec 128
  mask : BitVec 16
  deriving DecidableEq, Repr

/-- A result that came to a register during a walk: its place in the workspace, its bytes, and the bytes before it. -/
structure Late where
  off : Nat
  mask : BitVec 16
  before : BitVec 128
  data : BitVec 128
  deriving DecidableEq, Repr

/-- The inputs of a vector instruction as they stand at issue (R101). -/
structure VInputs where
  /-- The governing predicate, KNEG applied; all ones when K is 0. -/
  lanes : BitVec 16
  /-- The rounding mode, SRBITS, SRCTR, SEED and home tag (R33, R34, R37). -/
  mode : Nat := 0
  srbits : Nat := 24
  srctr : Nat := 0
  seed : BitVec 64 := 0
  tag : Nat := 0
  a : BitVec 128 := 0
  b : BitVec 128 := 0
  c : BitVec 128 := 0
  /-- Further registers that the instruction reads: the rest of a group of q registers (R105, R114). -/
  group : List (BitVec 128) := []
  deriving DecidableEq, Repr

/-- Where a vector result goes, chosen at issue. -/
inductive VDest where
  | q (n : Nat)
  | k (n : Nat)
  /-- Through a pointer or a stream: address, resolved place, and the store that will carry it outside the own
  scratchpad (R102). -/
  | mem (va : BitVec 64) (loc : Loc) (msg : Option Nat)
  /-- Through a write stream into the own scratchpad (R117). -/
  | stream (port : Nat) (va : BitVec 64) (loc : Loc)
  deriving DecidableEq, Repr

/-- A word in an inbound queue, with the context that pushed it (R119). -/
structure InWord where
  word : BitVec 64
  cid : Nat := 0
  slot : Nat := 0
  serial : Nat := 0
  deriving DecidableEq, Repr

/-- What an interlocked instruction took at issue, given back if its response traps (R25, R26). -/
inductive Undo where
  | pointer (n : Nat) (old : BitVec 64)
  | pop (ch : Nat) (word : InWord)
  | stream (port : Nat) (word : Option (BitVec 128))
  /-- A word of a write stream, which lies outside the own scratchpad or in it. -/
  | written (port : Nat) (away : Bool)
  | place (ch seq : Nat)
  | rnd (old : BitVec 64)
  | store (id : Nat)
  deriving DecidableEq, Repr

/-- A word that a read stream has fetched ahead: absent while on its way, a value, or the failure of its check (R116). -/
inductive Ahead where
  /-- A word in the own scratchpad: read when it is consumed. -/
  | here
  | coming (id : Nat)
  | word (v : BitVec 128)
  | failed (t : TrapInfo)
  deriving DecidableEq, Repr

/-- A bound stream port (R115, R116): direction, the walk over its words (base, and of each dimension the first index, the
count and the stride), its position, the words fetched ahead, the writes not yet acknowledged, and those into the own
scratchpad not yet performed (R117). -/
structure Stream where
  write : Bool
  base : BitVec 64
  dims : List (Nat × Nat × BitVec 64)
  pos : Nat := 0
  ahead : List Ahead := []
  unacked : Nat := 0
  pending : Nat := 0
  /-- The slot of the context that bound the port, and its home core, which a core field 0xFFF names (R81). -/
  slot : Nat := 0
  home : Nat := 0
  deriving DecidableEq, Repr

/-- What CHBIND bound (R118). -/
structure Binding where
  cid : Nat
  remote : Nat
  gid : Nat
  deriving DecidableEq, Repr

/-- What a context waits for (R16). -/
inductive Wait where
  /-- Ready, or held by the time-bound fields of its slot. -/
  | ready
  /-- Waiting for the response to an access (R23). -/
  | result (id : Nat)
  /-- Waiting for the reads of a vector instruction through pointers outside the local window (R19, R23): the
  accesses with the operand use each serves, and the inputs gathered so far. -/
  | gather (i : Instr) (reads : List (Nat × Nat)) (v : VInputs) (dest : VDest)
  /-- Waiting for the loads of a range, in its order (R126, R127, R130). -/
  | rows (ids : List Nat)
  /-- Waiting for the translation of an address (R270, R271). -/
  | walk (va : BitVec 64)
  /-- The same for a later access of an instruction that has issued, whose loads so far are kept (R194, R270). -/
  | walkRows (va : BitVec 64) (ids : List Nat)
  /-- Held for an instruction fetch (R307). -/
  | fetch
  /-- Waiting for USTORE to fall below 64 (R89). -/
  | ustore
  /-- Waiting for earlier stores of a scope; then the kept message goes out (R88, R97, R204). -/
  | release (scope id : Nat)
  /-- Waiting in a FENCE (R98, R100): the scope, FENCE.S's result, bitmap store, and failures recorded meanwhile. -/
  | fence (scope : Nat) (d : Dest) (bitmap : Option (BitVec 64 × List Loc)) (isS : Bool) (late : BitVec 1024)
  /-- Waiting for the writes of a write stream (R117); then, for STBIND, the binding. -/
  | stend (port : Nat) (rebind : Option Stream)
  /-- Waiting for an outbound queue to drain (R120); then, for CHBIND, the binding target (R118). -/
  | chend (ch : Nat) (target : Option Binding)
  /-- Waiting for a place in the engine queue (R126) or the transfer unit (R161): what was built at issue. -/
  | enqueue
  | accept
  /-- START waits for a reserved slot (R189). -/
  | start (idx : Nat) (target : BitVec 64)
  /-- MIGRATE's wait conditions (R193), then the reservation. -/
  | migrate (d : Dest) (target : Nat) (hardware : Bool)
  | reserve (id : Nat)
  /-- Waiting to leave for another module (R215) or to go home (R218). -/
  | depart (node addr : Nat)
  | goHome (trap : Option TrapInfo)
  /-- Away: the home slot of a context on another core or module; its turns are idle. -/
  | away
  /-- MXLDW, MXDRAIN, NORMREF, NZSCAN, LAUNCH and other interlocked work that ends by an event (R23). -/
  | engine (id : Nat)
  /-- Parked in WAITV: the read of the word, and whether a watch was placed (R93). -/
  | watch (id : Nat)
  /-- Parked in MBWAIT (R162). -/
  | mailbox (tag count : Nat) (d : Dest)
  /-- Parked in HWAIT (R165). -/
  | handle (h : Nat) (d : Dest)
  /-- Parked in MXWAITV (R139): a physical accumulator of the cluster. -/
  | version (acc v : Nat)
  /-- Parked in RDVWAIT (R205): the phase, or the target phase once the ARRIVE is answered. -/
  | rendezvous (pt : Nat) (phase : Option (BitVec 16))
  /-- Parked in REAP (R190). -/
  | reap (idx : Nat)
  /-- Parked in RESOLE (R198). -/
  | resole
  /-- Parked in an SFU request (R123, R180). -/
  | sfu (id : Nat)
  deriving DecidableEq, Repr

/-- The routine that the scheduler runs in a slot (R257, R258). -/
inductive Routine where
  | save | restore
  deriving DecidableEq, Repr

/-- The code window of a guest (R215): its address and its bytes, absent words missing. -/
structure CodeWindow where
  base : BitVec 64
  words : Tab (BitVec 32)
  deriving DecidableEq, Repr

/-- A TLB entry (R270): the region, the virtual page base and size, the physical base and the leaf. -/
structure TlbEntry where
  region : Nat
  va : Nat
  size : Nat
  pa : Nat
  w : Bool
  x : Bool
  cls : Nat
  deriving DecidableEq, Repr

/-- One of the sixteen slots of a core and the context in it (R209, R210). -/
structure Slot where
  live : Bool := false
  /-- The home slot of a helper that runs elsewhere (R193, R215). -/
  reserved : Bool := false
  guest : Bool := false
  /-- Names the context: a response for an ended context finds another serial. -/
  serial : Nat := 0
  /-- Home core and index there (R80, R193); the home node of a guest. -/
  home : Nat := 0
  idx : Nat := 0
  homeNode : Nat := 0
  /-- The slot of the home core that a guest goes back to. -/
  homeSlot : Nat := 0
  /-- RANK, NCORE and the region identifier of its home, as a guest's packet brings them (R80, R217). -/
  rank : Nat := 0
  ncore : Nat := 0
  /-- A guest that has to go home before its next instruction (R216, R217). -/
  leave : Bool := false
  gid : Nat := 0
  /-- The region, by the physical address of its RCB (R194). -/
  region : Nat := 0
  mode : ModeBits := {}
  pc : BitVec 64 := 0
  wait : Wait := .ready
  /-- The turn before which STALL holds the context (R21), and YIELD (R192). -/
  stall : Option Nat := none
  yield : Option Nat := none
  /-- It last issued in a lent turn (R210). -/
  lent : Bool := false
  /-- The cycle of its latest issue, which is the age of an SFU request (R123). -/
  since : Nat := 0
  /-- VLIM as MXQ read it at issue, for a task whose record is still coming (R77). -/
  vlim : BitVec 32 := 0
  /-- Its next instruction issues in an own turn (R23, R26, R219). -/
  own : Bool := true
  /-- The instruction whose wait the slot is in, for a trap taken with its response (R26). -/
  ins : Option Instr := none
  /-- What its latest instruction took at issue. -/
  undo : List Undo := []
  /-- Per-peer error bits (R99). -/
  perr : BitVec 1024 := 0
  /-- Target phases (R202). -/
  phases : Tab (BitVec 16) := []
  /-- The guest frame (R216) and code window (R215). -/
  frame : Mem := []
  window : Option CodeWindow := none
  /-- The safe point at which it stopped (R74); some none: it stopped where it is parked (R206). -/
  stopped : Option (Option Nat) := none
  routine : Option Routine := none
  /-- The routine's workspace belongs to a context that waits at this address (R257). -/
  resume : BitVec 64 := 0
  /-- The walk for this address has failed (R265, R270). -/
  walked : Option (BitVec 64) := none
  /-- The node that has refused the move for the load at PC, which completes with 0 (R215). -/
  refusedNode : Option Nat := none
  /-- Translations that walks of the instruction at PC have brought (R270). -/
  trans : List TlbEntry := []
  /-- The results written to its registers since it began to wait for a walk; the instruction, which issues again, reads
  what stood before them (R17, R20, R271). -/
  late : List Late := []
  /-- The address of the instruction whose fetch goes on or has completed, and how many of its words have come (R307). -/
  fetched : Option (BitVec 64 × Nat) := none
  /-- Where the result of the instruction goes whose loads the slot waits for. -/
  dest : Dest := .none
  deriving DecidableEq, Repr

/-- A mailbox tag (R162). -/
structure Mailbox where
  count : Nat := 0
  abandon : Nat := 0
  deriving DecidableEq, Repr

/-- The states of a handle (R163). -/
inductive HState where
  | free | filling | full | draining
  deriving DecidableEq, Repr

/-- The shape of a norm table (R146) and its place in the norm store (R147). -/
structure NormTab where
  desc : BitVec 64
  first : Nat
  count : Nat
  deriving DecidableEq, Repr

/-- A buffer handle (R163 to R165). -/
structure Handle where
  state : HState := .free
  base : Nat := 0
  len : Nat := 0
  mb : Nat := 0
  /-- The channel of the full notification (CH, K of HCLAIM). -/
  chan : Option Nat := none
  landed : Nat := 0
  oor : Nat := 0
  swz : Nat := 0
  chlost : Bool := false
  /-- Number of tasks that pin it (R135). -/
  pins : Nat := 0
  norm : Option NormTab := none
  err : Bool := false
  refused : Bool := false
  abandoned : Bool := false
  dependent : Bool := false
  corrupt : Bool := false
  /-- Which claim this is (R163, R172). -/
  claim : Nat := 0
  /-- The held status word, its channel, and the claim that produced it (R163). -/
  latch : Option (BitVec 64 × Nat × Nat) := none
  deriving DecidableEq, Repr

/-- One entry of the norm store (R147). -/
structure NormEntry where
  used : Bool := false
  norm : BitVec 32 := 0
  stale : Bool := false
  deriving DecidableEq, Repr

/-- A word in an outbound queue or on its way: its place, its value once written, and the context that pushed it (R119). -/
structure OutWord where
  seq : Nat
  word : Option (BitVec 64)
  cid : Nat
  slot : Nat
  serial : Nat
  deriving DecidableEq, Repr

/-- A channel (R118 to R120): outbound queue, words on their way, inbound queue with the sender each place is owed to. -/
structure Chan where
  bound : Option Binding := none
  nextSeq : Nat := 0
  out : List OutWord := []
  flight : List OutWord := []
  inq : List InWord := []
  /-- Pops of the remote inbound queue that this sender does not know of yet (R221). -/
  unknown : Nat := 0
  /-- Bindings so far: a credit of an earlier one means nothing to a later one. -/
  binds : Nat := 0
  deriving DecidableEq, Repr

/-- A line of the L1 data cache, by physical address (R85). -/
structure L1Line where
  pa : Nat
  data : BitVec 1024
  deriving DecidableEq, Repr

/-- A word of the code that a front end has loaded: its value, or the fault that its fetch raises (R307). -/
inductive CodeWord where
  | word (w : BitVec 32)
  | fault (c : Cause)
  deriving DecidableEq, Repr

/-- The instruction cache of a core of a deterministic group: the address of its first word, and its words (R307). -/
structure LoadedCode where
  first : Nat
  words : List CodeWord
  deriving DecidableEq, Repr

/-- One core. -/
structure Core where
  /-- The core takes turns: it holds a live pitch or a guest. -/
  on : Bool := false
  gid : Nat := 0
  rank : Nat := 0
  turn : Nat := 0
  nextCycle : Nat := 0
  /-- The cycle in which the release scrub of the core ends (R231). -/
  scrubUntil : Nat := 0
  /-- Cycles by which the issuing turn is stretched (R24). -/
  stretch : Nat := 0
  sp : Mem := []
  slots : Tab Slot := []
  vlim : BitVec 64 := 0x7F800000
  bankstall : BitVec 64 := 0
  issued : BitVec 64 := 0
  lentIn : Tab (BitVec 64) := []
  lentOut : Tab (BitVec 64) := []
  /-- CLOAD as written at the latest refresh (R212); none: own CID and zeros. -/
  cload : Option (BitVec 64) := none
  /-- The load sampled at the latest refresh (R212). -/
  sampled : Nat := 0
  feat : BitVec 64 := 0x1FF
  excluded : Bool := false
  mbs : Tab Mailbox := []
  hs : Tab Handle := []
  norms : Tab NormEntry := []
  chans : Tab Chan := []
  streams : Tab Stream := []
  l1 : List L1Line := []
  /-- Lines put into the L1 since the group started: each draws the victim of a full set anew (R85, R222). -/
  fills : Nat := 0
  tlb : List TlbEntry := []
  itlb : List TlbEntry := []
  /-- The loaded code of a deterministic group (R307). -/
  code : Option LoadedCode := none
  /-- PHASE last received for each point (R202). -/
  phase : Tab (BitVec 16) := []
  pend : List Pend := []
  /-- The cycle of the latest idle turn, which a wake of that cycle may still use (R246). -/
  idleAt : Option Nat := none
  /-- Workspace bytes that a fixed-latency write of this turn wrote: a store of the turn comes before it (R22, log 9). -/
  wrote : List Nat := []
  wroteTurn : Nat := 0
  deriving DecidableEq, Repr

/-- A weight plane with its format tag (R124): ETYPE and MX format, and 64 rows of up to 64 bytes. -/
structure Plane where
  tag : Nat := 11
  mx : Nat := 0
  rows : Tab (BitVec 512) := []
  deriving DecidableEq, Repr

/-- An accumulator (R124, R143): its words by index 32·m + n, version and status. -/
structure Acc where
  words : Tab (BitVec 32) := []
  version : BitVec 16 := 0
  status : BitVec 64 := 0
  deriving DecidableEq, Repr

/-- One of the two engines of a cluster (R124). -/
structure Engine where
  active : Plane := {}
  shadow : Plane := {}
  /-- Codebook slots: entry 16·slot + code. -/
  cb : Tab (BitVec 16) := []
  deriving DecidableEq, Repr

/-- An operand of a tile task (R133, R134): its rows lie in the scratchpad of a core of the cluster, or in the global
window; a handle's range has its swizzle (R228, R247). -/
structure Operand where
  cid : Option Nat := none
  /-- Scratchpad offset, or virtual address, of row 0; bytes between rows; bytes of the range. -/
  base : Nat := 0
  stride : Nat := 0
  len : Nat := 0
  handle : Option Nat := none
  swz : Nat := 0
  /-- A handle without a norm table: its rows follow one another, each as long as its elements (R247). -/
  dense : Bool := false
  deriving DecidableEq, Repr

/-- A tile task as MXQ read it (R133).  The record has no field for the scales of an MX task, which R31 says it names: SCACC
names them (R142; log 60). -/
structure TaskRec where
  mode : Nat
  bar : Bool
  samp : Bool
  rdv : Option Nat
  engine : Nat
  expver : BitVec 16
  rows : Nat
  a : Operand
  b : Operand
  klen : Nat
  etype : Nat
  cbslot : Nat
  seed : BitVec 64
  tag : BitVec 64
  slices : Nat
  samples : Nat
  wlog : Nat
  vlim : BitVec 32
  deriving DecidableEq, Repr

/-- What an entry of the cluster queue does (R127). -/
inductive EntryKind where
  | task (t : TaskRec) (acc acc2 : Nat)
  | swap (engine : Nat)
  | codebook (engine slot : Nat) (entries : List (BitVec 16))
  | drain (acc : Nat) (bf16 : Bool)
  | drainCe (acc slot : Nat)
  | zero (acc : Nat)
  | fill (acc : Nat) (words : List (BitVec 32))
  | scale (accD accS fmt : Nat) (a b : List (BitVec 8))
  deriving DecidableEq, Repr

/-- An entry of the cluster queue: who issued it, whether it has started, and for a running task its engine (R127, R128). -/
structure Entry where
  id : Nat
  cid : Nat
  slot : Nat
  serial : Nat
  gid : Nat
  kind : EntryKind
  /-- Its index in the queue, which no other entry there has (R232). -/
  place : Nat := 0
  started : Bool := false
  engine : Nat := 0
  /-- What a running task has computed: words by accumulator, status, error (R129, R138). -/
  words : Tab (Tab (BitVec 32)) := []
  status : BitVec 64 := 0
  /-- By accumulator, how far into its words the passes came, and the columns that they write (R138, R280). -/
  reach : Tab (Nat × Nat) := []
  /-- The trap with which a drain ends (R140), and whether the group was killed meanwhile (R279). -/
  trap : Option TrapInfo := none
  silent : Bool := false
  /-- The checked places of the 16-byte units of a drain (R140). -/
  units : List (BitVec 64 × Loc) := []
  /-- The audit of a sampled task: its error (none: infinite) and whether it counts as excess (R158). -/
  audit : Option (Option (BitVec 64) × Bool) := none
  deriving DecidableEq, Repr

/-- A range-lock entry (R232). -/
structure Lock where
  full : Bool
  /-- SPACE: the global window. -/
  global : Bool
  core : Nat
  region : Nat
  base : Nat
  len : Nat
  /-- HKIND and HIDX: the kind of the holder, and its index in its unit's queue; the holder itself. -/
  hkind : Nat
  hidx : Nat
  holder : Nat
  /-- The cycle of the take: an access of that cycle is checked before it (R233). -/
  since : Nat
  deriving DecidableEq, Repr

/-- A request of the special-function unit (R123, R180). -/
structure SfuReq where
  id : Nat
  cid : Nat
  slot : Nat
  serial : Nat
  cycle : Nat
  ins : Instr
  /-- A function of major 0x1E: its inputs and destination. -/
  inputs : VInputs
  dest : VDest
  /-- A Gaussian request: the offsets of a, b and d; once served, the bytes to write by offset, or its trap. -/
  addrs : List Nat
  served : Bool := false
  out : List (Nat × List (BitVec 8)) := []
  trap : Option TrapInfo := none
  clamped : Bool := false
  deriving DecidableEq, Repr

/-- One cluster. -/
structure Cluster where
  engines : Tab Engine := []
  accs : Tab Acc := []
  queue : List Entry := []
  /-- Posted entries that wait for a free place, with the slots that wait (R126). -/
  waiting : List Entry := []
  locks : List Lock := []
  sfu : List SfuReq := []
  /-- The first cycle in which the SFU is free (R123). -/
  sfuFree : Nat := 0
  deriving DecidableEq, Repr

/-- What a message of the network asks of its home (R235 to R238). -/
inductive MsgKind where
  | load
  | store
  | amo (op : Nat)
  | watch
  | fill
  | arrive (pt : Nat)
  | rdvinit (pt : Nat) (expect : Nat)
  | gmsend
  | stream (port : Nat)
  | pointer (use : Nat)
  | reserve (d : Dest) (hardware : Bool)
  | instr
  /-- The lock message of a SEND (R167). -/
  | lockMsg (transfer : Nat)
  deriving DecidableEq, Repr

/-- The answer of a home. -/
inductive Resp where
  | value (v : BitVec 128)
  | trap (t : TrapInfo)
  | failed
  deriving DecidableEq, Repr

/-- An access on its way to its home, or its response on the way back. -/
structure Msg where
  id : Nat
  kind : MsgKind
  cid : Nat
  slot : Nat
  serial : Nat
  region : Nat
  va : BitVec 64
  loc : Loc
  size : Nat
  data : BitVec 128 := 0
  mask : BitVec 16 := 0
  /-- The expected value of AMOCAS, the compared value of WAITV. -/
  expect : BitVec 64 := 0
  /-- Longer data: a Gaussian record, a migrating context's workspace. -/
  bytes : List (BitVec 8) := []
  /-- The places of the 16-byte units of longer data outside a scratchpad. -/
  units : List Loc := []
  use : Nat := 0
  ins : Instr
  /-- A loaded value is sign-extended; the access acquires (R87, R88, R97). -/
  signed : Bool := false
  acq : Bool := false
  dest : Dest := .none
  /-- The scope of its home (R88). -/
  scope : Nat := 0
  port : Option Nat := none
  /-- It has left for its home; a release or a pointer write is kept until it may leave (R88, R102). -/
  sent : Bool := true
  performed : Bool := false
  resp : Option Resp := none
  /-- Its response has come back to the core. -/
  come : Bool := false
  /-- When its response is due, fixed at issue in a deterministic region (R90). -/
  ret : Option Due := none
  /-- The line it fills, once performed; dropped when an invalidation comes first (R85, R240). -/
  line : Option (BitVec 1024) := none
  keepLine : Bool := true
  /-- The cycles in which it reaches its home and its response comes back, where they are not counted in turns: the
  network keeps the order of each class (R238). -/
  arrive : Nat := 0
  back : Nat := 0
  /-- A WAITV that holds a watch, or polls (R93). -/
  watching : Bool := false
  deriving DecidableEq, Repr

/-- A packet of a message (R168) whose bytes have been read, or a row of a GATHER (R172), or a frame. -/
structure Packet where
  n : Nat
  bytes : List (BitVec 8) := []
  landed : Bool := false
  deriving DecidableEq, Repr

/-- A pull token of a message (R168). -/
structure Token where
  k : Nat
  granted : Bool := false
  /-- Grants so far: an expiry or arrival of an earlier one means nothing. -/
  grants : Nat := 0
  /-- The first of its packets has been read. -/
  used : Bool := false
  deriving DecidableEq, Repr

/-- A SEND (R166): where it reads, where it writes (an address; the offset in the receiver's scratchpad; the offset in
its handle X), and what it tells. -/
structure SendRec where
  srcHandle : Option Nat := none
  src : BitVec 64 := 0
  dst : Nat := 0
  len : Nat := 0
  scratch : Bool := false
  toHandle : Bool := false
  x : Nat := 0
  /-- A tag of the receiver is counted. -/
  counted : Bool := false
  done : Option Nat := none
  swz : Nat := 0
  deriving DecidableEq, Repr

/-- A GATHER (R172): the handle with its claim and tag at issue, and the rows. -/
structure GatherRec where
  /-- The home core of the issuing context, which a home-core address names (R81). -/
  home : Nat
  h : Nat
  claim : Nat
  mb : Nat
  base : BitVec 64
  stride : BitVec 64
  rows : Nat
  rowBytes : Nat
  list : Nat
  count : Nat
  swz : Nat
  deriving DecidableEq, Repr

/-- A plan of the collective engine (R174). -/
structure PlanRec where
  /-- The home core of the issuing context, which a home-core address names (R81). -/
  home : Nat
  etype : Nat
  stream : Bool
  rdv : Option Nat
  slot : Nat
  n : Nat
  rank : Nat
  elems : Nat
  src : BitVec 64
  dst : BitVec 64
  next : BitVec 64
  planid : BitVec 64
  mb : Nat
  deriving DecidableEq, Repr

/-- A command of a decoder (R175). -/
structure VdecRec where
  dec : Nat
  rdv : Option Nat
  outfmt : Nat
  frames : Nat
  bs : BitVec 64
  bslen : Nat
  x : Nat
  y : Nat
  w : Nat
  h : Nat
  errmb : Nat
  /-- CID and handle of each frame. -/
  targets : List (Nat × Nat)
  deriving DecidableEq, Repr

/-- A chunk of a plan on its way to the next member of the ring (R174): the plan that sends it, which of its chunks it is, its
bytes, and the core, identifier and rank of the member that receives it. -/
structure ChunkRec where
  plan : Nat
  k : Nat
  len : Nat
  core : Nat
  planid : BitVec 64
  rank : Nat
  n : Nat
  etype : Nat
  elems : Nat
  deriving DecidableEq, Repr

/-- What a transfer is (R161), or the message by which a collective engine sends a chunk (R174). -/
inductive TransferKind where
  | send (r : SendRec)
  | chunk (r : ChunkRec)
  | gather (r : GatherRec)
  | rscat (r : PlanRec)
  | vdec (r : VdecRec)
  deriving DecidableEq, Repr

/-- A transfer (R161 to R176). -/
structure Transfer where
  id : Nat
  cid : Nat
  slot : Nat
  serial : Nat
  gid : Nat
  region : Nat
  kind : TransferKind
  /-- Accepted by the unit; until then its context waits (R161).  Its index in the unit's queue, which no other one there has
  (R232). -/
  accepted : Bool := false
  place : Nat := 0
  /-- The module of its sender, where that is not this one: the core number is one of that module's (R168). -/
  sender : Option Nat := none
  /-- What the node fields of its destination and its notify word name beyond this module: a node, or a multicast entry (R287). -/
  far : Option Nat := none
  recvNode : Option Nat := none
  /-- Other modules that the message goes to, or whose core it tells, and that have not answered (R170, R286, R287). -/
  nodes : List Nat := []
  /-- Its bytes are performed on this module; its receiver is a core of this module. -/
  here : Bool := true
  recvHere : Bool := true
  receiver : Nat := 0
  /-- The receiving region, the message's priority, its gate and the packets of its prefix (R166, R168). -/
  recvRegion : Nat := 0
  prio : Nat := 0
  gate : Nat := 0
  prefixed : Nat := 0
  /-- The lock message has arrived, or is not needed; it waits for a free entry (R167). -/
  locked : Bool := false
  lockWaits : Bool := false
  /-- Its request is orphaned: what has been read still lands (R168, R170). -/
  orphaned : Bool := false
  /-- Its group was killed: it first reads what it holds tokens for (R279). -/
  dying : Bool := false
  /-- ABANDON of its DONE tag has been raised (R170, R287). -/
  abandoned : Bool := false
  /-- A resumed group's message whose source lock has not been taken again (R171). -/
  relock : Bool := false
  /-- The chunks that a plan has received (R174). -/
  step : Nat := 0
  readDone : Bool := false
  /-- A row of a GATHER was discarded (R172). -/
  discarded : Bool := false
  packets : List Packet := []
  tokens : List Token := []
  /-- The index list of a GATHER; the input of a plan. -/
  indices : List Nat := []
  input : List (BitVec 8) := []
  deriving DecidableEq, Repr

/-- A walk of a die, or a miss that waits for a walker: the region and the 64 KiB page, whether a walker has it, and who has joined
it: each the object of the step that goes on with its result (R270). -/
structure Miss where
  id : Nat
  region : Nat
  page : Nat
  started : Bool := false
  who : List Obj := []
  deriving DecidableEq, Repr

/-- A line of an L2 slice (R269): its number by channel offset, and its class. -/
structure L2Line where
  line : Nat
  cls : Nat
  deriving DecidableEq, Repr

/-- An entry of the address-range table (R268). -/
structure ArtEntry where
  base : BitVec 64 := 0
  size : BitVec 64 := 0
  ctrl : BitVec 64 := 0
  choff : BitVec 64 := 0
  deriving DecidableEq, Repr

/-- One compute die. -/
structure Die where
  tokmax : Nat := 32
  tokexp : Nat := 65536
  /-- Requests at the gate, in arrival order (R168). -/
  requests : List Nat := []
  /-- The source served last at each priority: node and CID (R168). -/
  served : Tab (Nat × Nat) := []
  /-- Grants in the current window of 1,024, in all and by receiving region (R168). -/
  window : Nat := 0
  windowBy : Tab Nat := []
  /-- Open plan slots of the collective engine: the transfer that opened each (R174). -/
  plans : Tab Nat := []
  /-- Commands of the two decoders, in arrival order (R175). -/
  decoders : Tab (List Nat) := []
  tlb : List TlbEntry := []
  /-- The walks of the die and the miss queue, in arrival order, and the misses that have found it full (R270). -/
  misses : List Miss := []
  overflow : List Miss := []
  /-- The address-range table as the die holds it (R268). -/
  art : Tab ArtEntry := []
  /-- Guest packets that wait for a slot (R216). -/
  guests : List Nat := []
  cecnt : BitVec 64 := 0
  trcnt : BitVec 32 := 0
  lacnt : BitVec 32 := 0
  /-- The ring of memory-error records, newest first (R282). -/
  ring : List (List (BitVec 8)) := []
  deriving DecidableEq, Repr

/-- A rendezvous point (R202). -/
structure Rdv where
  phase : BitVec 16 := 0
  expect : Nat := 0
  arrived : Nat := 0
  deriving DecidableEq, Repr

/-- A kernel header (R252). -/
structure Header where
  va : Nat := 0
  features : BitVec 64 := 0
  cores : Nat := 1
  contexts : Nat := 1
  cls : Nat := 0
  detreq : Nat := 0
  nsafe : Nat := 0
  scratch : Nat := 0
  savesz : Nat := 0
  entry : BitVec 64 := 0
  handler : BitVec 64 := 0
  safetab : BitVec 64 := 0
  data : BitVec 64 := 0
  datalen : Nat := 0
  nlast : Nat := 0
  lasts : BitVec 64 := 0
  deriving DecidableEq, Repr

/-- Where a group stands (R253 to R258, R199, R231). -/
inductive GState where
  | queued | running
  /-- Waiting to end a hand-off: matched RESOLEs, then the scrub (R199, R200). -/
  | handOff | scrubbing
  /-- Ended or killed; its pitch not yet released, then being scrubbed (R191, R231). -/
  | ending | releasing
  /-- Pre-emption: pending, saving, saved; then restoring (R257, R258). -/
  | stopping | saving | saved | restoring
  deriving DecidableEq, Repr

/-- What a RESOLE of the pitch brought (R198). -/
structure Heir where
  cid : Nat
  slot : Nat
  header : Header
  hdr : BitVec 64
  rec_ : List (BitVec 8)
  deriving DecidableEq, Repr

/-- The hardware part of a bivouac frame (R234, R257): versions and status by cluster of the pitch and index of the share;
slots, tags and handles by rank. -/
structure Saved where
  accs : Tab (Tab (BitVec 16 × BitVec 64)) := []
  rdv : Tab Rdv := []
  slots : Tab (Tab Slot) := []
  mbs : Tab (Tab Mailbox) := []
  hs : Tab (Tab Handle) := []
  /-- Its bytes as the scheduler wrote them into the frame (R256). -/
  bytes : List (BitVec 8) := []
  /-- Notifications that came meanwhile: rank, tag, and whether it is an abandonment; they count at resumption (R262). -/
  told : List (Nat × Nat × Bool) := []
  deriving DecidableEq, Repr

/-- A group (R194, R252 to R261). -/
structure Group where
  gid : Nat
  region : Nat
  header : Header
  /-- The settings that its contexts read in MODE, fixed when it is placed (R255, R260). -/
  mode : ModeBits := {}
  /-- The cores of the pitch in ascending CID. -/
  pitch : List Nat := []
  shape : Nat := 0
  cols : Nat := 0
  rows : Nat := 0
  die : Nat := 0xFF
  launchGtc : Nat := 0
  source : Nat := 0
  /-- Its effective PRIO, and the CORES budgets of its region and the region's ancestors, as its request found them (R253, R260). -/
  prio : Nat := 0
  budgets : List (Nat × Nat) := []
  state : GState := .queued
  /-- Cores whose control context has executed EXIT (R191). -/
  exited : List Nat := []
  /-- NOTIFY of its launch (R195): group, core and tag. -/
  notify : Option (Nat × Nat × Nat) := none
  killed : Bool := false
  lasts : List (BitVec 8) := []
  rdv : Tab Rdv := []
  heirs : List Heir := []
  /-- The GTC value at which a pending pre-emption times out (R257). -/
  deadline : Nat := 0
  preempt : Bool := false
  /-- The address of the frame that it uses, or that is kept for it, in its region's address space (R256, R257). -/
  frame : Option (BitVec 64) := none
  saved : Option Saved := none
  deriving DecidableEq, Repr

/-- A region, from its RCB (R250): own values, with the inherit values as written. -/
structure Region where
  parent : Nat := 0
  regid : Nat := 0
  prio : Nat := 0xFF
  ceil : Nat := 0xFF
  modeb : BitVec 8 := 0x80
  fdom : Nat := 0
  ptroot : Nat := 0
  bivouac : Nat := 0
  framesz : Nat := 0
  bivn : Nat := 0xFFFF
  unsched : Nat := 0xFF
  minshare : Nat := 0xFFFF
  cores : Nat := 0xFFFF
  fabtok : Nat := 0xFFFF
  hbmbytes : BitVec 64 := 0xFFFFFFFFFFFFFFFF
  pto : Nat := 0
  nodemap : BitVec 1024 := 0
  audthr : BitVec 32 := 0xFFFFFFFF
  audcnt : BitVec 64 := 0
  audsum : BitVec 64 := 0
  audexc : BitVec 64 := 0
  evbase : Nat := 0
  evcount : BitVec 64 := 0
  /-- The records of the latest GTC tick with a record, with their sources (R5, R259). -/
  evRecs : List (Nat × List (BitVec 8)) := []
  deriving DecidableEq, Repr

/-- A launch port (R260). -/
structure Port where
  region : Option Nat := none
  gid : BitVec 32 := 0
  status : Nat := 0
  deriving DecidableEq, Repr

/-- A multicast entry (R287). -/
structure Multicast where
  staged : BitVec 1024 := 0
  nodes : BitVec 1024 := 0
  /-- The bitmap before a commit that is being distributed: link dies hold it still. -/
  old : BitVec 1024 := 0
  version : BitVec 64 := 0
  /-- The commit that is being distributed (R287). -/
  pending : Bool := false
  deriving DecidableEq, Repr

/-- A flit of a link (R285): its sequence number, the packet of which it is a part, whether one lane carries it (R288), and
its payload of up to 240 bytes. -/
structure Flit where
  seq : Nat
  packet : Nat
  half : Bool
  bytes : List (BitVec 8)
  deriving DecidableEq, Repr

/-- A Grisia Link port (R285, R288, R289). -/
structure Link where
  failed0 : Bool := false
  failed1 : Bool := false
  down : Bool := false
  /-- Retries of the current flit that failed in a row. -/
  retries : Nat := 0
  /-- One lane carries the port: half the credit window, twice the retry time-out; from this sequence number on (R288). -/
  half : Bool := false
  halfFrom : Nat := 0
  /-- The corrected-symbol counts and eye margins of the lanes at their latest sample (R288). -/
  corrected0 : Nat := 0
  corrected1 : Nat := 0
  margin0 : Nat := 0
  margin1 : Nat := 0
  /-- The sequence number of the next flit that is sent, and of the flit expected from the other end (R285). -/
  next : Nat := 0
  want : Nat := 0
  /-- The retry buffer: flits sent and not acknowledged, oldest first; and the flits that wait for room or credit. -/
  buffer : List Flit := []
  queue : List Flit := []
  deriving DecidableEq, Repr

/-- What a packet carries to or from another module (R215, R276, R284). -/
inductive PacketKind where
  /-- A store or AMO of the fabric window (R84). -/
  | access (msg : Nat)
  /-- A message of a SEND or of a collective engine (R168). -/
  | transfer (id : Nat)
  /-- A context that moves to read remote memory, or returns (R215, R218). -/
  | context (c : Slot)
  /-- From another module: a store or an AMO (R276), the header of a message with its request, and a packet of a message (R168). -/
  | store (bytes : List (BitVec 8 × Bool))
  | amo (op : Nat) (data expect : BitVec 64)
  | message (t : Transfer)
  | data (n : Nat) (bytes : List (BitVec 8))
  /-- The answer to such a packet: what it was sent under there, and an AMO's value (R99, R286). -/
  | answer (ref : Nat) (ok : Bool) (v : BitVec 64)
  /-- A guest is called home for a pending pre-emption of its group, or its group has ended (R217, R218). -/
  | recall (ended : Bool)
  deriving DecidableEq, Repr

/-- A packet between modules that its source keeps until it is acknowledged (R286). -/
structure FabricPacket where
  id : Nat
  /-- The other module: where it goes, or where it comes from. -/
  node : Nat
  kind : PacketKind
  /-- The region's identifier, for its presence on the other module. -/
  region : Nat
  addr : Nat := 0
  sends : Nat := 1
  cid : Nat := 0
  slot : Nat := 0
  /-- Its number among the packets of its source to its destination, and what it was sent under there. -/
  seq : Nat := 0
  ref : Nat := 0
  /-- Of a deterministic region; the path it took last: the minimal one (0), or a non-minimal one (R286). -/
  det : Bool := false
  path : Nat := 0
  /-- It has come from the other module. -/
  came : Bool := false
  deriving DecidableEq, Repr

/-- A context on its way to another core of its pitch (R193, R214). -/
structure Move where
  id : Nat
  from_ : Nat
  slot : Nat
  target : Nat
  toSlot : Option Nat
  hardware : Bool
  dest : Dest
  ctx : Slot
  bytes : List (BitVec 8)
  deriving DecidableEq, Repr

/-- The module. -/
structure State where
  cycle : Nat
  gtc : BitVec 64
  /-- The part of a GTC tick already counted, in units of cycles·1000 (R5, R7). -/
  gtcRem : Int
  /-- The estimated offset from the reference node, and GTCWARN (R290). -/
  gtcOff : Int
  gtcWarn : Bool
  mhz : Nat
  budget : Nat
  windows : BitVec 32
  avgw : BitVec 16
  pcap : BitVec 64
  glbase : BitVec 64
  node : Nat
  stopped : Bool
  bootStage : Nat
  bootFail : Nat
  /-- Module resets so far: each draws the routes anew (R286). -/
  resets : Nat
  chain : List (List (BitVec 8))
  attLog : List (List (BitVec 8))
  quotes : List (List (BitVec 8))
  mem : Mem
  /-- ECC words with a lasting error, with a transient error still to be met, and with a correctable one (R91, R280): storage
  number of R280 and address; storage 6 is a line of the CXL tier that its expander does not serve (R275). -/
  lasting : List (Nat × Nat)
  transient : List (Nat × Nat)
  correctable : List (Nat × Nat)
  /-- Rows with a lasting error left unrepaired (R283). -/
  badRows : List Nat
  art : Tab ArtEntry
  quota : BitVec 64
  /-- The sets of the L2 slices, by 256·slice + set: their lines, the most recently used first (R269). -/
  l2 : Tab (List L2Line)
  invAddr : BitVec 64
  invCtl : BitVec 64
  invStat : Bool
  ports : Tab Port
  regions : Tab Region
  groups : Tab Group
  queue : List Nat
  nextGid : Nat
  mcast : Tab Multicast
  links : Tab Link
  /-- Nodes that no path reaches (R289), and neighbours of a lost pair of ports. -/
  unreachable : List Nat
  cxlDown : List Nat
  resync : BitVec 64
  resyncStat : BitVec 64
  cores : Tab Core
  clusters : Tab Cluster
  dies : Tab Die
  net : List Msg
  transfers : List Transfer
  moves : List Move
  fabric : List FabricPacket
  /-- The next sequence number of each pair of a source on this module and a node, and of each source of another module (R286). -/
  fabOut : Tab Nat
  fabIn : Tab Nat
  agenda : List Event
  /-- The next identifier, and the counter of the free values (log 6). -/
  serial : Nat
  free : Nat
  /-- The core and slot that is issuing. -/
  curCid : Nat
  curSlot : Nat
  /-- The issuing turn was lent by this slot (R210). -/
  lender : Option Nat
  /-- Banks of the pointer-operand accesses that the issuing instruction makes in the own scratchpad (R24). -/
  banks : List Nat
  /-- The object of the step that runs. -/
  obj : Obj
  deriving DecidableEq, Repr

/-- The state right after a module reset (R293): boot stage 1 is due, and the periodic work of the module. -/
def State.reset : State :=
  { cycle := 0, gtc := 0, gtcRem := 0, gtcOff := 0, gtcWarn := false, mhz := 2400, budget := 8, windows := 0, avgw := 0
    pcap := 0x10960, glbase := 0, node := 0, stopped := false, bootStage := 0, bootFail := 0, resets := 0
    chain := [List.replicate 64 0], attLog := [], quotes := [], mem := [], lasting := [], transient := [], correctable := []
    badRows := [], art := [], quota := 0x84210, l2 := [], invAddr := 0, invCtl := 0, invStat := false, ports := []
    regions := [], groups := [], queue := [], nextGid := 1, mcast := [], links := [], unreachable := []
    cxlDown := [], resync := 0, resyncStat := 0, cores := [], clusters := [], dies := [], net := []
    transfers := [], moves := [], fabric := [], fabOut := [], fabIn := [], agenda := [{ due := .cycle 1, rank := 0, ins := .bootStage, obj := { a := 1 } }]
    serial := 1, free := 0, curCid := 0, curSlot := 0, lender := none, banks := [], obj := {} }

end Sys2Proof.Machine
end

