-- ==== Sys2Proof/Machine/Basic.lean ====
section
/-!
DEFINITION. Tables, bytes of memory, and the named parts of the state with their updates.
-/
namespace Sys2Proof.Machine

/-! ### Sparse tables -/

/-- The entry of a table, or the start value. -/
def tget {α : Type} (t : Tab α) (k : Nat) (dflt : α) : α :=
  match t with
  | [] => dflt
  | (k', v) :: r => if k' = k then v else tget r k dflt

/-- The entry of a table, if there is one. -/
def tfind {α : Type} (t : Tab α) (k : Nat) : Option α :=
  match t with
  | [] => none
  | (k', v) :: r => if k' = k then some v else tfind r k

/-- A table with an entry set; keys rise. -/
def tset {α : Type} (t : Tab α) (k : Nat) (v : α) : Tab α :=
  match t with
  | [] => [(k, v)]
  | (k', v') :: r => if k < k' then (k, v) :: (k', v') :: r else if k = k' then (k, v) :: r else (k', v') :: tset r k v

/-- A table without an entry. -/
def tdel {α : Type} (t : Tab α) (k : Nat) : Tab α :=
  match t with
  | [] => []
  | (k', v) :: r => if k' = k then tdel r k else (k', v) :: tdel r k

/-! ### Bytes -/

/-- A byte of memory; an unlisted address reads 0 (log 2). -/
def Mem.get (m : Mem) (a : Nat) : Byte :=
  match m with
  | [] => 0
  | (a', b) :: r => if a' = a then b else Mem.get r a

/-- Memory with a byte written; the canonical form is kept: a 0 is not listed. -/
def Mem.put (m : Mem) (a : Nat) (b : Byte) : Mem :=
  match m with
  | [] => if b = 0 then [] else [(a, b)]
  | (a', b') :: r =>
    if a < a' then (if b = 0 then (a', b') :: r else (a, b) :: (a', b') :: r)
    else if a = a' then (if b = 0 then r else (a, b) :: r)
    else (a', b') :: Mem.put r a b

/-- All addresses of a memory are above a bound and strictly rising, and no byte listed is 0. -/
def Mem.wfFrom (lo : Nat) (m : Mem) : Bool :=
  match m with
  | [] => true
  | (a, b) :: r => decide (lo ≤ a) && b != 0 && Mem.wfFrom (a + 1) r

/-- The canonical form of memory. -/
def Mem.wf (m : Mem) : Bool := Mem.wfFrom 0 m

/-- The n bytes from an address. -/
def Mem.bytes (m : Mem) (a : Nat) : Nat → List Byte
  | 0 => []
  | n + 1 => m.get a :: Mem.bytes m (a + 1) n

/-- Memory with consecutive bytes written in ascending order. -/
def Mem.write (m : Mem) (a : Nat) : List Byte → Mem
  | [] => m
  | b :: bs => Mem.write (m.put a b) (a + 1) bs

/-- Memory with those of consecutive bytes written whose mask bit is set (R101, R107). -/
def Mem.writeMasked (m : Mem) (a : Nat) : List (Byte × Bool) → Mem
  | [] => m
  | (b, on) :: bs => Mem.writeMasked (if on then m.put a b else m) (a + 1) bs

/-- The number that little-endian bytes hold (R10). -/
def leNat : List Byte → Nat
  | [] => 0
  | b :: bs => b.toNat + 256 * leNat bs

/-- The n little-endian bytes of a number (R10). -/
def leBytes : Nat → Nat → List Byte
  | 0, _ => []
  | n + 1, v => BitVec.ofNat 8 v :: leBytes n (v / 256)

/-- The bytes of a value with their enables, lowest first. -/
def maskedBytes (data : VWord) (mask : BitVec 16) : List (Byte × Bool) :=
  (leBytes 16 data.toNat).zip ((List.range 16).map mask.getLsbD)

/-- The mask of the n lowest bytes. -/
def lowMask (n : Nat) : BitVec 16 := BitVec.ofNat 16 (2 ^ n - 1)

/-! ### Parts of the state -/

namespace State

/-- A core by CID (R3). -/
def core (s : State) (cid : Nat) : Core := tget s.cores cid {}
def setCore (s : State) (cid : Nat) (c : Core) : State := { s with cores := tset s.cores cid c }
def modCore (s : State) (cid : Nat) (f : Core → Core) : State := s.setCore cid (f (s.core cid))

/-- A slot of a core (R209). -/
def slot (s : State) (cid i : Nat) : Slot := tget (s.core cid).slots i {}
def setSlot (s : State) (cid i : Nat) (x : Slot) : State :=
  s.modCore cid fun c => { c with slots := tset c.slots i x }
def modSlot (s : State) (cid i : Nat) (f : Slot → Slot) : State := s.setSlot cid i (f (s.slot cid i))

/-- The issuing context. -/
def here (s : State) : Slot := s.slot s.curCid s.curSlot
def modHere (s : State) (f : Slot → Slot) : State := s.modSlot s.curCid s.curSlot f
def hereCore (s : State) : Core := s.core s.curCid
def modHereCore (s : State) (f : Core → Core) : State := s.modCore s.curCid f

/-- The banks noted for the turn (R24). -/
def setBanks (s : State) (b : List Nat) : State := { s with banks := b }

/-- The cluster of a core (R3): its number is CID / 4. -/
def cluster (s : State) (k : Nat) : Cluster := tget s.clusters k {}
def modCluster (s : State) (k : Nat) (f : Cluster → Cluster) : State :=
  { s with clusters := tset s.clusters k (f (s.cluster k)) }

/-- A compute die: its number is CID / 256 (R3). -/
def die (s : State) (k : Nat) : Die := tget s.dies k {}
def modDie (s : State) (k : Nat) (f : Die → Die) : State := { s with dies := tset s.dies k (f (s.die k)) }

def mailbox (s : State) (cid t : Nat) : Mailbox := tget (s.core cid).mbs t {}
def setMailbox (s : State) (cid t : Nat) (m : Mailbox) : State := s.modCore cid fun c => { c with mbs := tset c.mbs t m }

def handle (s : State) (cid h : Nat) : Handle := tget (s.core cid).hs h {}
def setHandle (s : State) (cid h : Nat) (x : Handle) : State := s.modCore cid fun c => { c with hs := tset c.hs h x }

def chan (s : State) (cid n : Nat) : Chan := tget (s.core cid).chans n {}
def modChan (s : State) (cid n : Nat) (f : Chan → Chan) : State :=
  s.modCore cid fun c => { c with chans := tset c.chans n (f (tget c.chans n {})) }

def group? (s : State) (gid : Nat) : Option Group := tfind s.groups gid
def modGroup (s : State) (gid : Nat) (f : Group → Group) : State :=
  match tfind s.groups gid with
  | some g => { s with groups := tset s.groups gid (f g) }
  | none => s

/-- A fresh identifier. -/
def fresh (s : State) : Nat × State := (s.serial, { s with serial := s.serial + 1 })

/-- The next free delay (log 5): at least one cycle. -/
def delay (s : State) : Nat × State := (1 + Config.freeDelay s.free, { s with free := s.free + 1 })

/-- The next free choice among k things. -/
def choose (s : State) (k : Nat) : Nat × State := (Config.freeChoice s.free k % k, { s with free := s.free + 1 })

/-- A message of the network. -/
def msg? (s : State) (id : Nat) : Option Msg := s.net.find? (fun m => m.id == id)
def modMsg (s : State) (id : Nat) (f : Msg → Msg) : State :=
  { s with net := s.net.map fun m => if m.id == id then f m else m }
def dropMsg (s : State) (id : Nat) : State := { s with net := s.net.filter fun m => m.id != id }

def transfer? (s : State) (id : Nat) : Option Transfer := s.transfers.find? (fun t => t.id == id)
def modTransfer (s : State) (id : Nat) (f : Transfer → Transfer) : State :=
  { s with transfers := s.transfers.map fun t => if t.id == id then f t else t }
def dropTransfer (s : State) (id : Nat) : State := { s with transfers := s.transfers.filter fun t => t.id != id }

/-- An event put on the agenda. -/
def schedule (s : State) (due : Due) (rank : Nat) (ins : Instr) (obj : Obj := {}) : State :=
  { s with agenda := s.agenda ++ [{ due := due, rank := rank, ins := ins, obj := obj }] }

end State

/-! ### Streams (R115) -/

/-- The offset from its base of word k of a walk, dimension 0 fastest. -/
def walkOffset : List (Nat × Nat × BitVec 64) → Nat → BitVec 64
  | [], _ => 0
  | (lo, n, st) :: r, k => BitVec.ofNat 64 (lo + k % n) * st + walkOffset r (k / n)

/-- The number of words of a stream, and the address of word k. -/
def Stream.total (p : Stream) : Nat := p.dims.foldl (fun n d => n * d.2.1) 1
def Stream.addr? (p : Stream) (k : Nat) : Option (BitVec 64) :=
  if k < p.total then some (p.base + walkOffset p.dims k) else none

/-- The place of a home access of a source among the steps of a cycle (R236); the turn of the core of that number
comes right after it, and the writes and responses of a core before its turn. -/
def rankOf (source : Nat) : Nat := 2 * source + 8192
def turnRank (cid : Nat) : Nat := 2 * cid + 8193
/-- The place of a step of a source that releases range locks, before the accesses of its cycle, and of one that takes them
and first reads what they cover, after them (R233). -/
def releaseRank (source : Nat) : Nat := source + 2
def takeRank (source : Nat) : Nat := source + 24576

/-- The source numbers of the engines of a die (R4): matrix engine e of a cluster, the collective engine, the decoders, the
gate. -/
def engineSource (cl e : Nat) : Nat := 2048 + cl / 64 * 256 + cl % 64 * 2 + e
def collectiveSource (die : Nat) : Nat := 2048 + die * 256 + 128
def decoderSource (die n : Nat) : Nat := 2048 + die * 256 + 129 + n
def gateSource (die : Nat) : Nat := 2048 + die * 256 + 131

/-- The cluster and the die of a core, and its fields (R3). -/
def clusterOf (cid : Nat) : Nat := cid / 4
def dieOf (cid : Nat) : Nat := cid / 256
def rowOf (cid : Nat) : Nat := cid / 64 % 4
def colOf (cid : Nat) : Nat := cid / 4 % 16
def coreField (cid : Nat) : Nat := cid % 4

/-- The turn of a core to which the current cycle belongs (R15): before its step of that turn the count itself,
after it the turn just issued until the next one starts. -/
def Core.turnAt (c : Core) (cycle : Nat) : Nat := if cycle < c.nextCycle then c.turn - 1 else c.turn

end Sys2Proof.Machine
end

