-- ==== Sys2Proof/Machine/Flags.lean ====
section
/-!
DEFINITION. The scalar results of R63 to R66 as functions of their operands: no operation of the K7 sets flags, so what
another machine keeps in flags (carry, overflow, comparison) shows here only in results.
-/
namespace Sys2Proof.Machine

/-- Whether a condition of BR holds (R57, R70); codes 6 and 7 are reserved. -/
def condition (cond : BitVec 3) (a b : Word) : Bool :=
  match cond.toNat with
  | 0 => a == b
  | 1 => a != b
  | 2 => a.slt b
  | 3 => !a.slt b
  | 4 => a.ult b
  | 5 => !a.ult b
  | _ => false

/-- A truth value as a word. -/
def boolWord (b : Bool) : Word := if b then 1 else 0

namespace Alu

def mulh (a b : Word) : Word := BitVec.ofInt 64 (a.toInt * b.toInt / 2 ^ 64)
def mulhu (a b : Word) : Word := BitVec.ofNat 64 (a.toNat * b.toNat / 2 ^ 64)

/-- The quotient and remainder of R65, signed: truncation toward zero, fixed results for a zero divisor and for the
overflow. -/
def div (a b : Word) : Word :=
  if b = 0 then 0xFFFFFFFFFFFFFFFF
  else if a = 0x8000000000000000 ∧ b = 0xFFFFFFFFFFFFFFFF then 0x8000000000000000
  else BitVec.ofInt 64 (a.toInt.tdiv b.toInt)
def rem (a b : Word) : Word :=
  if b = 0 then a
  else if a = 0x8000000000000000 ∧ b = 0xFFFFFFFFFFFFFFFF then 0
  else BitVec.ofInt 64 (a.toInt.tmod b.toInt)
def divu (a b : Word) : Word := if b = 0 then 0xFFFFFFFFFFFFFFFF else BitVec.ofNat 64 (a.toNat / b.toNat)
def remu (a b : Word) : Word := if b = 0 then a else BitVec.ofNat 64 (a.toNat % b.toNat)

/-- Shifts by the whole unsigned amount (R64). -/
def shl (a b : Word) : Word := if b.toNat < 64 then a <<< b.toNat else 0
def shr (a b : Word) : Word := if b.toNat < 64 then a >>> b.toNat else 0
def sra (a b : Word) : Word :=
  if b.toNat < 64 then a.sshiftRight b.toNat else if a.msb then 0xFFFFFFFFFFFFFFFF else 0
def rotr (a b : Word) : Word := a.rotateRight (b.toNat % 64)

def slt (a b : Word) : Word := boolWord (a.slt b)
def sltu (a b : Word) : Word := boolWord (a.ult b)
def min (a b : Word) : Word := if b.slt a then b else a
def max (a b : Word) : Word := if a.slt b then b else a
def minu (a b : Word) : Word := if b.ult a then b else a
def maxu (a b : Word) : Word := if a.ult b then b else a

/-- Zero bits above the highest set bit among the n lowest bits, counted from the top (R63). -/
def leadingZeros (a : Word) : Nat → Nat
  | 0 => 0
  | n + 1 => if a.getLsbD n then 0 else 1 + leadingZeros a n
/-- Zero bits below the lowest set bit at or above bit i. -/
def trailingZeros (a : Word) (i : Nat) : Nat → Nat
  | 0 => 0
  | n + 1 => if a.getLsbD i then 0 else 1 + trailingZeros a (i + 1) n
/-- Set bits among the n lowest bits. -/
def popCount (a : Word) : Nat → Nat
  | 0 => 0
  | n + 1 => (if a.getLsbD n then 1 else 0) + popCount a n

def clz (a : Word) : Word := BitVec.ofNat 64 (leadingZeros a 64)
def ctz (a : Word) : Word := BitVec.ofNat 64 (trailingZeros a 0 64)
def popc (a : Word) : Word := BitVec.ofNat 64 (popCount a 64)

/-- The position and the width of a field, the width cut at bit 63 (R66). -/
def fieldPos (b : Word) : Nat := b.toNat % 64
def fieldLen (b : Word) : Nat := Nat.min (b.toNat / 256 % 128) (64 - fieldPos b)
def fieldMask (len : Nat) : Word := BitVec.ofNat 64 (2 ^ len - 1)

def bfxu (a b : Word) : Word := (a >>> fieldPos b) &&& fieldMask (fieldLen b)
def bfx (a b : Word) : Word :=
  let len := fieldLen b
  if len = 0 then 0
  else if a.getLsbD (fieldPos b + len - 1) then bfxu a b ||| ~~~ fieldMask len else bfxu a b
def bfi (old a b : Word) : Word :=
  let pos := fieldPos b
  let m := fieldMask (fieldLen b)
  (old &&& ~~~ (m <<< pos)) ||| ((a &&& m) <<< pos)

end Alu

end Sys2Proof.Machine
end

