-- ==== Sys2Proof/Machine/Float.lean ====
section
/-!
DEFINITION. Floating-point numbers to the bit (R28 to R42): exact values, one rounding for every format and mode,
conversions, and the passes of the matrix engine.
-/
namespace Sys2Proof.Machine

/-- A floating-point format (R28): widths, the exponent of the smallest subnormal, and the special encodings. -/
structure Fmt where
  expBits : Nat
  fracBits : Nat
  /-- The exponent of the smallest subnormal: its value is 2^emin. -/
  emin : Int
  /-- The encoding of the largest finite magnitude. -/
  maxFinite : Nat
  inf : Option Nat
  nan : Nat
  deriving DecidableEq, Repr

def f32 : Fmt := { expBits := 8, fracBits := 23, emin := -149, maxFinite := 0x7F7FFFFF, inf := some 0x7F800000, nan := 0x7FC00000 }
def f16 : Fmt := { expBits := 5, fracBits := 10, emin := -24, maxFinite := 0x7BFF, inf := some 0x7C00, nan := 0x7E00 }
def bf16 : Fmt := { expBits := 8, fracBits := 7, emin := -133, maxFinite := 0x7F7F, inf := some 0x7F80, nan := 0x7FC0 }
def e4m3 : Fmt := { expBits := 4, fracBits := 3, emin := -9, maxFinite := 0x7E, inf := none, nan := 0x7F }
def e5m2 : Fmt := { expBits := 5, fracBits := 2, emin := -16, maxFinite := 0x7B, inf := some 0x7C, nan := 0x7E }

/-- The bits below the sign. -/
def Fmt.magBits (f : Fmt) : Nat := f.expBits + f.fracBits

/-- An exact value: a finite one is ±m·2^e. -/
inductive FVal where
  | nan
  | inf (neg : Bool)
  | fin (neg : Bool) (m : Nat) (e : Int)
  deriving DecidableEq, Repr

/-- The value of an encoding (R28). -/
def decodeF (f : Fmt) (bits : Nat) : FVal :=
  let neg := bits / 2 ^ f.magBits % 2 == 1
  let mag := bits % 2 ^ f.magBits
  if mag > f.maxFinite then (if f.inf = some mag then .inf neg else .nan)
  else
    let ex := mag / 2 ^ f.fracBits
    let fr := mag % 2 ^ f.fracBits
    if ex = 0 then .fin neg fr f.emin else .fin neg (2 ^ f.fracBits + fr) (f.emin + (ex : Int) - 1)

/-- The rounding modes (R33): RNE, RTZ, RDN, RUP, RNA, and SR with its number of bits and its draw (R36). -/
inductive Mode where
  | rne | rtz | rdn | rup | rna
  | sr (bits : Nat) (draw : Nat)
  deriving DecidableEq, Repr

/-- The draw function (R154). -/
def draw (seed tag : BitVec 64) (i : Nat) : BitVec 32 :=
  let x := seed ^^^ (tag * 0x9E3779B97F4A7C15) ^^^ (BitVec.ofNat 64 i * 0xD1B54A32D192ED03)
  let x := (x ^^^ (x >>> 30)) * 0xBF58476D1CE4E5B9
  let x := (x ^^^ (x >>> 27)) * 0x94D049BB133111EB
  let x := x ^^^ (x >>> 31)
  x.extractLsb' 32 32

/-- Whether the discarded part rem of shift bits, with non-zero bits below it when sticky, rounds a magnitude up
(R35, R36). -/
def roundsUp (mode : Mode) (neg odd : Bool) (rem shift : Nat) (sticky : Bool) : Bool :=
  if rem = 0 ∧ !sticky then false else
  let half := 2 ^ (shift - 1)
  match mode with
  | .rne => if shift = 0 then false else decide (rem > half) || (rem == half && (sticky || odd))
  | .rna => if shift = 0 then false else decide (rem ≥ half)
  | .rtz => false
  | .rdn => neg
  | .rup => !neg
  | .sr bits d =>
    let n := Nat.min bits shift
    let t := rem / 2 ^ (shift - n)
    let low := rem % 2 ^ (shift - n) ≠ 0 ∨ sticky
    let t' := if low ∧ t % 2 = 0 then t + 1 else t
    decide (t' + d / 2 ^ (32 - n) ≥ 2 ^ n)

/-- Whether an overflow under a mode gives the infinity (R35); under SR the rounded magnitude decides. -/
def overflowsToInf (mode : Mode) (neg : Bool) : Bool :=
  match mode with
  | .rne | .rna => true
  | .rtz => false
  | .rdn => neg
  | .rup => !neg
  | .sr _ _ => true

/-- The encoding of a sign and a magnitude. -/
def signBits (f : Fmt) (neg : Bool) (mag : Nat) : Nat := (if neg then 2 ^ f.magBits else 0) + mag

/-- The rounded magnitude of m·2^e as an encoding, before overflow: the count of units of the smallest subnormal's
binade steps, which is also the encoding of the value (R28, R35). -/
def roundMag (f : Fmt) (mode : Mode) (neg : Bool) (m : Nat) (e : Int) (sticky : Bool) : Nat × Bool :=
  if m = 0 then (0, false) else
  let top : Int := (m.log2 : Int) + e
  let lsb := max (top - f.fracBits) f.emin
  let field := (lsb - f.emin).toNat
  if lsb ≤ e then (field * 2 ^ f.fracBits + m * 2 ^ (e - lsb).toNat, false)
  else
    let shift := (lsb - e).toNat
    let kept := m / 2 ^ shift
    let up := roundsUp mode neg (kept % 2 == 1) (m % 2 ^ shift) shift sticky
    (field * 2 ^ f.fracBits + kept + (if up then 1 else 0), up)

/-- A finite value rounded to a format (R35); a non-zero part below m is told by sticky.  A truncated SR overflow gives
the largest finite value. -/
def roundFin (f : Fmt) (mode : Mode) (neg : Bool) (m : Nat) (e : Int) (sticky : Bool) : Nat :=
  let r := roundMag f mode neg m e sticky
  if r.1 ≤ f.maxFinite then signBits f neg r.1
  else
    let toInf := match mode with
      | .sr _ _ => r.2
      | _ => overflowsToInf mode neg
    match f.inf with
    | some i => if toInf then signBits f neg i else signBits f neg f.maxFinite
    | none => signBits f neg f.maxFinite

/-- round(fmt, x, mode) (R11, R35). -/
def roundF (f : Fmt) (mode : Mode) : FVal → Nat
  | .nan => f.nan
  | .inf neg => match f.inf with
    | some i => signBits f neg i
    | none => signBits f neg f.maxFinite
  | .fin neg m e => roundFin f mode neg m e false

/-- Rounding to an FP8 format (R38): finite overflow saturates in every mode. -/
def roundFp8 (f : Fmt) (mode : Mode) : FVal → Nat
  | .fin neg m e => signBits f neg (Nat.min (roundMag f mode neg m e false).1 f.maxFinite)
  | v => roundF f mode v

/-- Narrowing or widening between formats (R38): the FP8 formats saturate. -/
def convertF (f : Fmt) (mode : Mode) (v : FVal) : Nat := if f.expBits + f.fracBits = 7 then roundFp8 f mode v else roundF f mode v

namespace FVal

def isNan : FVal → Bool
  | .nan => true
  | _ => false

def neg : FVal → FVal
  | .nan => .nan
  | .inf n => .inf (!n)
  | .fin n m e => .fin (!n) m e

/-- A signed integer multiple of 2^e. -/
def signed (neg : Bool) (m : Nat) : Int := if neg then -(m : Int) else m

/-- The exact sum of two values (R29): the sign of a zero sum follows the mode. -/
def add (down : Bool) : FVal → FVal → FVal
  | .nan, _ => .nan
  | _, .nan => .nan
  | .inf a, .inf b => if a = b then .inf a else .nan
  | .inf a, _ => .inf a
  | _, .inf b => .inf b
  | .fin na ma ea, .fin nb mb eb =>
    let e := min ea eb
    let x := signed na (ma * 2 ^ (ea - e).toNat) + signed nb (mb * 2 ^ (eb - e).toNat)
    if x = 0 then (if ma = 0 ∧ mb = 0 ∧ na = nb then .fin na 0 e else .fin down 0 e)
    else .fin (decide (x < 0)) x.natAbs e

/-- The exact product (R29). -/
def mul : FVal → FVal → FVal
  | .nan, _ => .nan
  | _, .nan => .nan
  | .inf a, .inf b => .inf (a != b)
  | .inf a, .fin b m _ => if m = 0 then .nan else .inf (a != b)
  | .fin b m _, .inf a => if m = 0 then .nan else .inf (a != b)
  | .fin na ma ea, .fin nb mb eb => .fin (na != nb) (ma * mb) (ea + eb)

/-- Order of two values that are no NaN; −0 and +0 are equal. -/
def cmp : FVal → FVal → Int
  | .nan, _ => 0
  | _, .nan => 0
  | .inf a, .inf b => if a = b then 0 else if a then -1 else 1
  | .inf a, _ => if a then -1 else 1
  | _, .inf b => if b then 1 else -1
  | .fin na ma ea, .fin nb mb eb =>
    let e := min ea eb
    let x := signed na (ma * 2 ^ (ea - e).toNat) - signed nb (mb * 2 ^ (eb - e).toNat)
    if x < 0 then -1 else if x > 0 then 1 else 0

def signNeg : FVal → Bool
  | .nan => false
  | .inf n => n
  | .fin n _ _ => n

end FVal

/-- Whether the mode rounds exact zero sums to −0 (R29). -/
def Mode.down : Mode → Bool
  | .rdn => true
  | _ => false

def addF (f : Fmt) (mode : Mode) (a b : Nat) : Nat := roundF f mode (FVal.add mode.down (decodeF f a) (decodeF f b))
def subF (f : Fmt) (mode : Mode) (a b : Nat) : Nat := roundF f mode (FVal.add mode.down (decodeF f a) (decodeF f b).neg)
def mulF (f : Fmt) (mode : Mode) (a b : Nat) : Nat := roundF f mode (FVal.mul (decodeF f a) (decodeF f b))
def fmaF (f : Fmt) (mode : Mode) (a b c : Nat) : Nat :=
  roundF f mode (FVal.add mode.down (FVal.mul (decodeF f a) (decodeF f b)) (decodeF f c))

/-- The exact quotient rounded once; 0/0 and ∞/∞ are NaN. -/
def divF (f : Fmt) (mode : Mode) (a b : Nat) : Nat :=
  match decodeF f a, decodeF f b with
  | .nan, _ | _, .nan => f.nan
  | .inf x, .inf _ => let _ := x; f.nan
  | .inf x, .fin y _ _ => roundF f mode (.inf (x != y))
  | .fin x _ _, .inf y => roundF f mode (.fin (x != y) 0 0)
  | .fin x m e, .fin y n d =>
    if n = 0 then (if m = 0 then f.nan else roundF f mode (.inf (x != y)))
    else if m = 0 then roundF f mode (.fin (x != y) 0 0)
    else roundFin f mode (x != y) (m * 2 ^ 64 / n) (e - d - 64) (m * 2 ^ 64 % n != 0)
/-- The smaller and larger of two values, −0 below +0, the canonical NaN for a NaN (R68, R106). -/
def minF (f : Fmt) (a b : Nat) : Nat :=
  let x := decodeF f a
  let y := decodeF f b
  if x.isNan || y.isNan then f.nan
  else if FVal.cmp x y < 0 then a else if FVal.cmp x y > 0 then b else if x.signNeg then a else b
def maxF (f : Fmt) (a b : Nat) : Nat :=
  let x := decodeF f a
  let y := decodeF f b
  if x.isNan || y.isNan then f.nan
  else if FVal.cmp x y > 0 then a else if FVal.cmp x y < 0 then b else if x.signNeg then b else a

/-- Comparisons (R68, R111): false for a NaN. -/
def eqF (f : Fmt) (a b : Nat) : Bool :=
  let x := decodeF f a; let y := decodeF f b
  !x.isNan && !y.isNan && FVal.cmp x y == 0
def ltF (f : Fmt) (a b : Nat) : Bool :=
  let x := decodeF f a; let y := decodeF f b
  !x.isNan && !y.isNan && decide (FVal.cmp x y < 0)
def leF (f : Fmt) (a b : Nat) : Bool :=
  let x := decodeF f a; let y := decodeF f b
  !x.isNan && !y.isNan && decide (FVal.cmp x y ≤ 0)

/-- An integer as an exact value. -/
def intVal (i : Int) : FVal := .fin (decide (i < 0)) i.natAbs 0

/-- A value rounded to an integer by a mode: the kept bit is the units bit (R39). -/
def roundInt (mode : Mode) (neg : Bool) (m : Nat) (e : Int) : Int :=
  if 0 ≤ e then FVal.signed neg (m * 2 ^ e.toNat)
  else
    let shift := (-e).toNat
    let kept := m / 2 ^ shift
    let up := roundsUp mode neg (kept % 2 == 1) (m % 2 ^ shift) shift false
    FVal.signed neg (kept + (if up then 1 else 0))

/-- The range of an integer type of w bits (R27). -/
def intMin (w : Nat) (sgn : Bool) : Int := if sgn then -(2 ^ (w - 1) : Nat) else 0
def intMax (w : Nat) (sgn : Bool) : Int := if sgn then (2 ^ (w - 1) : Nat) - 1 else (2 ^ w : Nat) - 1

/-- sat(type, x) (R11, R40). -/
def sat (w : Nat) (sgn : Bool) (x : Int) : Int := max (intMin w sgn) (min (intMax w sgn) x)

/-- The w bits of an integer. -/
def intBits (w : Nat) (x : Int) : Nat := (x % (2 ^ w : Nat)).toNat

/-- Float to integer (R39): a NaN gives 0, an infinity the limit of its sign. -/
def floatToInt (w : Nat) (sgn : Bool) (mode : Mode) : FVal → Int
  | .nan => 0
  | .inf neg => if neg then intMin w sgn else intMax w sgn
  | .fin neg m e => sat w sgn (roundInt mode neg m e)

/-- FCLASS (R69). -/
def classOf (bits : Nat) : Nat :=
  match decodeF f32 bits with
  | .nan => 2 ^ 8
  | .inf neg => if neg then 2 ^ 0 else 2 ^ 7
  | .fin neg m _ =>
    if m = 0 then (if neg then 2 ^ 3 else 2 ^ 4)
    else if m < 2 ^ 23 then (if neg then 2 ^ 2 else 2 ^ 5)
    else (if neg then 2 ^ 1 else 2 ^ 6)

/-! ### Sums in the matrix engine (R41, R42) -/

/-- The largest exponent of the non-zero terms. -/
def topExponent : List FVal → Option Int
  | [] => none
  | .fin _ m e :: r =>
    if m = 0 then topExponent r
    else match topExponent r with
      | some t => some (max t ((m.log2 : Int) + e))
      | none => some ((m.log2 : Int) + e)
  | _ :: r => topExponent r

/-- The terms added in a window of 48 bits, in units of 2^lsb, each truncated toward zero; and whether any bit fell
below it. -/
def windowSum (lsb : Int) : List FVal → Int × Bool
  | [] => (0, false)
  | .fin neg m e :: r =>
    let t := windowSum lsb r
    if lsb ≤ e then (t.1 + FVal.signed neg (m * 2 ^ (e - lsb).toNat), t.2)
    else
      let shift := (lsb - e).toNat
      (t.1 + FVal.signed neg (m / 2 ^ shift), t.2 || m % 2 ^ shift != 0)
  | _ :: r => windowSum lsb r

/-- round_f32_sticky (R41): S rounded by RNE, except that a tie goes up in magnitude when sticky is set and an exact S
stays whatever sticky is. -/
def roundSticky (s : Int) (lsb : Int) (sticky : Bool) : Nat :=
  if s = 0 then 0 else
  let m := s.natAbs
  let top : Int := (m.log2 : Int) + lsb
  let k := max (top - 23) (-149)
  let exact := decide (k ≤ lsb) || m % 2 ^ (k - lsb).toNat == 0
  roundFin f32 .rne (decide (s < 0)) m lsb (sticky && !exact)

/-- One pass over its terms, the first being C (R41, R42). -/
def passSum (ts : List FVal) : Nat :=
  if ts.any FVal.isNan then 0x7FC00000
  else
    let pos := ts.any fun t => t == .inf false
    let negI := ts.any fun t => t == .inf true
    if pos && negI then 0x7FC00000
    else if pos then 0x7F800000
    else if negI then 0xFF800000
    else match topExponent ts with
      | none => 0
      | some e =>
        let w := windowSum (e - 47) ts
        roundSticky w.1 (e - 47) w.2

end Sys2Proof.Machine
end

