-- ==== Sys2Proof/WellFormed.lean ====
section
/-!
DEFINITION. Which operand values each instruction accepts (R52 to R58): a well-formed instruction is one that decoding
yields.  Every other value of a field raises ILLEGAL at decode, so `Sys2Proof/Decode.lean` refuses it.
-/
namespace Sys2Proof

/-- A vector operand code (R18): codes 20 to 23 are reserved. -/
def vcode (c : BitVec 5) : Bool := c.toNat < 20 || decide (24 ≤ c.toNat)

/-- The width in bits of one lane of an element type (R52); 0 for the codes that have no lanes. -/
def laneBits (et : BitVec 4) : Nat :=
  match et.toNat with
  | 1 | 2 | 12 | 13 => 8
  | 3 | 4 | 10 | 11 => 16
  | 5 | 6 | 9 => 32
  | 7 | 8 => 64
  | _ => 0

/-- The number of lanes of an element type in 128 bits (R52). -/
def lanes (et : BitVec 4) : Nat := 128 / laneBits et

/-- How many q registers the 32-bit side of VNARROW and VWIDEN takes (R114). -/
def groupOf (et : BitVec 4) : Nat := if et.toNat ≤ 2 then 4 else 2

/-- The system registers that MTS may write (R77): numbers 16 to 31 are reserved; MODE, WP, CLOAD and USTORE are read-only. -/
def writableSystemRegister (s : BitVec 5) : Bool :=
  s.toNat < 16 && s.toNat != 3 && s.toNat != 8 && s.toNat != 9 && s.toNat != 10

namespace XF

/-- The K and KNEG fields of a predicable instruction (R53): KNEG needs a K. -/
def predicable (f : XF) : Bool := !f.kneg || f.k != 0

/-- The K and KNEG fields where no predicate is accepted (R53). -/
def unpredicated (f : XF) : Bool := f.k == 0 && !f.kneg

/-- No rounding override (R54). -/
def noOverride (f : XF) : Bool := f.ro == 0

/-- The element type lies in a range of codes (R52). -/
def etypeIn (f : XF) (lo hi : Nat) : Bool := decide (lo ≤ f.et.toNat) && decide (f.et.toNat ≤ hi)

end XF

/-- The types and the part of a VFCVT (R113). -/
def conversionTypes (f : XF) : Bool :=
  let s := f.aux8.setWidth 4
  let h := (f.aux8.extractLsb' 4 2).toNat
  let ls := lanes s
  let ld := lanes f.et
  f.etypeIn 1 13 && decide (1 ≤ s.toNat) && decide (s.toNat ≤ 13) && s != f.et
    && (decide (9 ≤ s.toNat) || decide (9 ≤ f.et.toNat))
    && decide (max ls ld ≤ 4 * min ls ld) && decide (h * min ls ld < max ls ld)
    && (decide (ld ≤ ls) || f.d.toNat < 16)

/-- The operand values that R58 and the entries of the instructions accept.  A step that is no instruction has no
encoding and is not well-formed. -/
def Instr.wf : Instr → Bool
  | .add _ => true
  | .sub _ => true
  | .mul _ => true
  | .mulh _ => true
  | .mulhu _ => true
  | .div _ => true
  | .divu _ => true
  | .rem _ => true
  | .remu _ => true
  | .and _ => true
  | .or _ => true
  | .xor _ => true
  | .andn _ => true
  | .shl _ => true
  | .shr _ => true
  | .sra _ => true
  | .rotr _ => true
  | .slt _ => true
  | .sltu _ => true
  | .min _ => true
  | .max _ => true
  | .minu _ => true
  | .maxu _ => true
  | .sel f => f.d.toNat < 28
  | .clz f => f.b == 0
  | .ctz f => f.b == 0
  | .popc f => f.b == 0
  | .bfx _ => true
  | .bfxu _ => true
  | .bfi f => f.d.toNat < 28
  | .addi _ => true
  | .addiLit _ => true
  | .andi _ => true
  | .andiLit _ => true
  | .ori _ => true
  | .oriLit _ => true
  | .xori _ => true
  | .xoriLit _ => true
  | .shli _ => true
  | .shliLit _ => true
  | .shri _ => true
  | .shriLit _ => true
  | .srai _ => true
  | .sraiLit _ => true
  | .slti _ => true
  | .sltiLit _ => true
  | .sltiu _ => true
  | .sltiuLit _ => true
  | .movi f => f.a == 0
  | .moviLit f => f.a == 0
  | .fadd _ => true
  | .fsub _ => true
  | .fmul _ => true
  | .ffma f => f.d.toNat < 28
  | .fmin _ => true
  | .fmax _ => true
  | .fabs f => f.b == 0
  | .fneg f => f.b == 0
  | .fcmpeq _ => true
  | .fcmplt _ => true
  | .fcmple _ => true
  | .fcvtif f => f.b == 0
  | .fcvtfi f => f.b == 0
  | .fclass f => f.b == 0
  | .br f => f.cond.toNat < 6
  | .brLong f => f.cond.toNat < 6
  | .jmp _ => true
  | .jmpLit f => f.lit.extractLsb' 0 2 == 0 && f.lit.extractLsb' 56 8 == 0
  | .call _ => true
  | .callLit f => f.lit.extractLsb' 0 2 == 0 && f.lit.extractLsb' 56 8 == 0
  | .jr f => f.d == 0 && f.b == 0
  | .callr f => f.b == 0
  | .nop f => f.d == 0 && f.a == 0 && f.b == 0
  | .safept _ => true
  | .trap _ => true
  | .tret f => f.d == 0 && f.a == 0 && f.b == 0
  | .bkpt _ => true
  | .mfs f => f.a == 0 && f.b.toNat < 16
  | .mts f => f.d == 0 && writableSystemRegister f.b
  | .rdtime f => f.a == 0 && f.b == 0
  | .getid f => f.a == 0 && f.b.toNat < 8
  | .ld f => f.size.toNat < 7
  | .ldLit f => f.size.toNat < 7
  | .st f => f.size.toNat < 4
  | .stLit f => f.size.toNat < 4
  | .ldAcq f => f.size.toNat < 7
  | .ldAcqLit f => f.size.toNat < 7
  | .stRel f => f.size.toNat < 4
  | .stRelLit f => f.size.toNat < 4
  | .pfetch f => f.d == 0 && f.b == 0
  | .l1inv f => f.d == 0 && f.a == 0 && f.b == 0
  | .waitv _ => true
  | .amoadd _ => true
  | .amoand _ => true
  | .amoor _ => true
  | .amoxor _ => true
  | .amomin _ => true
  | .amomax _ => true
  | .amominu _ => true
  | .amomaxu _ => true
  | .amoswap _ => true
  | .amocas f => f.d.toNat < 28
  | .amofadd _ => true
  | .amoamax _ => true
  | .fenceC f => f.d == 0 && f.a == 0 && f.b == 0
  | .fenceK f => f.d == 0 && f.a == 0 && f.b == 0
  | .fenceP f => f.d == 0 && f.a == 0 && f.b == 0
  | .fenceS f => f.b == 0
  | .vadd f => f.predicable && f.noOverride && f.etypeIn 1 8 && vcode f.d && vcode f.a && vcode f.b && f.c == 0 && f.aux8 == 0 && f.aux32 == 0
  | .vsub f => f.predicable && f.noOverride && f.etypeIn 1 8 && vcode f.d && vcode f.a && vcode f.b && f.c == 0 && f.aux8 == 0 && f.aux32 == 0
  | .vmul f => f.predicable && f.noOverride && f.etypeIn 1 8 && vcode f.d && vcode f.a && vcode f.b && f.c == 0 && f.aux8 == 0 && f.aux32 == 0
  | .vmulh f => f.predicable && f.noOverride && f.etypeIn 1 8 && vcode f.d && vcode f.a && vcode f.b && f.c == 0 && f.aux8 == 0 && f.aux32 == 0
  | .vmad f => f.predicable && f.noOverride && f.etypeIn 1 8 && vcode f.d && vcode f.a && vcode f.b && vcode f.c && f.aux8 == 0 && f.aux32 == 0
  | .vmacw f => f.predicable && f.noOverride && f.etypeIn 1 2 && f.d.toNat < 16 && f.d.toNat % 4 == 0 && vcode f.a && vcode f.b && f.c == 0 && f.aux8 == 0 && f.aux32 == 0
  | .vdot4 f => f.predicable && f.noOverride && f.etypeIn 1 2 && f.d.toNat < 16 && vcode f.a && vcode f.b && f.c == 0 && f.aux8 == 0 && f.aux32 == 0
  | .vmin f => f.predicable && f.noOverride && f.etypeIn 1 8 && vcode f.d && vcode f.a && vcode f.b && f.c == 0 && f.aux8 == 0 && f.aux32 == 0
  | .vmax f => f.predicable && f.noOverride && f.etypeIn 1 8 && vcode f.d && vcode f.a && vcode f.b && f.c == 0 && f.aux8 == 0 && f.aux32 == 0
  | .vabs f => f.predicable && f.noOverride && f.etypeIn 1 7 && f.et.toNat % 2 == 1 && vcode f.d && vcode f.a && f.b == 0 && f.c == 0 && f.aux8 == 0 && f.aux32 == 0
  | .vand f => f.predicable && f.noOverride && f.etypeIn 1 8 && vcode f.d && vcode f.a && vcode f.b && f.c == 0 && f.aux8 == 0 && f.aux32 == 0
  | .vor f => f.predicable && f.noOverride && f.etypeIn 1 8 && vcode f.d && vcode f.a && vcode f.b && f.c == 0 && f.aux8 == 0 && f.aux32 == 0
  | .vxor f => f.predicable && f.noOverride && f.etypeIn 1 8 && vcode f.d && vcode f.a && vcode f.b && f.c == 0 && f.aux8 == 0 && f.aux32 == 0
  | .vshli f => f.predicable && f.noOverride && f.etypeIn 1 8 && vcode f.d && vcode f.a && f.b == 0 && f.c == 0 && f.aux32 == 0
  | .vshri f => f.predicable && f.noOverride && f.etypeIn 1 8 && vcode f.d && vcode f.a && f.b == 0 && f.c == 0 && f.aux32 == 0
  | .vsrai f => f.predicable && f.noOverride && f.etypeIn 1 8 && vcode f.d && vcode f.a && f.b == 0 && f.c == 0 && f.aux32 == 0
  | .vrshr f => f.predicable && f.noOverride && f.etypeIn 1 8 && vcode f.d && vcode f.a && f.b == 0 && f.c == 0 && f.aux32 == 0
  | .vfadd f => f.predicable && f.ro.toNat < 7 && f.etypeIn 9 11 && vcode f.d && vcode f.a && vcode f.b && f.c == 0 && f.aux8 == 0 && f.aux32 == 0
  | .vfsub f => f.predicable && f.ro.toNat < 7 && f.etypeIn 9 11 && vcode f.d && vcode f.a && vcode f.b && f.c == 0 && f.aux8 == 0 && f.aux32 == 0
  | .vfmul f => f.predicable && f.ro.toNat < 7 && f.etypeIn 9 11 && vcode f.d && vcode f.a && vcode f.b && f.c == 0 && f.aux8 == 0 && f.aux32 == 0
  | .vffma f => f.predicable && f.ro.toNat < 7 && f.etypeIn 9 11 && vcode f.d && vcode f.a && vcode f.b && vcode f.c && f.aux8 == 0 && f.aux32 == 0
  | .vfmin f => f.predicable && f.ro.toNat < 7 && f.etypeIn 9 11 && vcode f.d && vcode f.a && vcode f.b && f.c == 0 && f.aux8 == 0 && f.aux32 == 0
  | .vfmax f => f.predicable && f.ro.toNat < 7 && f.etypeIn 9 11 && vcode f.d && vcode f.a && vcode f.b && f.c == 0 && f.aux8 == 0 && f.aux32 == 0
  | .vld f => f.predicable && f.noOverride && f.etypeIn 0 13 && (f.et != 0 || f.k == 0) && vcode f.d && f.b == 0 && f.c == 0 && f.aux8 == 0
  | .vst f => f.predicable && f.noOverride && f.etypeIn 0 13 && (f.et != 0 || f.k == 0) && f.d == 0 && vcode f.b && f.c == 0 && f.aux8 == 0
  | .vsplat f => f.predicable && f.noOverride && f.etypeIn 1 13 && vcode f.d && f.b == 0 && f.c == 0 && f.aux8 == 0 && f.aux32 == 0
  | .vsplatLit f => f.x.predicable && f.x.noOverride && f.x.etypeIn 1 13 && vcode f.x.d && f.x.a == 0 && f.x.b == 0 && f.x.c == 0 && f.x.aux8 == 0 && f.x.aux32 == 0
  | .vperm f => f.predicable && f.noOverride && f.etypeIn 1 13 && vcode f.d && vcode f.a && vcode f.b && f.c == 0 && f.aux8 == 0 && f.aux32 == 0
  | .vpermLit f => f.x.predicable && f.x.noOverride && f.x.etypeIn 1 13 && vcode f.x.d && vcode f.x.a && f.x.b == 0 && f.x.c == 0 && f.x.aux8 == 0 && f.x.aux32 == 0
  | .vslide f => f.predicable && f.noOverride && f.etypeIn 1 13 && vcode f.d && vcode f.a && vcode f.b && f.c == 0 && decide (f.aux8.toNat ≤ lanes f.et) && f.aux32 == 0
  | .vred f => f.predicable && f.noOverride && f.etypeIn 1 11 && vcode f.d && vcode f.a && f.b == 0 && f.c == 0 && f.aux8.toNat < 3 && f.aux32 == 0
  | .vsel f => f.predicable && f.noOverride && f.etypeIn 1 13 && vcode f.d && vcode f.a && vcode f.b && f.c == 0 && f.aux8 == 0 && f.aux32 == 0
  | .vcmp f => f.predicable && f.noOverride && f.etypeIn 1 13 && f.d.toNat < 8 && vcode f.a && vcode f.b && f.c == 0 && f.aux8.toNat < 6 && f.aux32 == 0
  | .kand f => f.unpredicated && f.noOverride && f.et == 0 && f.d.toNat < 8 && f.a.toNat < 8 && f.b.toNat < 8 && f.c == 0 && f.aux8 == 0 && f.aux32 == 0
  | .kor f => f.unpredicated && f.noOverride && f.et == 0 && f.d.toNat < 8 && f.a.toNat < 8 && f.b.toNat < 8 && f.c == 0 && f.aux8 == 0 && f.aux32 == 0
  | .knot f => f.unpredicated && f.noOverride && f.et == 0 && f.d.toNat < 8 && f.a.toNat < 8 && f.b == 0 && f.c == 0 && f.aux8 == 0 && f.aux32 == 0
  | .kmov f => f.unpredicated && f.noOverride && f.et == 0 && f.d.toNat < 8 && f.a.toNat < 8 && f.b == 0 && f.c == 0 && f.aux8 == 0 && f.aux32 == 0
  | .kmovImm f => f.unpredicated && f.noOverride && f.et == 0 && f.d.toNat < 8 && f.a == 0 && f.b == 0 && f.c == 0 && f.aux8 == 0 && f.aux32.extractLsb' 16 16 == 1
  | .vfcvt f => f.predicable && f.ro.toNat < 7 && conversionTypes f && vcode f.d && vcode f.a && f.b == 0 && f.c == 0 && f.aux8.extractLsb' 6 2 == 0 && f.aux32 == 0
  | .vnarrow f => f.predicable && f.noOverride && f.etypeIn 1 4 && vcode f.d && f.a.toNat < 16 && f.a.toNat % groupOf f.et == 0 && f.b == 0 && f.c == 0 && f.aux8.toNat < 2 && f.aux32 == 0
  | .vwiden f => f.predicable && f.noOverride && f.etypeIn 1 4 && vcode f.a && f.d.toNat < 16 && f.d.toNat % groupOf f.et == 0 && f.b == 0 && f.c == 0 && f.aux8 == 0 && f.aux32 == 0
  | .srcp f => f.predicable && f.noOverride && f.etypeIn 9 11 && vcode f.d && vcode f.a && f.b == 0 && f.c == 0 && f.aux8 == 0 && f.aux32 == 0
  | .srsq f => f.predicable && f.noOverride && f.etypeIn 9 11 && vcode f.d && vcode f.a && f.b == 0 && f.c == 0 && f.aux8 == 0 && f.aux32 == 0
  | .sexp2 f => f.predicable && f.noOverride && f.etypeIn 9 11 && vcode f.d && vcode f.a && f.b == 0 && f.c == 0 && f.aux8 == 0 && f.aux32 == 0
  | .slog2 f => f.predicable && f.noOverride && f.etypeIn 9 11 && vcode f.d && vcode f.a && f.b == 0 && f.c == 0 && f.aux8 == 0 && f.aux32 == 0
  | .ssin f => f.predicable && f.noOverride && f.etypeIn 9 11 && vcode f.d && vcode f.a && f.b == 0 && f.c == 0 && f.aux8 == 0 && f.aux32 == 0
  | .scos f => f.predicable && f.noOverride && f.etypeIn 9 11 && vcode f.d && vcode f.a && f.b == 0 && f.c == 0 && f.aux8 == 0 && f.aux32 == 0
  | .stanh f => f.predicable && f.noOverride && f.etypeIn 9 11 && vcode f.d && vcode f.a && f.b == 0 && f.c == 0 && f.aux8 == 0 && f.aux32 == 0
  | .ssigm f => f.predicable && f.noOverride && f.etypeIn 9 11 && vcode f.d && vcode f.a && f.b == 0 && f.c == 0 && f.aux8 == 0 && f.aux32 == 0
  | .stbind f => f.unpredicated && f.noOverride && f.et == 0 && f.d.toNat / 4 == 4 && f.b == 0 && f.c == 0 && f.aux8.toNat < 2 && f.aux32.toNat < 64
  | .stend f => f.unpredicated && f.noOverride && f.et == 0 && f.d.toNat / 4 == 4 && f.a == 0 && f.b == 0 && f.c == 0 && f.aux8 == 0 && f.aux32 == 0
  | .chbind f => f.unpredicated && f.noOverride && f.et == 0 && f.d.toNat / 4 == 7 && f.b == 0 && f.c == 0 && f.aux8 == 0 && f.aux32 == 0
  | .chend f => f.unpredicated && f.noOverride && f.et == 0 && f.d.toNat / 4 == 7 && f.a == 0 && f.b == 0 && f.c == 0 && f.aux8 == 0 && f.aux32 == 0
  | .mxldw f => f.unpredicated && f.noOverride && f.d.toNat < 2 && f.c == 0 && f.aux32 == 0 && ((f.et == 1 || f.etypeIn 10 14) && f.aux8 == 0 || f.et == 15 && f.aux8.toNat < 3)
  | .mxswap f => f.unpredicated && f.noOverride && f.et == 0 && f.d.toNat < 2 && f.a == 0 && f.b == 0 && f.c == 0 && f.aux8 == 0 && f.aux32 == 0
  | .mxq f => f.unpredicated && f.noOverride && f.et == 0 && f.d == 0 && f.b == 0 && f.c == 0 && f.aux8 == 0 && f.aux32 == 0
  | .mxwaitv f => f.unpredicated && f.noOverride && f.et == 0 && f.d.toNat < 16 && f.a == 0 && f.b == 0 && f.c == 0 && f.aux8 == 0 && f.aux32.toNat < 65536
  | .mxwaitvReg f => f.unpredicated && f.noOverride && f.et == 0 && f.d.toNat < 16 && f.b == 0 && f.c == 0 && f.aux8 == 1 && f.aux32 == 0
  | .mxdrain f => f.unpredicated && f.noOverride && (f.et == 0 || f.et == 11) && f.d.toNat < 16 && f.c == 0 && f.aux8 == 0 && f.aux32 == 0
  | .mxdrainCe f => f.unpredicated && f.noOverride && f.et == 0 && f.d.toNat < 16 && f.b == 0 && f.c == 0 && f.aux8 == 1 && f.aux32 == 0
  | .mxzero f => f.unpredicated && f.noOverride && f.et == 0 && f.d.toNat < 16 && f.a == 0 && f.b == 0 && f.c == 0 && f.aux8 == 0 && f.aux32 == 0
  | .mxzeroLd f => f.unpredicated && f.noOverride && f.et == 0 && f.d.toNat < 16 && f.b == 0 && f.c == 0 && f.aux8 == 1 && f.aux32 == 0
  | .mxcb f => f.unpredicated && f.noOverride && f.et == 0 && f.d.toNat < 2 && f.b == 0 && f.c.toNat < 8 && f.aux8 == 0 && f.aux32 == 0
  | .scacc f => f.unpredicated && f.noOverride && f.et == 15 && f.d.toNat < 16 && f.c.toNat < 16 && f.aux8.toNat < 3
  | .mxstat f => f.unpredicated && f.noOverride && f.et == 0 && f.a == 0 && f.b == 0 && f.c.toNat < 16 && f.aux8 == 0 && f.aux32 == 0
  | .normref f => f.unpredicated && f.noOverride && f.et == 0 && f.d == 0 && f.b == 0 && f.c == 0 && f.aux8.toNat < 64 && f.aux32 == 0
  | .normrd f => f.unpredicated && f.noOverride && f.et == 0 && f.b == 0 && f.c == 0 && f.aux8.toNat < 64 && f.aux32 == 0
  | .send f => f.unpredicated && f.noOverride && f.et == 0 && f.aux32 &&& 0xFF00FF80#32 == 0
  | .mbwait f => f.unpredicated && f.noOverride && f.et == 0 && f.b == 0 && f.c == 0 && f.aux8.toNat < 64 && f.aux32 == 0
  | .mbread f => f.unpredicated && f.noOverride && f.et == 0 && f.a == 0 && f.b == 0 && f.c == 0 && f.aux8.toNat < 64 && f.aux32 == 0
  | .mbset f => f.unpredicated && f.noOverride && f.et == 0 && f.d == 0 && f.b == 0 && f.c == 0 && f.aux8.toNat < 64 && f.aux32 == 0
  | .hclaim f => f.unpredicated && f.noOverride && f.et == 0 && f.d == 0 && f.c == 0 && f.aux8.toNat < 64 && f.aux32 &&& 0xFFFFF8C0#32 == 0
  | .hwait f => f.unpredicated && f.noOverride && f.et == 0 && f.a == 0 && f.b == 0 && f.c == 0 && f.aux8.toNat < 64 && f.aux32 == 0
  | .hfree f => f.unpredicated && f.noOverride && f.et == 0 && f.d == 0 && f.a == 0 && f.b == 0 && f.c == 0 && f.aux8.toNat < 64 && f.aux32 == 0
  | .hstat f => f.unpredicated && f.noOverride && f.et == 0 && f.a == 0 && f.b == 0 && f.c == 0 && f.aux8.toNat < 64 && f.aux32 == 0
  | .gather f => f.unpredicated && f.noOverride && f.et == 0 && f.d == 0 && f.aux8.toNat < 64 && f.aux32.toNat < 64
  | .nzscan f => f.unpredicated && f.noOverride && f.etypeIn 1 13 && f.aux8 == 0 && f.aux32 == 0
  | .rscat f => f.unpredicated && f.noOverride && f.et == 0 && f.d == 0 && f.b == 0 && f.c == 0 && f.aux8 == 0 && f.aux32 == 0
  | .vdec f => f.unpredicated && f.noOverride && f.et == 0 && f.d == 0 && f.b == 0 && f.c == 0 && f.aux8 == 0 && f.aux32 == 0
  | .gmadd f => f.unpredicated && f.noOverride && f.et == 0 && f.c == 0 && f.aux8.toNat < 8 && f.aux32 == 0
  | .gmaddJ f => f.unpredicated && f.noOverride && f.et == 0 && f.c == 0 && f.aux8.toNat < 8 && f.aux32.toNat < 32 && f.aux32.toNat % 2 == 1 && decide (f.aux32.toNat / 2 + f.aux8.toNat + 1 ≤ 16)
  | .gmsub f => f.unpredicated && f.noOverride && f.et == 0 && f.c == 0 && f.aux8.toNat < 8 && f.aux32 == 0
  | .gmsubJ f => f.unpredicated && f.noOverride && f.et == 0 && f.c == 0 && f.aux8.toNat < 8 && f.aux32.toNat < 32 && f.aux32.toNat % 2 == 1 && decide (f.aux32.toNat / 2 + f.aux8.toNat + 1 ≤ 16)
  | .gmschur f => f.unpredicated && f.noOverride && f.et == 0 && f.b == 0 && f.c == 0 && f.aux8.toNat < 128 && decide (f.aux8.toNat / 16 ≤ f.aux8.toNat % 16) && f.aux32 == 0
  | .gmdamp f => f.unpredicated && f.noOverride && f.et == 0 && f.c == 0 && f.aux8.toNat < 8 && f.aux32.toNat < 65536 && !f.aux32.getLsbD 0
  | .gmsend f => f.unpredicated && f.noOverride && f.et == 0 && f.d == 0 && f.c == 0 && f.aux8 == 0 && f.aux32 == 0
  | .gmpoll f => f.unpredicated && f.noOverride && f.et == 0 && f.b == 0 && f.c == 0 && f.aux8.toNat < 64 && f.aux32 == 0
  | .gmmean f => f.unpredicated && f.noOverride && f.et == 0 && f.b == 0 && f.c == 0 && f.aux8.toNat < 8 && f.aux32 == 0
  | .start f => f.unpredicated && f.noOverride && f.et == 0 && f.d == 0 && f.b == 0 && f.c == 0 && f.aux8 == 0
  | .startR f => f.unpredicated && f.noOverride && f.et == 0 && f.d == 0 && f.c == 0 && f.aux8 == 1 && f.aux32 == 0
  | .reap f => f.unpredicated && f.noOverride && f.et == 0 && f.d == 0 && f.b == 0 && f.c == 0 && f.aux8 == 0 && f.aux32 == 0
  | .exit f => f.unpredicated && f.noOverride && f.et == 0 && f.d == 0 && f.a == 0 && f.b == 0 && f.c == 0 && f.aux8 == 0 && f.aux32 == 0
  | .resole f => f.unpredicated && f.noOverride && f.et == 0 && f.d == 0 && f.c == 0 && f.aux8 == 0 && f.aux32 == 0
  | .launch f => f.unpredicated && f.noOverride && f.et == 0 && f.b == 0 && f.c == 0 && f.aux8 == 0 && f.aux32 == 0
  | .migrate f => f.unpredicated && f.noOverride && f.et == 0 && f.b == 0 && f.c == 0 && f.aux8 == 0 && f.aux32 == 0
  | .yield f => f.unpredicated && f.noOverride && f.et == 0 && f.d == 0 && f.a == 0 && f.b == 0 && f.c == 0 && f.aux32 == 0
  | .rdvinit f => f.unpredicated && f.noOverride && f.et == 0 && f.d == 0 && f.b == 0 && f.c == 0 && f.aux8.toNat < 24 && f.aux32 == 0
  | .arrive f => f.unpredicated && f.noOverride && f.et == 0 && f.d == 0 && f.a == 0 && f.b == 0 && f.c == 0 && f.aux8.toNat < 24 && f.aux32 == 0
  | .rdvwait f => f.unpredicated && f.noOverride && f.et == 0 && f.d == 0 && f.a == 0 && f.b == 0 && f.c == 0 && f.aux8.toNat < 24 && f.aux32 == 0
  | .rdvwaitPhase f => f.unpredicated && f.noOverride && f.et == 0 && f.d == 0 && f.b == 0 && f.c == 0 && f.aux8.toNat / 32 == 1 && f.aux8.toNat % 32 < 24 && f.aux32 == 0
  | .fixedLatencyWrite => false
  | .interlockedResult => false
  | .stallDistanceEnd => false
  | .yieldEnd => false
  | .homeAccess => false
  | .storeAck => false
  | .l1Fill => false
  | .waitvPoll => false
  | .streamPrefetch => false
  | .channelWordDelivery => false
  | .channelCreditReturn => false
  | .engineQueueAccept => false
  | .taskStart => false
  | .swapStart => false
  | .codebookLoadStart => false
  | .drainStart => false
  | .zeroStart => false
  | .fillStart => false
  | .scaleStart => false
  | .entryCompletion => false
  | .sfuServiceStart => false
  | .sfuCompletion => false
  | .transferAccept => false
  | .lockMessageArrival => false
  | .gateRequest => false
  | .tokenGrant => false
  | .tokenArrival => false
  | .tokenExpiry => false
  | .packetLanding => false
  | .notifyLatchDrain => false
  | .lastSourceRead => false
  | .sendDone => false
  | .cxlTransferFailure => false
  | .gatherRowFetch => false
  | .gatherCompletion => false
  | .rscatCompletion => false
  | .vdecCommandStart => false
  | .frameLanding => false
  | .decodeBatchEnd => false
  | .gmsendLanding => false
  | .rendezvousArrival => false
  | .arriveResponse => false
  | .phaseUpdate => false
  | .rdvinitAtHome => false
  | .cloadRefresh => false
  | .migrationSend => false
  | .migrationReservation => false
  | .migrationLanding => false
  | .remoteLoadMove => false
  | .guestLanding => false
  | .guestReturn => false
  | .guestHomeLanding => false
  | .resoleScrub => false
  | .resoleSuccessorStart => false
  | .pitchRelease => false
  | .releaseScrubDone => false
  | .placement => false
  | .saveRoutineStart => false
  | .preemptHwSave => false
  | .preemptTimeout => false
  | .restoreHwWriteback => false
  | .pageWalk => false
  | .tlbMissRetry => false
  | .instructionFetchDone => false
  | .portRcb => false
  | .portLaunch => false
  | .portPreempt => false
  | .portKill => false
  | .portWriteDone => false
  | .artCtrlWrite => false
  | .invalidatePage => false
  | .invalidateRange => false
  | .invalidateRegion => false
  | .invalidateAll => false
  | .invalidationDone => false
  | .multicastCommit => false
  | .commitAck => false
  | .resync => false
  | .resyncDone => false
  | .attestationQuote => false
  | .moduleReset => false
  | .bootStage => false
  | .governorWindow => false
  | .patrolScrub => false
  | .gtcSync => false
  | .laneSample => false
  | .flitReceive => false
  | .e2eTimeout => false
  | .fabricPacketDelivery => false
  | .registerWrite => false
  | .illegalEncoding _ => false
  | .linkRetryTimeout => false
  | .cxlLinkDrop => false
  | .cxlLinkReturn => false

end Sys2Proof
end

