-- ==== Sys2Proof/Decode.lean ====
section
/-!
DEFINITION. Decoding (R46 to R58) and encoding.  `Layout` is an instruction word by word with the major and minor
opcodes still numbers; `Layout.ofWords` and `Layout.words` are the formats of R46 to R51, `Layout.instr` and
`Instr.layout` the opcode map of R56 and R57.  A word that is no instruction (R58) decodes to nothing.
-/
namespace Sys2Proof

abbrev W32 := BitVec 32

/-- The words of an instruction by layout (R46, R48, R50, R51). -/
inductive Layout where
  | r (maj min : BitVec 6) (f : RF)
  | i (maj : BitVec 6) (f : IF)
  | il (maj : BitVec 6) (f : IL)
  | m (maj : BitVec 6) (f : MF)
  | ml (maj : BitVec 6) (f : ML)
  | b (f : BF)
  | bl (f : BL)
  | j (maj : BitVec 6) (f : JF)
  | jl (maj : BitVec 6) (f : JL)
  | x (maj : BitVec 6) (min : BitVec 8) (f : XF)
  | xl (maj : BitVec 6) (min : BitVec 8) (f : XL)
  deriving DecidableEq, Repr

/-- The LEN field of word 0 (R47). -/
def lenField (w0 : W32) : BitVec 2 := w0.extractLsb' 0 2

/-- The MAJ field of word 0 (R47). -/
def majField (w0 : W32) : BitVec 6 := w0.extractLsb' 5 6

/-- The number of words of an instruction (R46). -/
def wordCount (w0 : W32) : Nat :=
  match (lenField w0).toNat with
  | 0 => 1
  | 1 => 3
  | 2 => 3
  | _ => 5

/-- The bit kneg as one bit of word 1 (R50). -/
def knegBit (b : Bool) : BitVec 1 := if b then 1#1 else 0#1

/-- Word 0 of the extended form (R50). -/
def XF.word0 (f : XF) (maj : BitVec 6) (len : BitVec 2) : W32 := 0#6 ++ f.b ++ f.a ++ f.d ++ maj ++ f.st ++ len

/-- Word 1 of the extended form (R50). -/
def XF.word1 (f : XF) (min : BitVec 8) : W32 := f.aux8 ++ f.c ++ f.ro ++ knegBit f.kneg ++ f.k ++ f.et ++ min

/-- The low and high words of a literal (R46). -/
def litWords (l : BitVec 64) : List W32 := [l.extractLsb' 0 32, l.extractLsb' 32 32]

/-- The words of a layout (R46 to R51). -/
def Layout.words : Layout → List W32
  | .r maj min f => [min ++ f.b ++ f.a ++ f.d ++ maj ++ f.st ++ 0#2]
  | .i maj f => [f.imm ++ f.a ++ f.d ++ maj ++ f.st ++ 0#2]
  | .il maj f => (0#11 ++ f.a ++ f.d ++ maj ++ f.st ++ 2#2) :: litWords f.lit
  | .m maj f => [f.disp ++ f.size ++ f.base ++ f.d ++ maj ++ f.st ++ 0#2]
  | .ml maj f => (0#8 ++ f.size ++ f.base ++ f.d ++ maj ++ f.st ++ 2#2) :: litWords f.lit
  | .b f => [f.off ++ f.b ++ f.a ++ f.cond ++ 0x0D#6 ++ f.st ++ 0#2]
  | .bl f => [0#8 ++ f.b ++ f.a ++ f.cond ++ 0x0D#6 ++ f.st ++ 1#2, 0#32, f.off]
  | .j maj f => [f.off ++ maj ++ f.st ++ 0#2]
  | .jl maj f => (0#21 ++ maj ++ f.st ++ 2#2) :: litWords f.lit
  | .x maj min f => [f.word0 maj 1#2, f.word1 min, f.aux32]
  | .xl maj min f => f.x.word0 maj 3#2 :: f.x.word1 min :: f.x.aux32 :: litWords f.lit

/-- The format of a major opcode (R56). -/
inductive Format where
  | none | r | i | m | b | j | x
  deriving DecidableEq, Repr

/-- The column "Word 0 layout" of R56. -/
def formatOf (maj : BitVec 6) : Format :=
  match maj.toNat with
  | 0x01 | 0x0C | 0x10 | 0x11 | 0x16 | 0x17 | 0x18 => .r
  | 0x02 | 0x03 | 0x04 | 0x05 | 0x06 | 0x07 | 0x08 | 0x09 | 0x0A | 0x0B => .i
  | 0x0D => .b
  | 0x0E | 0x0F => .j
  | 0x12 | 0x13 | 0x14 | 0x15 => .m
  | 0x19 | 0x1A | 0x1B | 0x1C | 0x1D | 0x1E | 0x1F | 0x20 | 0x21 | 0x22 | 0x23 | 0x24 | 0x25 | 0x26 => .x
  | _ => .none

/-- The STALL field of word 0 (R47). -/
def stallField (w0 : W32) : BitVec 3 := w0.extractLsb' 2 3

/-- A literal from its two words (R46). -/
def literalOf (lo hi : W32) : BitVec 64 := hi ++ lo

/-- The fields of the extended form (R50). -/
def XF.ofWords (w0 w1 w2 : W32) : XF :=
  { st := stallField w0, d := w0.extractLsb' 11 5, a := w0.extractLsb' 16 5, b := w0.extractLsb' 21 5
    c := w1.extractLsb' 19 5, et := w1.extractLsb' 8 4, k := w1.extractLsb' 12 3, kneg := w1.getLsbD 15
    ro := w1.extractLsb' 16 3, aux8 := w1.extractLsb' 24 8, aux32 := w2 }

/-- The layout of a list of words: the fields that must be zero are zero (R51, R58 5), and the major accepts the LEN (R56). -/
def Layout.ofWords : List W32 → Option Layout
  | [w0] =>
    if lenField w0 != 0 then none else
    let maj := majField w0
    match formatOf maj with
    | .r => some (.r maj (w0.extractLsb' 26 6)
        { st := stallField w0, d := w0.extractLsb' 11 5, a := w0.extractLsb' 16 5, b := w0.extractLsb' 21 5 })
    | .i => some (.i maj
        { st := stallField w0, d := w0.extractLsb' 11 5, a := w0.extractLsb' 16 5, imm := w0.extractLsb' 21 11 })
    | .m => some (.m maj { st := stallField w0, d := w0.extractLsb' 11 5, base := w0.extractLsb' 16 5,
                           size := w0.extractLsb' 21 3, disp := w0.extractLsb' 24 8 })
    | .b => some (.b { st := stallField w0, cond := w0.extractLsb' 11 3, a := w0.extractLsb' 14 5,
                       b := w0.extractLsb' 19 5, off := w0.extractLsb' 24 8 })
    | .j => some (.j maj { st := stallField w0, off := w0.extractLsb' 11 21 })
    | _ => none
  | [w0, w1, w2] =>
    let maj := majField w0
    match (lenField w0).toNat, formatOf maj with
    | 1, .x => if w0.extractLsb' 26 6 != 0 then none else
        some (.x maj (w1.extractLsb' 0 8) (XF.ofWords w0 w1 w2))
    | 1, .b => if w0.extractLsb' 24 8 != 0 || w1 != 0 then none else
        some (.bl { st := stallField w0, cond := w0.extractLsb' 11 3, a := w0.extractLsb' 14 5,
                    b := w0.extractLsb' 19 5, off := w2 })
    | 2, .i => if w0.extractLsb' 21 11 != 0 then none else
        some (.il maj { st := stallField w0, d := w0.extractLsb' 11 5, a := w0.extractLsb' 16 5, lit := literalOf w1 w2 })
    | 2, .m => if w0.extractLsb' 24 8 != 0 then none else
        some (.ml maj { st := stallField w0, d := w0.extractLsb' 11 5, base := w0.extractLsb' 16 5,
                        size := w0.extractLsb' 21 3, lit := literalOf w1 w2 })
    | 2, .j => if w0.extractLsb' 11 21 != 0 then none else
        some (.jl maj { st := stallField w0, lit := literalOf w1 w2 })
    | _, _ => none
  | [w0, w1, w2, w3, w4] =>
    if lenField w0 != 3 || w0.extractLsb' 26 6 != 0 then none else
    match formatOf (majField w0) with
    | .x => some (.xl (majField w0) (w1.extractLsb' 0 8) { x := XF.ofWords w0 w1 w2, lit := literalOf w3 w4 })
    | _ => none
  | _ => none

/-- Minors of major 0x01 (R57). -/
def minorInteger (min : Nat) (f : RF) : Option Instr :=
  match min with
  | 0x00 => some (.add f)
  | 0x01 => some (.sub f)
  | 0x02 => some (.mul f)
  | 0x03 => some (.mulh f)
  | 0x04 => some (.mulhu f)
  | 0x05 => some (.div f)
  | 0x06 => some (.divu f)
  | 0x07 => some (.rem f)
  | 0x08 => some (.remu f)
  | 0x09 => some (.and f)
  | 0x0A => some (.or f)
  | 0x0B => some (.xor f)
  | 0x0C => some (.andn f)
  | 0x0D => some (.shl f)
  | 0x0E => some (.shr f)
  | 0x0F => some (.sra f)
  | 0x10 => some (.rotr f)
  | 0x11 => some (.slt f)
  | 0x12 => some (.sltu f)
  | 0x13 => some (.min f)
  | 0x14 => some (.max f)
  | 0x15 => some (.minu f)
  | 0x16 => some (.maxu f)
  | 0x17 => some (.sel f)
  | 0x18 => some (.clz f)
  | 0x19 => some (.ctz f)
  | 0x1A => some (.popc f)
  | 0x1B => some (.bfx f)
  | 0x1C => some (.bfxu f)
  | 0x1D => some (.bfi f)
  | _ => none

/-- Minors of major 0x0C (R57). -/
def minorScalarFloat (min : Nat) (f : RF) : Option Instr :=
  match min with
  | 0x00 => some (.fadd f)
  | 0x01 => some (.fsub f)
  | 0x02 => some (.fmul f)
  | 0x03 => some (.ffma f)
  | 0x04 => some (.fmin f)
  | 0x05 => some (.fmax f)
  | 0x06 => some (.fabs f)
  | 0x07 => some (.fneg f)
  | 0x08 => some (.fcmpeq f)
  | 0x09 => some (.fcmplt f)
  | 0x0A => some (.fcmple f)
  | 0x0B => some (.fcvtif f)
  | 0x0C => some (.fcvtfi f)
  | 0x0D => some (.fclass f)
  | _ => none

/-- Minors of major 0x10 (R57). -/
def minorRegisterJump (min : Nat) (f : RF) : Option Instr :=
  match min with
  | 0x00 => some (.jr f)
  | 0x01 => some (.callr f)
  | _ => none

/-- Minors of major 0x11 (R57). -/
def minorSystem (min : Nat) (f : RF) : Option Instr :=
  match min with
  | 0x00 => some (.nop f)
  | 0x01 => some (.safept f)
  | 0x02 => some (.trap f)
  | 0x03 => some (.tret f)
  | 0x04 => some (.bkpt f)
  | 0x05 => some (.mfs f)
  | 0x06 => some (.mts f)
  | 0x07 => some (.rdtime f)
  | 0x08 => some (.getid f)
  | _ => none

/-- Minors of major 0x16 (R57). -/
def minorMemoryExtra (min : Nat) (f : RF) : Option Instr :=
  match min with
  | 0x00 => some (.pfetch f)
  | 0x01 => some (.l1inv f)
  | 0x02 => some (.waitv f)
  | _ => none

/-- Minors of major 0x18 (R57). -/
def minorFence (min : Nat) (f : RF) : Option Instr :=
  match min with
  | 0x00 => some (.fenceC f)
  | 0x01 => some (.fenceK f)
  | 0x02 => some (.fenceP f)
  | 0x03 => some (.fenceS f)
  | _ => none

/-- Major 0x17 (R57): MIN6 holds the operation in bits [5:2] and the ordering in bits [1:0]. -/
def minorAtomic (op : Nat) (f : AF) : Option Instr :=
  match op with
  | 0 => some (.amoadd f)
  | 1 => some (.amoand f)
  | 2 => some (.amoor f)
  | 3 => some (.amoxor f)
  | 4 => some (.amomin f)
  | 5 => some (.amomax f)
  | 6 => some (.amominu f)
  | 7 => some (.amomaxu f)
  | 8 => some (.amoswap f)
  | 9 => some (.amocas f)
  | 10 => some (.amofadd f)
  | 11 => some (.amoamax f)
  | _ => none

/-- Minors of major 0x19 (R57). -/
def minorVectorInteger (min : Nat) (f : XF) : Option Instr :=
  match min with
  | 0x00 => some (.vadd f)
  | 0x01 => some (.vsub f)
  | 0x02 => some (.vmul f)
  | 0x03 => some (.vmulh f)
  | 0x04 => some (.vmad f)
  | 0x05 => some (.vmacw f)
  | 0x06 => some (.vdot4 f)
  | 0x07 => some (.vmin f)
  | 0x08 => some (.vmax f)
  | 0x09 => some (.vabs f)
  | 0x0A => some (.vand f)
  | 0x0B => some (.vor f)
  | 0x0C => some (.vxor f)
  | 0x0D => some (.vshli f)
  | 0x0E => some (.vshri f)
  | 0x0F => some (.vsrai f)
  | 0x10 => some (.vrshr f)
  | _ => none

/-- Minors of major 0x1A (R57). -/
def minorVectorFloat (min : Nat) (f : XF) : Option Instr :=
  match min with
  | 0x00 => some (.vfadd f)
  | 0x01 => some (.vfsub f)
  | 0x02 => some (.vfmul f)
  | 0x03 => some (.vffma f)
  | 0x04 => some (.vfmin f)
  | 0x05 => some (.vfmax f)
  | _ => none

/-- Minors of major 0x1B (R57). -/
def minorVectorMemory (min : Nat) (f : XF) : Option Instr :=
  match min with
  | 0x00 => some (.vld f)
  | 0x01 => some (.vst f)
  | _ => none

/-- Minors of major 0x1C (R57). -/
def minorPermute (min : Nat) (f : XF) : Option Instr :=
  match min with
  | 0x00 => some (.vsplat f)
  | 0x01 => some (.vperm f)
  | 0x02 => some (.vslide f)
  | 0x03 => some (.vred f)
  | 0x04 => some (.vsel f)
  | 0x05 => some (.vcmp f)
  | 0x10 => some (.kand f)
  | 0x11 => some (.kor f)
  | 0x12 => some (.knot f)
  | 0x13 => some (if f.aux32.getLsbD 16 then .kmovImm f else .kmov f)
  | _ => none

/-- Minors of major 0x1D (R57). -/
def minorConversion (min : Nat) (f : XF) : Option Instr :=
  match min with
  | 0x00 => some (.vfcvt f)
  | 0x01 => some (.vnarrow f)
  | 0x02 => some (.vwiden f)
  | _ => none

/-- Minors of major 0x1E (R57). -/
def minorFunction (min : Nat) (f : XF) : Option Instr :=
  match min with
  | 0x00 => some (.srcp f)
  | 0x01 => some (.srsq f)
  | 0x02 => some (.sexp2 f)
  | 0x03 => some (.slog2 f)
  | 0x04 => some (.ssin f)
  | 0x05 => some (.scos f)
  | 0x06 => some (.stanh f)
  | 0x07 => some (.ssigm f)
  | _ => none

/-- Minors of major 0x1F (R57). -/
def minorFeed (min : Nat) (f : XF) : Option Instr :=
  match min with
  | 0x00 => some (.stbind f)
  | 0x01 => some (.stend f)
  | 0x02 => some (.chbind f)
  | 0x03 => some (.chend f)
  | _ => none

/-- Minors of major 0x20 (R57). -/
def minorMatrix (min : Nat) (f : XF) : Option Instr :=
  match min with
  | 0x00 => some (.mxldw f)
  | 0x01 => some (.mxswap f)
  | 0x02 => some (.mxq f)
  | 0x03 => some (if f.aux8.getLsbD 0 then .mxwaitvReg f else .mxwaitv f)
  | 0x04 => some (if f.aux8.getLsbD 0 then .mxdrainCe f else .mxdrain f)
  | 0x05 => some (if f.aux8.getLsbD 0 then .mxzeroLd f else .mxzero f)
  | 0x06 => some (.mxcb f)
  | 0x07 => some (.scacc f)
  | 0x08 => some (.mxstat f)
  | 0x09 => some (.normref f)
  | 0x0A => some (.normrd f)
  | _ => none

/-- Minors of major 0x21 (R57). -/
def minorTransfer (min : Nat) (f : XF) : Option Instr :=
  match min with
  | 0x00 => some (.send f)
  | 0x01 => some (.mbwait f)
  | 0x02 => some (.mbread f)
  | 0x03 => some (.mbset f)
  | 0x04 => some (.hclaim f)
  | 0x05 => some (.hwait f)
  | 0x06 => some (.hfree f)
  | 0x07 => some (.hstat f)
  | _ => none

/-- Minors of major 0x22 (R57). -/
def minorGather (min : Nat) (f : XF) : Option Instr :=
  match min with
  | 0x00 => some (.gather f)
  | 0x01 => some (.nzscan f)
  | _ => none

/-- Minors of major 0x23 (R57). -/
def minorCollective (min : Nat) (f : XF) : Option Instr :=
  match min with
  | 0x00 => some (.rscat f)
  | 0x01 => some (.vdec f)
  | _ => none

/-- Minors of major 0x24 (R57). -/
def minorGaussian (min : Nat) (f : XF) : Option Instr :=
  match min with
  | 0x00 => some (if f.aux32.getLsbD 0 then .gmaddJ f else .gmadd f)
  | 0x01 => some (if f.aux32.getLsbD 0 then .gmsubJ f else .gmsub f)
  | 0x02 => some (.gmschur f)
  | 0x03 => some (.gmdamp f)
  | 0x04 => some (.gmsend f)
  | 0x05 => some (.gmpoll f)
  | 0x06 => some (.gmmean f)
  | _ => none

/-- Minors of major 0x25 (R57). -/
def minorGroup (min : Nat) (f : XF) : Option Instr :=
  match min with
  | 0x00 => some (if f.aux8.getLsbD 0 then .startR f else .start f)
  | 0x01 => some (.reap f)
  | 0x02 => some (.exit f)
  | 0x03 => some (.resole f)
  | 0x04 => some (.launch f)
  | 0x05 => some (.migrate f)
  | 0x06 => some (.yield f)
  | _ => none

/-- Minors of major 0x26 (R57). -/
def minorRendezvous (min : Nat) (f : XF) : Option Instr :=
  match min with
  | 0x00 => some (.rdvinit f)
  | 0x01 => some (.arrive f)
  | 0x02 => some (if f.aux8.getLsbD 5 then .rdvwaitPhase f else .rdvwait f)
  | _ => none

/-- The opcode map (R56, R57). -/
def Layout.instr : Layout → Option Instr
  | .r maj min f =>
    match maj.toNat with
    | 0x01 => minorInteger min.toNat f
    | 0x0C => minorScalarFloat min.toNat f
    | 0x10 => minorRegisterJump min.toNat f
    | 0x11 => minorSystem min.toNat f
    | 0x16 => minorMemoryExtra min.toNat f
    | 0x18 => minorFence min.toNat f
    | 0x17 => minorAtomic (min.extractLsb' 2 4).toNat { st := f.st, d := f.d, a := f.a, b := f.b, ord := min.extractLsb' 0 2 }
    | _ => none
  | .i maj f =>
    match maj.toNat with
    | 0x02 => some (.addi f)
    | 0x03 => some (.andi f)
    | 0x04 => some (.ori f)
    | 0x05 => some (.xori f)
    | 0x06 => some (.shli f)
    | 0x07 => some (.shri f)
    | 0x08 => some (.srai f)
    | 0x09 => some (.slti f)
    | 0x0A => some (.sltiu f)
    | 0x0B => some (.movi f)
    | _ => none
  | .il maj f =>
    match maj.toNat with
    | 0x02 => some (.addiLit f)
    | 0x03 => some (.andiLit f)
    | 0x04 => some (.oriLit f)
    | 0x05 => some (.xoriLit f)
    | 0x06 => some (.shliLit f)
    | 0x07 => some (.shriLit f)
    | 0x08 => some (.sraiLit f)
    | 0x09 => some (.sltiLit f)
    | 0x0A => some (.sltiuLit f)
    | 0x0B => some (.moviLit f)
    | _ => none
  | .m maj f =>
    match maj.toNat with
    | 0x12 => some (.ld f)
    | 0x13 => some (.st f)
    | 0x14 => some (.ldAcq f)
    | 0x15 => some (.stRel f)
    | _ => none
  | .ml maj f =>
    match maj.toNat with
    | 0x12 => some (.ldLit f)
    | 0x13 => some (.stLit f)
    | 0x14 => some (.ldAcqLit f)
    | 0x15 => some (.stRelLit f)
    | _ => none
  | .b f => some (.br f)
  | .bl f => some (.brLong f)
  | .j maj f =>
    match maj.toNat with
    | 0x0E => some (.jmp f)
    | 0x0F => some (.call f)
    | _ => none
  | .jl maj f =>
    match maj.toNat with
    | 0x0E => some (.jmpLit f)
    | 0x0F => some (.callLit f)
    | _ => none
  | .x maj min f =>
    match maj.toNat with
    | 0x19 => minorVectorInteger min.toNat f
    | 0x1A => minorVectorFloat min.toNat f
    | 0x1B => minorVectorMemory min.toNat f
    | 0x1C => minorPermute min.toNat f
    | 0x1D => minorConversion min.toNat f
    | 0x1E => minorFunction min.toNat f
    | 0x1F => minorFeed min.toNat f
    | 0x20 => minorMatrix min.toNat f
    | 0x21 => minorTransfer min.toNat f
    | 0x22 => minorGather min.toNat f
    | 0x23 => minorCollective min.toNat f
    | 0x24 => minorGaussian min.toNat f
    | 0x25 => minorGroup min.toNat f
    | 0x26 => minorRendezvous min.toNat f
    | _ => none
  | .xl maj min f =>
    if maj.toNat != 0x1C then none else
    match min.toNat with
    | 0x00 => some (.vsplatLit f)
    | 0x01 => some (.vpermLit f)
    | _ => none

/-- Decoding (R46 to R58): the instruction of a list of words, as many as LEN names. -/
def decode (ws : List W32) : Option Instr := do
  let l ← Layout.ofWords ws
  let i ← l.instr
  if i.wf then some i else none

/-- The layout of an instruction (R56, R57); a step that is no instruction has none. -/
def Instr.layout : Instr → Option Layout
  | .add f => some (.r 0x01 0x00 f)
  | .sub f => some (.r 0x01 0x01 f)
  | .mul f => some (.r 0x01 0x02 f)
  | .mulh f => some (.r 0x01 0x03 f)
  | .mulhu f => some (.r 0x01 0x04 f)
  | .div f => some (.r 0x01 0x05 f)
  | .divu f => some (.r 0x01 0x06 f)
  | .rem f => some (.r 0x01 0x07 f)
  | .remu f => some (.r 0x01 0x08 f)
  | .and f => some (.r 0x01 0x09 f)
  | .or f => some (.r 0x01 0x0A f)
  | .xor f => some (.r 0x01 0x0B f)
  | .andn f => some (.r 0x01 0x0C f)
  | .shl f => some (.r 0x01 0x0D f)
  | .shr f => some (.r 0x01 0x0E f)
  | .sra f => some (.r 0x01 0x0F f)
  | .rotr f => some (.r 0x01 0x10 f)
  | .slt f => some (.r 0x01 0x11 f)
  | .sltu f => some (.r 0x01 0x12 f)
  | .min f => some (.r 0x01 0x13 f)
  | .max f => some (.r 0x01 0x14 f)
  | .minu f => some (.r 0x01 0x15 f)
  | .maxu f => some (.r 0x01 0x16 f)
  | .sel f => some (.r 0x01 0x17 f)
  | .clz f => some (.r 0x01 0x18 f)
  | .ctz f => some (.r 0x01 0x19 f)
  | .popc f => some (.r 0x01 0x1A f)
  | .bfx f => some (.r 0x01 0x1B f)
  | .bfxu f => some (.r 0x01 0x1C f)
  | .bfi f => some (.r 0x01 0x1D f)
  | .addi f => some (.i 0x02 f)
  | .addiLit f => some (.il 0x02 f)
  | .andi f => some (.i 0x03 f)
  | .andiLit f => some (.il 0x03 f)
  | .ori f => some (.i 0x04 f)
  | .oriLit f => some (.il 0x04 f)
  | .xori f => some (.i 0x05 f)
  | .xoriLit f => some (.il 0x05 f)
  | .shli f => some (.i 0x06 f)
  | .shliLit f => some (.il 0x06 f)
  | .shri f => some (.i 0x07 f)
  | .shriLit f => some (.il 0x07 f)
  | .srai f => some (.i 0x08 f)
  | .sraiLit f => some (.il 0x08 f)
  | .slti f => some (.i 0x09 f)
  | .sltiLit f => some (.il 0x09 f)
  | .sltiu f => some (.i 0x0A f)
  | .sltiuLit f => some (.il 0x0A f)
  | .movi f => some (.i 0x0B f)
  | .moviLit f => some (.il 0x0B f)
  | .fadd f => some (.r 0x0C 0x00 f)
  | .fsub f => some (.r 0x0C 0x01 f)
  | .fmul f => some (.r 0x0C 0x02 f)
  | .ffma f => some (.r 0x0C 0x03 f)
  | .fmin f => some (.r 0x0C 0x04 f)
  | .fmax f => some (.r 0x0C 0x05 f)
  | .fabs f => some (.r 0x0C 0x06 f)
  | .fneg f => some (.r 0x0C 0x07 f)
  | .fcmpeq f => some (.r 0x0C 0x08 f)
  | .fcmplt f => some (.r 0x0C 0x09 f)
  | .fcmple f => some (.r 0x0C 0x0A f)
  | .fcvtif f => some (.r 0x0C 0x0B f)
  | .fcvtfi f => some (.r 0x0C 0x0C f)
  | .fclass f => some (.r 0x0C 0x0D f)
  | .br f => some (.b f)
  | .brLong f => some (.bl f)
  | .jmp f => some (.j 0x0E f)
  | .jmpLit f => some (.jl 0x0E f)
  | .call f => some (.j 0x0F f)
  | .callLit f => some (.jl 0x0F f)
  | .jr f => some (.r 0x10 0x00 f)
  | .callr f => some (.r 0x10 0x01 f)
  | .nop f => some (.r 0x11 0x00 f)
  | .safept f => some (.r 0x11 0x01 f)
  | .trap f => some (.r 0x11 0x02 f)
  | .tret f => some (.r 0x11 0x03 f)
  | .bkpt f => some (.r 0x11 0x04 f)
  | .mfs f => some (.r 0x11 0x05 f)
  | .mts f => some (.r 0x11 0x06 f)
  | .rdtime f => some (.r 0x11 0x07 f)
  | .getid f => some (.r 0x11 0x08 f)
  | .ld f => some (.m 0x12 f)
  | .ldLit f => some (.ml 0x12 f)
  | .st f => some (.m 0x13 f)
  | .stLit f => some (.ml 0x13 f)
  | .ldAcq f => some (.m 0x14 f)
  | .ldAcqLit f => some (.ml 0x14 f)
  | .stRel f => some (.m 0x15 f)
  | .stRelLit f => some (.ml 0x15 f)
  | .pfetch f => some (.r 0x16 0x00 f)
  | .l1inv f => some (.r 0x16 0x01 f)
  | .waitv f => some (.r 0x16 0x02 f)
  | .amoadd f => some (.r 0x17 (0#4 ++ f.ord) { st := f.st, d := f.d, a := f.a, b := f.b })
  | .amoand f => some (.r 0x17 (1#4 ++ f.ord) { st := f.st, d := f.d, a := f.a, b := f.b })
  | .amoor f => some (.r 0x17 (2#4 ++ f.ord) { st := f.st, d := f.d, a := f.a, b := f.b })
  | .amoxor f => some (.r 0x17 (3#4 ++ f.ord) { st := f.st, d := f.d, a := f.a, b := f.b })
  | .amomin f => some (.r 0x17 (4#4 ++ f.ord) { st := f.st, d := f.d, a := f.a, b := f.b })
  | .amomax f => some (.r 0x17 (5#4 ++ f.ord) { st := f.st, d := f.d, a := f.a, b := f.b })
  | .amominu f => some (.r 0x17 (6#4 ++ f.ord) { st := f.st, d := f.d, a := f.a, b := f.b })
  | .amomaxu f => some (.r 0x17 (7#4 ++ f.ord) { st := f.st, d := f.d, a := f.a, b := f.b })
  | .amoswap f => some (.r 0x17 (8#4 ++ f.ord) { st := f.st, d := f.d, a := f.a, b := f.b })
  | .amocas f => some (.r 0x17 (9#4 ++ f.ord) { st := f.st, d := f.d, a := f.a, b := f.b })
  | .amofadd f => some (.r 0x17 (10#4 ++ f.ord) { st := f.st, d := f.d, a := f.a, b := f.b })
  | .amoamax f => some (.r 0x17 (11#4 ++ f.ord) { st := f.st, d := f.d, a := f.a, b := f.b })
  | .fenceC f => some (.r 0x18 0x00 f)
  | .fenceK f => some (.r 0x18 0x01 f)
  | .fenceP f => some (.r 0x18 0x02 f)
  | .fenceS f => some (.r 0x18 0x03 f)
  | .vadd f => some (.x 0x19 0x00 f)
  | .vsub f => some (.x 0x19 0x01 f)
  | .vmul f => some (.x 0x19 0x02 f)
  | .vmulh f => some (.x 0x19 0x03 f)
  | .vmad f => some (.x 0x19 0x04 f)
  | .vmacw f => some (.x 0x19 0x05 f)
  | .vdot4 f => some (.x 0x19 0x06 f)
  | .vmin f => some (.x 0x19 0x07 f)
  | .vmax f => some (.x 0x19 0x08 f)
  | .vabs f => some (.x 0x19 0x09 f)
  | .vand f => some (.x 0x19 0x0A f)
  | .vor f => some (.x 0x19 0x0B f)
  | .vxor f => some (.x 0x19 0x0C f)
  | .vshli f => some (.x 0x19 0x0D f)
  | .vshri f => some (.x 0x19 0x0E f)
  | .vsrai f => some (.x 0x19 0x0F f)
  | .vrshr f => some (.x 0x19 0x10 f)
  | .vfadd f => some (.x 0x1A 0x00 f)
  | .vfsub f => some (.x 0x1A 0x01 f)
  | .vfmul f => some (.x 0x1A 0x02 f)
  | .vffma f => some (.x 0x1A 0x03 f)
  | .vfmin f => some (.x 0x1A 0x04 f)
  | .vfmax f => some (.x 0x1A 0x05 f)
  | .vld f => some (.x 0x1B 0x00 f)
  | .vst f => some (.x 0x1B 0x01 f)
  | .vsplat f => some (.x 0x1C 0x00 f)
  | .vsplatLit f => some (.xl 0x1C 0x00 f)
  | .vperm f => some (.x 0x1C 0x01 f)
  | .vpermLit f => some (.xl 0x1C 0x01 f)
  | .vslide f => some (.x 0x1C 0x02 f)
  | .vred f => some (.x 0x1C 0x03 f)
  | .vsel f => some (.x 0x1C 0x04 f)
  | .vcmp f => some (.x 0x1C 0x05 f)
  | .kand f => some (.x 0x1C 0x10 f)
  | .kor f => some (.x 0x1C 0x11 f)
  | .knot f => some (.x 0x1C 0x12 f)
  | .kmov f => some (.x 0x1C 0x13 f)
  | .kmovImm f => some (.x 0x1C 0x13 f)
  | .vfcvt f => some (.x 0x1D 0x00 f)
  | .vnarrow f => some (.x 0x1D 0x01 f)
  | .vwiden f => some (.x 0x1D 0x02 f)
  | .srcp f => some (.x 0x1E 0x00 f)
  | .srsq f => some (.x 0x1E 0x01 f)
  | .sexp2 f => some (.x 0x1E 0x02 f)
  | .slog2 f => some (.x 0x1E 0x03 f)
  | .ssin f => some (.x 0x1E 0x04 f)
  | .scos f => some (.x 0x1E 0x05 f)
  | .stanh f => some (.x 0x1E 0x06 f)
  | .ssigm f => some (.x 0x1E 0x07 f)
  | .stbind f => some (.x 0x1F 0x00 f)
  | .stend f => some (.x 0x1F 0x01 f)
  | .chbind f => some (.x 0x1F 0x02 f)
  | .chend f => some (.x 0x1F 0x03 f)
  | .mxldw f => some (.x 0x20 0x00 f)
  | .mxswap f => some (.x 0x20 0x01 f)
  | .mxq f => some (.x 0x20 0x02 f)
  | .mxwaitv f => some (.x 0x20 0x03 f)
  | .mxwaitvReg f => some (.x 0x20 0x03 f)
  | .mxdrain f => some (.x 0x20 0x04 f)
  | .mxdrainCe f => some (.x 0x20 0x04 f)
  | .mxzero f => some (.x 0x20 0x05 f)
  | .mxzeroLd f => some (.x 0x20 0x05 f)
  | .mxcb f => some (.x 0x20 0x06 f)
  | .scacc f => some (.x 0x20 0x07 f)
  | .mxstat f => some (.x 0x20 0x08 f)
  | .normref f => some (.x 0x20 0x09 f)
  | .normrd f => some (.x 0x20 0x0A f)
  | .send f => some (.x 0x21 0x00 f)
  | .mbwait f => some (.x 0x21 0x01 f)
  | .mbread f => some (.x 0x21 0x02 f)
  | .mbset f => some (.x 0x21 0x03 f)
  | .hclaim f => some (.x 0x21 0x04 f)
  | .hwait f => some (.x 0x21 0x05 f)
  | .hfree f => some (.x 0x21 0x06 f)
  | .hstat f => some (.x 0x21 0x07 f)
  | .gather f => some (.x 0x22 0x00 f)
  | .nzscan f => some (.x 0x22 0x01 f)
  | .rscat f => some (.x 0x23 0x00 f)
  | .vdec f => some (.x 0x23 0x01 f)
  | .gmadd f => some (.x 0x24 0x00 f)
  | .gmaddJ f => some (.x 0x24 0x00 f)
  | .gmsub f => some (.x 0x24 0x01 f)
  | .gmsubJ f => some (.x 0x24 0x01 f)
  | .gmschur f => some (.x 0x24 0x02 f)
  | .gmdamp f => some (.x 0x24 0x03 f)
  | .gmsend f => some (.x 0x24 0x04 f)
  | .gmpoll f => some (.x 0x24 0x05 f)
  | .gmmean f => some (.x 0x24 0x06 f)
  | .start f => some (.x 0x25 0x00 f)
  | .startR f => some (.x 0x25 0x00 f)
  | .reap f => some (.x 0x25 0x01 f)
  | .exit f => some (.x 0x25 0x02 f)
  | .resole f => some (.x 0x25 0x03 f)
  | .launch f => some (.x 0x25 0x04 f)
  | .migrate f => some (.x 0x25 0x05 f)
  | .yield f => some (.x 0x25 0x06 f)
  | .rdvinit f => some (.x 0x26 0x00 f)
  | .arrive f => some (.x 0x26 0x01 f)
  | .rdvwait f => some (.x 0x26 0x02 f)
  | .rdvwaitPhase f => some (.x 0x26 0x02 f)
  | .fixedLatencyWrite => none
  | .interlockedResult => none
  | .stallDistanceEnd => none
  | .yieldEnd => none
  | .homeAccess => none
  | .storeAck => none
  | .l1Fill => none
  | .waitvPoll => none
  | .streamPrefetch => none
  | .channelWordDelivery => none
  | .channelCreditReturn => none
  | .engineQueueAccept => none
  | .taskStart => none
  | .swapStart => none
  | .codebookLoadStart => none
  | .drainStart => none
  | .zeroStart => none
  | .fillStart => none
  | .scaleStart => none
  | .entryCompletion => none
  | .sfuServiceStart => none
  | .sfuCompletion => none
  | .transferAccept => none
  | .lockMessageArrival => none
  | .gateRequest => none
  | .tokenGrant => none
  | .tokenArrival => none
  | .tokenExpiry => none
  | .packetLanding => none
  | .notifyLatchDrain => none
  | .lastSourceRead => none
  | .sendDone => none
  | .cxlTransferFailure => none
  | .gatherRowFetch => none
  | .gatherCompletion => none
  | .rscatCompletion => none
  | .vdecCommandStart => none
  | .frameLanding => none
  | .decodeBatchEnd => none
  | .gmsendLanding => none
  | .rendezvousArrival => none
  | .arriveResponse => none
  | .phaseUpdate => none
  | .rdvinitAtHome => none
  | .cloadRefresh => none
  | .migrationSend => none
  | .migrationReservation => none
  | .migrationLanding => none
  | .remoteLoadMove => none
  | .guestLanding => none
  | .guestReturn => none
  | .guestHomeLanding => none
  | .resoleScrub => none
  | .resoleSuccessorStart => none
  | .pitchRelease => none
  | .releaseScrubDone => none
  | .placement => none
  | .saveRoutineStart => none
  | .preemptHwSave => none
  | .preemptTimeout => none
  | .restoreHwWriteback => none
  | .pageWalk => none
  | .tlbMissRetry => none
  | .instructionFetchDone => none
  | .portRcb => none
  | .portLaunch => none
  | .portPreempt => none
  | .portKill => none
  | .portWriteDone => none
  | .artCtrlWrite => none
  | .invalidatePage => none
  | .invalidateRange => none
  | .invalidateRegion => none
  | .invalidateAll => none
  | .invalidationDone => none
  | .multicastCommit => none
  | .commitAck => none
  | .resync => none
  | .resyncDone => none
  | .attestationQuote => none
  | .moduleReset => none
  | .bootStage => none
  | .governorWindow => none
  | .patrolScrub => none
  | .gtcSync => none
  | .laneSample => none
  | .flitReceive => none
  | .e2eTimeout => none
  | .fabricPacketDelivery => none
  | .registerWrite => none
  | .illegalEncoding _ => none
  | .linkRetryTimeout => none
  | .cxlLinkDrop => none
  | .cxlLinkReturn => none

/-- The words of an instruction, from the formats of R46 to R51 and the opcode map of R56 and R57. -/
def encode (i : Instr) : List W32 :=
  match i.layout with
  | some l => l.words
  | none => []

/-- The major opcode of an instruction, for TSTATUS.MAJ (R26) and the feature bit (R56). -/
def Instr.major (i : Instr) : BitVec 6 :=
  match encode i with
  | w0 :: _ => majField w0
  | [] => 0

/-- The feature bit that an instruction requires (R56): by its major, and bit 4 for NORMREF and NORMRD. -/
def Instr.feature (i : Instr) : Nat :=
  match i with
  | .normref _ => 4
  | .normrd _ => 4
  | _ =>
    match i.major.toNat with
    | 0x19 | 0x1A | 0x1B | 0x1C | 0x1D | 0x1F => 1
    | 0x1E => 2
    | 0x20 => 3
    | 0x21 => 5
    | 0x22 => 6
    | 0x23 => 7
    | 0x24 => 8
    | _ => 0

/-- Four little-endian bytes as a word (R10, R46). -/
def wordOfBytes (b0 b1 b2 b3 : Byte) : W32 := b3 ++ b2 ++ b1 ++ b0

/-- A word as four little-endian bytes (R10). -/
def bytesOfWord (w : W32) : List Byte :=
  [w.extractLsb' 0 8, w.extractLsb' 8 8, w.extractLsb' 16 8, w.extractLsb' 24 8]

/-- The words of a list of bytes (R46). -/
def wordsOfBytes : List Byte → List W32
  | b0 :: b1 :: b2 :: b3 :: bs => wordOfBytes b0 b1 b2 b3 :: wordsOfBytes bs
  | _ => []

/-- The first instruction of a list of bytes: word 0 gives the length by its LEN field (R46). -/
def decodeBytes (bs : List Byte) : Option Instr :=
  match wordsOfBytes bs with
  | [] => none
  | w0 :: ws => if ws.length + 1 < wordCount w0 then none else decode (w0 :: ws.take (wordCount w0 - 1))

/-- The five words of an instruction given as one number, bit 0 the lowest bit of word 0. -/
def tableWords (w : Nat) : List W32 :=
  [BitVec.ofNat 32 w, BitVec.ofNat 32 (w / 2 ^ 32), BitVec.ofNat 32 (w / 2 ^ 64), BitVec.ofNat 32 (w / 2 ^ 96),
   BitVec.ofNat 32 (w / 2 ^ 128)]

/-- The bytes of an instruction given as one number of nbits bits; every bit above them is 0. -/
def tableBytes (nbits w : Nat) : List Byte := (tableWords (w % 2 ^ nbits)).flatMap bytesOfWord

/-- The instruction that the decoder reads from the bits of an opcode-table row. -/
def decodeTableWord (nbits w : Nat) : Option Instr := decodeBytes (tableBytes nbits w)

end Sys2Proof
end

