-- ==== Sys2Proof/Machine/Time.lean ====
section
/-!
DEFINITION. Time: cycles, turns and GTC ticks (R2, R5, R15), and which entry of the agenda comes first.
-/
namespace Sys2Proof.Machine

namespace State

/-- The module at a later cycle: the GTC keeps its rate of 1 GHz whatever the clock is (R5, R7); below 0 the remainder
counts ticks that are repeated (R290). -/
def advanceTo (s : State) (c : Nat) : State :=
  let t := s.gtcRem + ((c - s.cycle) * 1000 : Nat)
  let n := (t / s.mhz).toNat
  { s with cycle := max s.cycle c, gtc := s.gtc + BitVec.ofNat 64 n, gtcRem := t - n * s.mhz }

/-- The cycle in which something is due, as the state stands: a turn of a core falls where its turns put it if no
further turn is stretched (R15, R24); a GTC value where the clock reaches it (R7). -/
def dueCycle (s : State) : Due → Nat
  | .cycle n => n
  | .turn cid n => let c := s.core cid; c.nextCycle + (n - c.turn)
  | .gtc v => s.cycle + (((((v - s.gtc.toNat) * s.mhz : Nat) : Int) - s.gtcRem).toNat + 999) / 1000

/-- What is due at turn n of a core, where its turns are counted, or at a cycle (R90, R221): a count of turns of a
deterministic group, and a free delay otherwise. -/
def dueIn (s : State) (cid : Nat) (det : Bool) (turns : Nat) : Due × State :=
  if det then (.turn cid ((s.core cid).turnAt s.cycle + turns), s)
  else let d := s.delay; (.cycle (s.cycle + d.1), d.2)

/-- The due time of something that is due at a turn of a core. -/
def atTurn (s : State) (cid turns : Nat) : Due := .turn cid ((s.core cid).turnAt s.cycle + turns)

/-- The key by which the agenda is ordered: cycle, then place in the cycle. -/
def eventKey (s : State) (e : Event) : Nat × Nat := (max s.cycle (s.dueCycle e.due), e.rank)

/-- Lexicographic order of keys. -/
def keyLt (a b : Nat × Nat) : Bool := decide (a.1 < b.1) || (a.1 == b.1 && decide (a.2 < b.2))

/-- The first entry of an agenda with its key; of equal keys the one put there first. -/
def firstEvent (s : State) : List Event → Option (Event × (Nat × Nat))
  | [] => none
  | e :: es =>
    match s.firstEvent es with
    | some (e', k') => if keyLt k' (s.eventKey e) then some (e', k') else some (e, s.eventKey e)
    | none => some (e, s.eventKey e)

/-- The core whose turn comes first with its key, among the cores that take turns. -/
def firstTurn : Tab Core → Option (Nat × (Nat × Nat))
  | [] => none
  | (cid, c) :: cs =>
    match firstTurn cs with
    | some (d, k) => if c.on && !keyLt k (c.nextCycle, turnRank cid) then some (cid, (c.nextCycle, turnRank cid)) else some (d, k)
    | none => if c.on then some (cid, (c.nextCycle, turnRank cid)) else none

/-- The agenda without the first copy of an entry. -/
def dropEvent (s : State) (e : Event) : State := { s with agenda := s.agenda.erase e }

/-- The GTC as a die reads it (R5). -/
def gtcOf (s : State) (die : Nat) : BitVec 64 := s.gtc + BitVec.ofNat 64 (Config.gtcSkew die).val

end State

/-- A count of cycles of the module's own machinery with no promised length: it is due after a free delay (R90). -/
def State.unclocked (s : State) (rank : Nat) (ins : Instr) (obj : Obj := {}) : State :=
  let d := s.delay
  d.2.schedule (.cycle (s.cycle + d.1)) rank ins obj

end Sys2Proof.Machine
end

