-- ==== Sys2Proof/Machine/Access.lean ====
section
/-!
DEFINITION. From an address to a home: windows (R81), the checks of an access (R82 to R86), translation (R263 to R265),
placement (R266 to R268), regions' effective values (R251), and memory errors (R91, R280 to R282).
-/
namespace Sys2Proof.Machine

/-- Why an instruction does not complete in its turn. -/
inductive Stop where
  /-- It traps (R25). -/
  | trap (t : TrapInfo)
  /-- Its context is held and nothing of it is performed (R19). -/
  | hold
  /-- A TLB miss: its context waits for the walk, and the instruction issues again (R270, R271). -/
  | miss (va : Word)
  /-- A load whose home lies on another module moves its context there (R215). -/
  | depart (node addr : Nat)
  /-- A guest first returns home (R217). -/
  | goHome
  deriving DecidableEq, Repr

/-! ### Effective values of a region (R251) -/

/-- The chain of a region and its ancestors, nearest first, by RCB address. -/
def State.lineage (s : State) (rcb : Nat) : Nat → List (Nat × Region)
  | 0 => []
  | n + 1 =>
    match tfind s.regions rcb with
    | some r => (rcb, r) :: (if r.parent = 0 then [] else s.lineage r.parent n)
    | none => []

def State.ancestry (s : State) (rcb : Nat) : List (Nat × Region) := s.lineage rcb (s.regions.length + 1)

/-- The first value of a chain that is not the inherit value, or the root default. -/
def inherit_ (chain : List (Nat × Region)) (f : Region → Nat) (inh dflt : Nat) : Nat :=
  match chain with
  | [] => dflt
  | (_, r) :: rest => if f r = inh then inherit_ rest f inh dflt else f r

/-- The effective PRIO: the smaller of the own value and the parent's. -/
def effPrioOf : List (Nat × Region) → Nat
  | [] => 0
  | [(_, r)] => if r.prio = 0xFF then 0 else r.prio
  | (_, r) :: rest => if r.prio = 0xFF then effPrioOf rest else Nat.min r.prio (effPrioOf rest)

namespace State

def effPrio (s : State) (rcb : Nat) : Nat := effPrioOf (s.ancestry rcb)
def effCeil (s : State) (rcb : Nat) : Nat := inherit_ (s.ancestry rcb) (·.ceil) 0xFF 63
def effFdom (s : State) (rcb : Nat) : Nat := inherit_ (s.ancestry rcb) (·.fdom) 0 1
def effPtroot (s : State) (rcb : Nat) : Nat := inherit_ (s.ancestry rcb) (·.ptroot) 0 0
def effBivouac (s : State) (rcb : Nat) : Nat := inherit_ (s.ancestry rcb) (·.bivouac) 0 0
def effFramesz (s : State) (rcb : Nat) : Nat := inherit_ (s.ancestry rcb) (·.framesz) 0 0
def effBivn (s : State) (rcb : Nat) : Nat := inherit_ (s.ancestry rcb) (·.bivn) 0xFFFF 0
def effFabtok (s : State) (rcb : Nat) : Nat := inherit_ (s.ancestry rcb) (·.fabtok) 0xFFFF 0
def effUnsched (s : State) (rcb : Nat) : Nat := inherit_ (s.ancestry rcb) (·.unsched) 0xFF 2
def effMinshare (s : State) (rcb : Nat) : Nat := inherit_ (s.ancestry rcb) (·.minshare) 0xFFFF 0
def effPto (s : State) (rcb : Nat) : Nat := inherit_ (s.ancestry rcb) (·.pto) 0 1048576
def effEvbase (s : State) (rcb : Nat) : Nat := inherit_ (s.ancestry rcb) (·.evbase) 0 0
def effAudthr (s : State) (rcb : Nat) : Nat := inherit_ (s.ancestry rcb) (·.audthr.toNat) 0xFFFFFFFF 0
/-- MODEB of the nearest region that does not inherit it. -/
def effModeb (s : State) (rcb : Nat) : BitVec 8 :=
  BitVec.ofNat 8 (inherit_ (s.ancestry rcb) (fun r => if r.modeb.getLsbD 7 then 0x80 else r.modeb.toNat) 0x80 0)
/-- NODEMAP: all zero inherits. -/
def effNodemap (s : State) (rcb : Nat) : BitVec 1024 :=
  BitVec.ofNat 1024 (inherit_ (s.ancestry rcb) (·.nodemap.toNat) 0 0)
/-- Whether one region is another or an ancestor of it (R166, R194). -/
def isAncestor (s : State) (anc rcb : Nat) : Bool := (s.ancestry rcb).any fun p => p.1 == anc

/-- The settings that MODE reports for a group of a region (R78, R9). -/
def modeBits (s : State) (rcb : Nat) (task : Bool) : ModeBits :=
  let m := s.effModeb rcb
  { det := m.getLsbD 0, gov := m.getLsbD 1 && !m.getLsbD 0, sbchk := m.getLsbD 2, task := task }

end State

/-! ### The physical map and placement (R266 to R268, R274, R276) -/

def hbmTop : Nat := 0xEE6B280000
def cxlBase : Nat := 0x4000000000000
def fabricBase : Nat := 0x8000000000000

/-- A physical address in a data window (R266). -/
def inDataWindow (pa : Nat) : Bool := decide (pa < hbmTop) || (decide (cxlBase ≤ pa) && decide (pa < 2 ^ 52))

/-- The default hash (R267): slice and channel offset. -/
def defaultPlace (pa : Nat) : Nat × Nat :=
  let l := pa / 256
  (((l % 1024) ^^^ (l / 2 ^ 10 % 1024) ^^^ (l / 2 ^ 20 % 1024) ^^^ (l / 2 ^ 30 % 1024) ^^^ (l / 2 ^ 40 % 16)),
   256 * (l / 1024) + pa % 256)

/-- The fields of an address-range table entry's CTRL (R268). -/
def ArtEntry.valid (e : ArtEntry) : Bool := e.ctrl.getLsbD 31
def ArtEntry.slog (e : ArtEntry) : Nat := (e.ctrl.extractLsb' 20 4).toNat
def ArtEntry.nlog (e : ArtEntry) : Nat := (e.ctrl.extractLsb' 16 4).toNat
def ArtEntry.first (e : ArtEntry) : Nat := (e.ctrl.extractLsb' 0 10).toNat

/-- The slice and channel offset that an entry gives (R268). -/
def ArtEntry.place (e : ArtEntry) (pa : Nat) : Nat × Nat :=
  let o := pa - e.base.toNat
  let u := 8 + e.slog
  (e.first + (o / 2 ^ u) % 2 ^ e.nlog, e.choff.toNat + (o / 2 ^ (u + e.nlog)) * 2 ^ u + o % 2 ^ u)

/-- The lowest-numbered valid entry whose range holds the address, or the default hash (R267). -/
def artPlace (pa : Nat) : Tab ArtEntry → Nat × Nat
  | [] => defaultPlace pa
  | (_, e) :: r =>
    if e.valid && decide (e.base.toNat ≤ pa) && decide (pa < e.base.toNat + e.size.toNat) then e.place pa else artPlace pa r

/-- The home and storage place of an HBM address by the table of a die (R267, R268), die 0's for the scheduler, the Welt and the
link dies (log 63); places of one slice are 10^9 apart. -/
def State.hbmLoc (s : State) (pa : Nat) (die : Nat := 0) : Loc :=
  let p := artPlace pa (s.die die).art
  { home := .slice p.1, addr := p.1 * 1000000000 + p.2, pa := pa }

/-- The home of a physical address (R84, R235, R276). -/
def State.paLoc (s : State) (pa : Nat) (die : Nat := 0) : Loc :=
  if pa < hbmTop then s.hbmLoc pa die
  else if pa < fabricBase then { home := .slice (defaultPlace pa).1, addr := pa, pa := pa, tier := true }
  else
    let node := pa / 2 ^ 41 % 1024
    let a := pa % 2 ^ 41
    if node = s.node ∧ a < hbmTop then { s.hbmLoc a die with pa := a } else { home := .node node, addr := a, pa := pa }

/-! ### Translation (R263 to R265) -/

/-- The page-table index of a level (R263). -/
def vaIndex (va : Nat) (lvl : Nat) : Nat :=
  match lvl with
  | 1 => va / 2 ^ 42 % 2 ^ 13
  | 2 => va / 2 ^ 29 % 2 ^ 13
  | _ => va / 2 ^ 16 % 2 ^ 13

/-- Bytes of an HBM or CXL place. -/
def State.readPlace (s : State) (addr n : Nat) : List Byte := s.mem.bytes addr n

/-- The place of a page-table entry of a table, and the entry (R264). -/
def State.pteLoc (s : State) (t lvl va die : Nat) : Loc := s.hbmLoc (t + 8 * vaIndex va lvl) die
def State.pte (s : State) (t lvl va die : Nat) : Nat := leNat (s.readPlace (s.pteLoc t lvl va die).addr 8)

/-- The walk from a level downwards, by a die (R265): none where it fails. -/
def State.walkFrom (s : State) (region va die t : Nat) (lvl : Nat) : Nat → Option TlbEntry
  | 0 => none
  | fuel + 1 =>
    if hbmTop ≤ t then none else
    let e := s.pte t lvl va die
    let leaf := e / 2 % 2 == 1
    let ppn := e / 2 ^ 16 % 2 ^ 36
    if e % 2 = 0 ∨ e / 2 ^ 52 ≠ 0 ∨ e / 2 ^ 6 % 2 ^ 10 ≠ 0 then none
    else if leaf then
      if lvl = 1 then none
      else if lvl = 2 ∧ ppn % 2 ^ 13 ≠ 0 then none
      else
        let size := if lvl = 2 then 2 ^ 29 else 2 ^ 16
        let pa := ppn * 2 ^ 16
        if !inDataWindow (pa + va % size) then none
        else some { region := region, va := va / size * size, size := size, pa := pa
                    w := e / 4 % 2 == 1, x := e / 8 % 2 == 1, cls := e / 16 % 4 }
    else if lvl = 3 then none
    else s.walkFrom region va die (ppn * 2 ^ 16) (lvl + 1) fuel

/-- The places that the walk reads. -/
def State.walkPlaces (s : State) (va die t : Nat) (lvl : Nat) : Nat → List Loc
  | 0 => []
  | fuel + 1 =>
    if hbmTop ≤ t then [] else
    let e := s.pte t lvl va die
    s.pteLoc t lvl va die :: if e % 4 = 1 ∧ lvl ≠ 3 then s.walkPlaces va die (e / 2 ^ 16 % 2 ^ 36 * 2 ^ 16) (lvl + 1) fuel else []

/-- The entry of a TLB that maps an address of a region (R270). -/
def tlbLookup (t : List TlbEntry) (region va : Nat) : Option TlbEntry :=
  t.find? fun e => e.region == region && e.va == va / e.size * e.size

/-- A TLB with an entry put in or used: it stands first, and the least recently used is dropped at its capacity (R270). -/
def tlbInsert (t : List TlbEntry) (cap : Nat) (e : TlbEntry) : List TlbEntry :=
  (e :: t.filter fun e' => !(e'.region == e.region && e'.va == e.va && e'.size == e.size)).take cap

/-! ### Windows (R81) -/

inductive Window where
  | malformed
  | scratch (off : Nat)
  | peer (field off : Nat)
  | global (va : Nat)
  deriving DecidableEq, Repr

/-- The window of an address (R81): offsets from 0x6_0000 and core fields from 0x800 to 0xFFE are malformed. -/
def windowOf (a : Word) : Window :=
  let n := a.toNat
  if n / 2 ^ 56 ≠ 0 then .malformed
  else if n / 2 ^ 55 % 2 = 1 then
    if n / 2 ^ 31 % 2 ^ 24 ≠ 0 then .malformed
    else
      let field := n / 2 ^ 19 % 2 ^ 12
      let off := n % 2 ^ 19
      if 0x800 ≤ field ∧ field ≠ 0xFFF then .malformed
      else if 0x60000 ≤ off then .malformed
      else .peer field off
  else if n < 0x80000 then (if 0x60000 ≤ n then .malformed else .scratch n)
  else .global n

/-! ### Range locks (R86, R233) -/

/-- Whether a range meets a lock of the scratchpad of a core of the cluster. -/
def Lock.hitsScratch (l : Lock) (cid off size : Nat) : Bool :=
  !l.global && l.core == coreField cid && decide (l.base < off + size) && decide (off < l.base + l.len)

/-- Whether a range of virtual addresses of a region meets a lock. -/
def Lock.hitsGlobal (l : Lock) (regid va size : Nat) : Bool :=
  l.global && l.region == regid % 2 ^ 16 && decide (l.base < va + size) && decide (va < l.base + l.len)

/-- A lock refuses an access: a write lock only a write, and no lock an access of the cycle of its take (R233). -/
def Lock.refuses (l : Lock) (write : Bool) (now : Nat) : Bool := (write || l.full) && decide (l.since < now)

def State.regid (s : State) (region : Nat) : Nat :=
  match tfind s.regions region with
  | some r => r.regid
  | none => 0

/-- An access to a scratchpad that a range lock refuses. -/
def State.scratchLocked (s : State) (cid off size : Nat) (write : Bool) : Bool :=
  (s.cluster (clusterOf cid)).locks.any fun l => l.refuses write s.cycle && l.hitsScratch cid off size

/-- A global access of a core that a range lock of its cluster refuses. -/
def State.globalLocked (s : State) (cid region va size : Nat) (write : Bool) : Bool :=
  (s.cluster (clusterOf cid)).locks.any fun l => l.refuses write s.cycle && l.hitsGlobal (s.regid region) va size

/-! ### Memory errors (R91, R280 to R282) -/

/-- The first and last ECC words of a range, as keys of the error lists: storage number of R280 and address. -/
def eccWords (storage unit addr size : Nat) : List (Nat × Nat) :=
  (List.range ((addr + size - 1) / unit - addr / unit + 1)).map fun i => (storage, (addr / unit + i) * unit)

/-- The ECC words under a place. -/
def eccOf (l : Loc) (size : Nat) : List (Nat × Nat) :=
  match l.home with
  | .scratch cid => eccWords 2 16 (cid * 2 ^ 19 + l.addr) size
  | _ => if l.tier then [] else eccWords 1 32 l.addr size

/-- The die that keeps the counters of a place (R282). -/
def dieOfEcc (k : Nat × Nat) : Nat :=
  if k.1 = 1 then k.2 / 1000000000 / 128 else if k.1 = 3 then k.2 / 2 ^ 52 / 256 else if k.1 = 4 then k.2 / 2 ^ 26 else k.2 / 2 ^ 19 / 256

/-- The address a record of the ring carries: the physical address, or the scratchpad offset with the CID in bits
[63:53] (R282). -/
def eccAddress (k : Nat × Nat) (pa : Nat) : Nat :=
  if k.1 = 1 ∨ k.1 = 3 then pa else if k.1 = 4 then k.2 else (k.2 / 2 ^ 19) * 2 ^ 53 + k.2 % 2 ^ 19

/-- A memory-error record (R282). -/
def State.errorRecord (s : State) (k : Nat × Nat) (pa source kind : Nat) : List Byte :=
  leBytes 8 s.gtc.toNat ++ leBytes 2 source ++ leBytes 1 kind ++ leBytes 1 k.1 ++ leBytes 4 0
    ++ leBytes 8 (eccAddress k pa) ++ leBytes 8 0

/-- The physical address of an ECC word of HBM under a place. -/
def wordPa (l : Loc) (k : Nat × Nat) : Nat := l.pa + k.2 - l.addr

/-- GTC and source of a memory-error record. -/
def recordKey (r : List Byte) : Nat × Nat := (leNat (r.take 8), leNat ((r.drop 8).take 2))

/-- A record put into a ring, newest first: in order of GTC, and of source where that is equal (R5, R290). -/
def ringPut (r : List Byte) : List (List Byte) → List (List Byte)
  | [] => [r]
  | x :: xs => if (recordKey x).1 = (recordKey r).1 ∧ (recordKey r).2 < (recordKey x).2 then x :: ringPut r xs else r :: x :: xs

/-- The counters and the ring of the die raised by one error (R282): kind 1 correctable, 2 transient, 3 lasting. -/
def State.logError (s : State) (k : Nat × Nat) (pa source kind : Nat) : State :=
  s.modDie (dieOfEcc k) fun d =>
    { d with
      cecnt := if kind = 1 then d.cecnt + 1 else d.cecnt
      trcnt := if kind = 2 then d.trcnt + 1 else d.trcnt
      lacnt := if kind = 3 then d.lacnt + 1 else d.lacnt
      ring := ((ringPut (s.errorRecord k pa source kind) d.ring.reverse).take 64).reverse }

/-- A read meets the errors of its ECC words (R91, R280): a correctable one is corrected in what is returned, and logged; a
transient one is logged and gone at the retry; of a lasting one the read says so. -/
def State.eccRead (s : State) (l : Loc) (size source : Nat) : Bool × State :=
  (eccOf l size).foldl (fun (acc : Bool × State) k =>
    if acc.2.lasting.contains k then (true, acc.2.logError k (wordPa l k) source 3)
    else if acc.2.transient.contains k then
      (acc.1, { (acc.2.logError k (wordPa l k) source 2) with transient := acc.2.transient.erase k })
    else if acc.2.correctable.contains k then (acc.1, acc.2.logError k (wordPa l k) source 1)
    else acc) (false, s)

/-- Whether a read would meet a lasting error. -/
def State.lastingAt (s : State) (l : Loc) (size : Nat) : Bool := (eccOf l size).any s.lasting.contains

/-- A walk meets a lasting error in an entry that it reads (R280). -/
def State.walkErrs (s : State) (region va die : Nat) : Bool :=
  s.lasting != [] && (s.walkPlaces va die (s.effPtroot region) 1 3).any fun l => s.lastingAt l 8

/-- The walk of a virtual address in the tables of a region, by a die (R265). -/
def State.walk (s : State) (region : Nat) (va : Nat) (die : Nat := 0) : Option TlbEntry :=
  let root := s.effPtroot region
  if root = 0 ∧ (s.ancestry region).all (fun p => p.2.ptroot == 0) then none
  else if s.walkErrs region va die then none
  else s.walkFrom region va die root 1 3

/-- The cause of an access whose walk has failed: XLATE, or MEMERR where an entry has a lasting error (R265, R281, log 63). -/
def State.walkCause (s : State) (region va die : Nat) : Cause := if s.walkErrs region va die then .memerr else .xlate

/-- The key of the first byte of a place, and the bytes of its ECC words. -/
def Loc.eccKey (l : Loc) : Nat × Nat × Nat :=
  match l.home with
  | .scratch cid => (2, 16, cid * 2 ^ 19 + l.addr)
  | _ => (1, 32, l.addr)

/-- A write reaches every byte of an ECC word: those of consecutive bytes that are enabled. -/
def coversWord (at_ unit : Nat) (bs : List (Byte × Bool)) (word : Nat) : Bool :=
  decide (at_ ≤ word) && decide (word + unit ≤ at_ + bs.length) && ((bs.drop (word - at_)).take unit).all (·.2)

/-- An error of an ECC word ends when a write replaces every byte of it (R91, R280). -/
def mendOf (k : Nat × Nat × Nat) (bs : List (Byte × Bool)) (bad : List (Nat × Nat)) : List (Nat × Nat) :=
  bad.filter fun w => !(w.1 == k.1 && coversWord k.2.2 k.2.1 bs w.2)

/-- The errors that a write of enabled bytes ends. -/
def State.mend (s : State) (l : Loc) (bs : List (Byte × Bool)) : State :=
  if l.tier then s
  else { s with lasting := mendOf l.eccKey bs s.lasting, transient := mendOf l.eccKey bs s.transient
                correctable := mendOf l.eccKey bs s.correctable }

/-- No ECC word of the module has an error. -/
def State.errorFree (s : State) : Bool := s.lasting == [] && s.transient == [] && s.correctable == []

/-- The expander behind an address of the CXL tier does not serve it: its link is down, it has no capacity there, or it
answers with an error (R275). -/
def State.tierLost (s : State) (pa : Nat) : Bool :=
  s.cxlDown.contains ((pa - cxlBase) / 2 ^ 47) || s.lasting.contains (6, pa / 256 * 256)

/-! ### The L2 (R269) -/

/-- The least recently used line that a test accepts, taken out of a set. -/
def dropLast (p : L2Line → Bool) : List L2Line → List L2Line
  | [] => []
  | x :: xs => if p x && !xs.any p then xs else x :: dropLast p xs

/-- The ways that a class may hold in a set (R269). -/
def quotaOf (quota : Word) (c : Nat) : Nat := quota.toNat / 32 ^ c % 32

/-- A set in which a line has been used by an access of a class: a hit comes first; a fill chooses its victim, and a class
with quota 0 allocates nothing (R269). -/
def l2Use (quota : Word) (line c : Nat) (xs : List L2Line) : List L2Line :=
  let held := fun (c : Nat) => (xs.filter fun x => x.cls == c).length
  match xs.find? fun x => x.line == line with
  | some x => x :: xs.filter fun y => y.line != line
  | none =>
    let q := quotaOf quota c
    if q = 0 then xs
    else
      let victim : L2Line → Bool := fun x => if q ≤ held c then x.cls == c else quotaOf quota x.cls < held x.cls
      let kept :=
        if held c < q ∧ xs.length < 16 then xs
        else if xs.any victim then dropLast victim xs else dropLast (fun _ => true) xs
      { line := line, cls := c } :: kept

/-- An access performed at a slice uses its line there: of 256 bytes by channel offset, in one of 256 sets (R1, R267, log 63). -/
def State.useL2 (s : State) (l : Loc) : State :=
  match l.home with
  | .slice g =>
    let line := l.addr / 256
    let k := 256 * g + line % 256
    { s with l2 := tset s.l2 k (l2Use s.quota line l.cls (tget s.l2 k [])) }
  | _ => s

/-- The entries that a walk of a die reads: their errors are met, and their lines used as general ones (R269, R280). -/
def State.noteWalk (s : State) (region va die source : Nat) : State :=
  (s.walkPlaces va die (s.effPtroot region) 1 3).foldl (fun s l => ((s.eccRead l 8 source).2).useL2 l) s

/-! ### The checks of an access (R82) -/

/-- What an access does, for its checks. -/
inductive Access where
  | load | store
  /-- An AMO: a store and a load, not accepted by the CXL tier; a WAITV: a load that the tier refuses (R274, R93). -/
  | amo | watch
  /-- A stream word, a task operand or an MXLDW row: no move for another module, and no tier (R215, R274). -/
  | engineRead
  /-- A range that an engine or transfer instruction loads: no move for another module (R127, R134, R215). -/
  | bulkLoad
  /-- The destination of a SEND, which the tier and other modules accept (R166, R274). -/
  | sendDest
  deriving DecidableEq, Repr

def Access.writes : Access → Bool
  | .store | .amo | .sendDest => true
  | _ => false

/-- A home on another module. -/
def Home.isNode : Home → Bool
  | .node _ => true
  | _ => false

/-- The tier accepts loads, VLD and pointer reads only (R274). -/
def Access.tierOk : Access → Bool
  | .load | .bulkLoad | .sendDest => true
  | _ => false

/-- A trap of an access (R82, R26). -/
def accessTrap (c : Cause) (a : Word) (use : Nat) (k : Access) : Stop :=
  .trap { cause := c, tval := a, use := use, write := k.writes }

/-- Whether the walk for this page has failed (R265). -/
def Slot.walkFailed (x : Slot) (va : Nat) : Bool :=
  match x.walked with
  | some w => w.toNat / 2 ^ 16 == va / 2 ^ 16
  | none => false

/-- A core's record of a translation used. -/
def State.touchTlb (s : State) (cid : Nat) (e : TlbEntry) : State :=
  s.modCore cid fun c => { c with tlb := tlbInsert c.tlb 32 e }

/-- The instruction at PC issues again after a walk. -/
def Slot.again (x : Slot) : Bool := x.walked.isSome || !x.trans.isEmpty

/-- In a deterministic group the accesses of one instruction miss together, each with its own 4,608 turns (R271). -/
def Slot.walkedTogether (x : Slot) : Bool := x.again && x.mode.det && !x.guest

/-- The translation that a context has for an address: in its core's TLB, or brought by a walk of the same instruction. -/
def State.translation (s : State) (cid : Nat) (x : Slot) (va : Nat) : Option TlbEntry :=
  ((tlbLookup (s.core cid).tlb x.region va).orElse fun _ => tlbLookup x.trans x.region va).orElse
    fun _ => if x.walkedTogether then s.walk x.region va (dieOf cid) else none

/-- The checks that R82 makes at the issuing core, in its order.  PEER_GONE, and RANGE_LOCK and MEMERR of another home,
are checked when the access arrives there (R82, R83). -/
def checkPlace (s : State) (cid : Nat) (x : Slot) (a : Word) (size use : Nat) (k : Access) : Except Stop (Loc × State) :=
  match windowOf a with
  | .malformed => .error (accessTrap .xlate a use k)
  | .scratch off =>
    if x.guest then .error .goHome
    else if s.scratchLocked cid off size k.writes then .error (accessTrap .rangeLock a use k)
    else .ok ({ home := .scratch cid, addr := off }, s)
  | .peer field off =>
    if x.guest then .error .goHome else
    let target := if field = 0xFFF then x.home else field
    if target = cid then
      if s.scratchLocked cid off size k.writes then .error (accessTrap .rangeLock a use k)
      else .ok ({ home := .scratch cid, addr := off }, s)
    else .ok ({ home := .scratch target, addr := off }, s)
  | .global va =>
    match s.translation cid x va with
    | none =>
      if x.walkFailed va || x.walkedTogether then .error (accessTrap (s.walkCause x.region va (dieOf cid)) a use k) else .error (.miss a)
    | some e =>
      let pa := e.pa + va % e.size
      let l : Loc := { s.paLoc pa (dieOf cid) with cls := e.cls }
      if k.writes ∧ !e.w then .error (accessTrap .perm a use k)
      else if l.tier ∧ !k.tierOk then .error (accessTrap .perm a use k)
      else if l.home.isNode && (k == .watch || k == .engineRead || k == .bulkLoad) then
        .error (accessTrap .perm a use k)
      else if s.globalLocked cid x.region va size k.writes then .error (accessTrap .rangeLock a use k)
      else .ok (l, s.touchTlb cid e)

/-- The checks of an access, its natural alignment first (R82). -/
def checkAccess (s : State) (cid : Nat) (x : Slot) (a : Word) (size use : Nat) (k : Access) : Except Stop (Loc × State) :=
  if a.toNat % size ≠ 0 then .error (accessTrap .align a use k) else checkPlace s cid x a size use k

/-- The scope of a home (R88): 0 core, 1 cluster, 2 package, 3 system. -/
def scopeOf (cid : Nat) : Home → Nat
  | .scratch h => if h = cid then 0 else if clusterOf h = clusterOf cid then 1 else 2
  | .slice _ => 2
  | .node _ => 3

/-! ### Latency classes (R90, R221) -/

/-- The turns to the arrival of a store and to the value of a load, for an access of a deterministic group; none where
the access is unclocked (R221). -/
def latency (cid : Nat) (l : Loc) : Option (Nat × Nat) :=
  match l.home with
  | .scratch h =>
    if h = cid then some (0, 6)
    else if clusterOf h = clusterOf cid then some (16, 32)
    else if dieOf h = dieOf cid then some (64, 128)
    else some (192, 384)
  | .slice g => if l.tier then none else if g / 128 = dieOf cid then some (512, 1024) else some (768, 1536)
  | .node _ => none

end Sys2Proof.Machine
end

