-- ==== Sys2Proof/Machine/Walks.lean ====
section
/-!
DEFINITION. The walkers of a die and its miss queue (R270).  What goes on with the result of a walk is the object of a PAGE_WALK:
for a context a = cid, b = slot, v = its serial; for a prefetch ok, a = cid, b = slot, v = address, c = 1 where an invalidation of
the L1 has discarded its line; for a word of a stream a = cid, b = word, c = port + 1, v = address.
-/
namespace Sys2Proof.Machine
namespace State

/-- Two misses are of one page of one region. -/
def samePage (m n : Miss) : Bool := m.region == n.region && m.page == n.page

/-- The misses of a queue that no walker has. -/
def queued (ms : List Miss) : Nat := (ms.filter fun m => !m.started).length

/-- Free walkers take the misses of a queue in arrival order: a die has 32 (R270). -/
def startWalkers (s : State) (d : Nat) : Nat → State
  | 0 => s
  | fuel + 1 =>
    let ms := (s.die d).misses
    match ms.find? fun m => !m.started with
    | none => s
    | some m =>
      if 32 ≤ ms.length - queued ms then s
      else
        let s := s.modDie d fun x => { x with misses := x.misses.map fun n => if n.id == m.id then { n with started := true } else n }
        let cid := match m.who with | o :: _ => o.a | [] => 256 * d
        (s.unclocked (rankOf cid) .pageWalk { a := d, b := m.id, off := 1 }).startWalkers d fuel

/-- A miss joins the walk of its page, or waits in the queue of its die; one that finds it full is retried (R270). -/
def queueMiss (s : State) (d : Nat) (m : Miss) : State :=
  let x := s.die d
  let join := fun (ms : List Miss) => ms.map fun n => if samePage n m then { n with who := n.who ++ m.who } else n
  if (x.misses ++ x.overflow).any (samePage m) then s.modDie d fun x => { x with misses := join x.misses, overflow := join x.overflow }
  else if x.overflow.isEmpty && decide (queued x.misses < 4096) then
    (s.modDie d fun x => { x with misses := x.misses ++ [m] }).startWalkers d 32
  else
    let s := s.modDie d fun x => { x with overflow := x.overflow ++ [m] }
    if x.overflow.isEmpty then s.schedule (.cycle (s.cycle + 1)) 0 .tlbMissRetry { a := d } else s

/-- A core-TLB miss: the die's TLB is looked in, and a miss there needs a walk (R270). -/
def missed (s : State) (region va : Nat) (o : Obj) : State :=
  let d := dieOf o.a
  if (tlbLookup (s.die d).tlb region va).isSome then s.unclocked (rankOf o.a) .pageWalk o
  else
    let f := s.fresh
    f.2.queueMiss d { id := f.1, region := region, page := va / 2 ^ 16, who := [o] }

/-- The misses that have found the queue full enter it while it has room, in their order (R270). -/
def retryMisses (s : State) (d : Nat) : Nat → State
  | 0 => s
  | fuel + 1 =>
    let x := s.die d
    match x.overflow with
    | [] => s
    | m :: ms =>
      if queued x.misses < 4096 then
        ((s.modDie d fun x => { x with misses := x.misses ++ [m], overflow := ms }).startWalkers d 32).retryMisses d fuel
      else s.schedule (.cycle (s.cycle + 1)) 0 .tlbMissRetry { a := d }

/-- The walks that an invalidation meets end, their results discarded, and their misses walk again (R272, R273). -/
def restartWalks (s : State) (gone : TlbEntry → Bool) : State :=
  s.dies.foldl (fun s p =>
    let hit := fun (m : Miss) => m.started && gone
      { region := m.region, va := m.page * 2 ^ 16, size := 2 ^ 16, pa := 0, w := false, x := false, cls := 0 }
    let s := (p.2.misses.filter hit).foldl (fun s m =>
      let f := s.fresh
      f.2.modDie p.1 fun x => { x with misses := x.misses.map fun n => if n.id == m.id then { n with id := f.1, started := false } else n }) s
    s.startWalkers p.1 32) s

/-- Objects of walks that are under way changed. -/
def mapWalks (s : State) (f : Obj → Obj) : State :=
  let each := fun (ms : List Miss) => ms.map fun m => { m with who := m.who.map f }
  { s with
    agenda := s.agenda.map fun e => if e.ins == .pageWalk && e.obj.off == 0 then { e with obj := f e.obj } else e
    dies := s.dies.map fun p => (p.1, { p.2 with misses := each p.2.misses, overflow := each p.2.overflow }) }

end State
end Sys2Proof.Machine
end

