-- ==== Sys2Proof/Machine/Home.lean ====
section
/-!
DEFINITION. What happens at a home and at a core when bytes, results and words arrive: workspace registers (R224), the
L1 (R85), channels (R119), stale norm slices (R148), WAITV watches (R93, R246), and the per-peer error bits (R99).
-/
namespace Sys2Proof.Machine

/-! ### Workspaces (R224) -/

/-- Offsets from WP of the control words (R224). -/
def wsQ (n : Nat) : Nat := 256 + 16 * n
def wsP (n : Nat) : Nat := 512 + 8 * n
def wsK (n : Nat) : Nat := 616 + 2 * n
def wsRnd : Nat := 576
def wsSeed : Nat := 584
def wsGctl : Nat := 592
def wsTval : Nat := 600
def wsTretpc : Nat := 608
def wsTcause : Nat := 632
def wsTstatus : Nat := 634

namespace State

/-- The bytes in which the registers of a slot live and their base: the core's scratchpad at WP, or the guest frame
(R13, R216). -/
def wsMem (s : State) (cid i : Nat) : Mem × Nat :=
  let x := s.slot cid i
  if x.guest then (x.frame, 0) else ((s.core cid).sp, i * 0x400)

/-- A word of a workspace: n bytes at an offset from WP. -/
def wsRead (s : State) (cid i off n : Nat) : Nat :=
  let m := s.wsMem cid i
  leNat (m.1.bytes (m.2 + off) n)

/-- A register result written: those of sixteen bytes that the mask enables.  A whole ECC word replaced is mended (R280). -/
def wsWrite (s : State) (cid i off : Nat) (data : VWord) (mask : BitVec 16) : State :=
  if (s.slot cid i).guest then
    s.modSlot cid i fun x => { x with frame := x.frame.writeMasked off (maskedBytes data mask) }
  else
    let s := s.modCore cid fun c => { c with sp := c.sp.writeMasked (i * 0x400 + off) (maskedBytes data mask) }
    if s.errorFree then s else s.mend { home := .scratch cid, addr := i * 0x400 + off } (maskedBytes data mask)

/-- Scalar, vector and predicate registers of a slot (R18, R224). -/
def wreg (s : State) (cid i n : Nat) : Word := BitVec.ofNat 64 (s.wsRead cid i (8 * n) 8)
def qreg (s : State) (cid i n : Nat) : VWord := BitVec.ofNat 128 (s.wsRead cid i (wsQ n) 16)
def preg (s : State) (cid i n : Nat) : Word := BitVec.ofNat 64 (s.wsRead cid i (wsP n) 8)
def kreg (s : State) (cid i n : Nat) : BitVec 16 := BitVec.ofNat 16 (s.wsRead cid i (wsK n) 2)
def word64 (s : State) (cid i off : Nat) : Word := BitVec.ofNat 64 (s.wsRead cid i off 8)
def word16 (s : State) (cid i off : Nat) : BitVec 16 := BitVec.ofNat 16 (s.wsRead cid i off 2)

/-! ### Contexts by serial -/

/-- Where a context is: its slot if it is still there, or wherever it has moved. -/
def findSerial (s : State) (serial : Nat) : Option (Nat × Nat) :=
  s.cores.findSome? fun p =>
    (p.2.slots.find? fun q => q.2.live && q.2.serial == serial).map fun q => (p.1, q.1)

/-- The slot a response is for: the slot it came from if the context is still there, else where it has moved. -/
def ownerOf (s : State) (cid i serial : Nat) : Option (Nat × Nat) :=
  let x := s.slot cid i
  if x.live && x.serial == serial then some (cid, i) else s.findSerial serial

/-- A per-peer error bit of a context set (R99): while a FENCE.S waits, a failure that is not of a store it waits for
is kept for a later fence (R100). -/
def setPeerError (s : State) (cid i serial node : Nat) (ofStore : Bool) : State :=
  match s.ownerOf cid i serial with
  | none => s
  | some (c, j) =>
    s.modSlot c j fun x =>
      match x.wait with
      | .fence sc d bm true late =>
        if ofStore then { x with perr := x.perr ||| BitVec.twoPow 1024 node }
        else { x with wait := .fence sc d bm true (late ||| BitVec.twoPow 1024 node) }
      | _ => { x with perr := x.perr ||| BitVec.twoPow 1024 node }

/-- What goes to a node is refused: the node is unreachable (R286), or it is the own node, which is named so only for an
address beyond its HBM (R276). -/
def refusesAll (s : State) (node : Nat) : Bool := s.unreachable.contains node || node == s.node

/-- The turn of a core that was idle in this cycle and belongs to a slot is taken back: what ends a wait in a turn of the
waiting context's own slot counts as lying before that turn (R246, which says so of WAITV). -/
def reopenTurn (s : State) (cid i : Nat) : State :=
  let c := s.core cid
  if c.idleAt = some s.cycle ∧ (c.turn - 1) % 16 = i then
    s.setCore cid { c with turn := c.turn - 1, nextCycle := s.cycle, idleAt := none }
  else s

/-- A context ready again at its next own turn (R16, R219). -/
def wake (s : State) (cid i : Nat) : State :=
  (s.modSlot cid i fun x => { x with wait := .ready, own := true, ins := none }).reopenTurn cid i

/-- USTORE of a context (R77, R89, R184): its stores not yet acknowledged. -/
def ustore (s : State) (serial : Nat) : Nat :=
  (s.net.filter fun m => (m.kind == .store || m.kind == .gmsend) && m.serial == serial).length

/-- Its stores not yet acknowledged whose home lies in a scope, one that waits for them set aside (R88, R98). -/
def unackedIn (s : State) (serial scope : Nat) (except : Nat := 0) : Nat :=
  (s.net.filter fun m => (m.kind == .store || m.kind == .gmsend) && m.serial == serial && m.id != except
    && decide (m.scope ≤ scope)).length

/-! ### The L1 data cache (R85, R240) -/

def lineOf (pa : Nat) : Nat := pa / 128 * 128

/-- The line of a physical address. -/
def l1Get (s : State) (cid pa : Nat) : Option (BitVec 1024) :=
  ((s.core cid).l1.find? fun l => l.pa == lineOf pa).map (·.data)

/-- Prefetches of a core that still wait for their walk (R92, R271): those that a test of their address names bring no line. -/
def dropPrefetches (s : State) (cid : Nat) (hit : Obj → Bool) : State :=
  s.mapWalks fun o => if o.ok && o.a == cid && hit o then { o with c := 1 } else o

/-- Every line of a core invalidated, and the fills in flight discarded on arrival. -/
def l1Clear (s : State) (cid : Nat) : State :=
  let s := s.modCore cid fun c => { c with l1 := [] }
  let s := { s with net := s.net.map fun (m : Msg) => if m.cid == cid then { m with keepLine := false } else m }
  s.dropPrefetches cid fun _ => true

/-- The line that holds an address invalidated. -/
def l1Drop (s : State) (cid pa : Nat) : State :=
  let s := s.modCore cid fun c => { c with l1 := c.l1.filter fun l => l.pa != lineOf pa }
  let s := { s with net := s.net.map fun (m : Msg) =>
      if m.cid == cid && lineOf m.loc.pa == lineOf pa then { m with keepLine := false } else m }
  s.dropPrefetches cid fun o =>
    match s.walk (s.slot cid o.b).region o.v.toNat (dieOf cid) with
    | some e => lineOf (s.paLoc (e.pa + o.v.toNat % e.size) (dieOf cid)).pa == lineOf pa
    | none => false

/-- Bytes of a 128-byte line written. -/
def lineWrite (d : BitVec 1024) (off : Nat) : List (Byte × Bool) → BitVec 1024
  | [] => d
  | (b, on) :: r =>
    let d' := if on then (d &&& ~~~ ((0xFF#1024) <<< (8 * off))) ||| ((b.setWidth 1024) <<< (8 * off)) else d
    lineWrite d' (off + 1) r

/-- The n bytes of a line. -/
def lineBytes (d : BitVec 1024) (off n : Nat) : List Byte := (List.range n).map fun i => d.extractLsb' (8 * (off + i)) 8

/-- A store of the core within one line writes through to it if it is present, and if it is on its way (R85, R239). -/
def l1Store (s : State) (cid pa : Nat) (bs : List (Byte × Bool)) : State :=
  let s := s.modCore cid fun c =>
    { c with l1 := c.l1.map fun l => if l.pa == lineOf pa then { l with data := lineWrite l.data (pa % 128) bs } else l }
  { s with net := s.net.map fun m =>
      match m.line with
      | some d => if m.cid == cid && lineOf m.loc.pa == lineOf pa then { m with line := some (lineWrite d (pa % 128) bs) } else m
      | none => m }

/-- A longer store, in parts of 16 bytes (R100). -/
def l1StoreLong (s : State) (cid pa : Nat) (bs : List (Byte × Bool)) : Nat → State
  | 0 => s
  | n + 1 => (s.l1Store cid pa (bs.take 16)).l1StoreLong cid (pa + 16) (bs.drop 16) n

/-- A line put into the L1: 12 ways in a set of 256 (log 8), the victim of a full set open but the same in every run of a
deterministic group (R85, R222). -/
def l1Insert (s : State) (cid pa : Nat) (d : BitVec 1024) : State :=
  let c := s.core cid
  let old := c.l1.filter fun l => l.pa != lineOf pa
  let inSet := old.filter fun l => l.pa / 128 % 256 == pa / 128 % 256
  let kept :=
    if inSet.length < 12 then old
    else match inSet[Config.l1Victim c.rank c.fills % 12]? with
      | some v => old.erase v
      | none => old
  s.setCore cid { c with l1 := { pa := lineOf pa, data := d } :: kept, fills := c.fills + 1 }

/-! ### Channels (R119, R221) -/

/-- Whether the words of a binding travel on the clock: a deterministic sender and a core of its own group (R221). -/
def channelClocked (s : State) (cid : Nat) (b : Binding) : Bool :=
  match s.group? (s.core cid).gid with
  | some g => g.mode.det && b.gid == (s.core cid).gid
  | none => false

/-- The turns from a core to another: the store-arrival count of the class (R90). -/
def arrivalTurns (cid h : Nat) : Nat :=
  match latency cid { home := .scratch h, addr := 0 } with
  | some p => p.1
  | none => 0

/-- Words on their way to an inbound queue. -/
def wordsTo (s : State) (cid ch : Nat) : Nat :=
  s.cores.foldl (fun n p => p.2.chans.foldl (fun n q =>
    match q.2.bound with
    | some b => if b.cid = cid ∧ b.remote = ch then n + q.2.flight.length else n
    | none => n) n) 0

/-- The sender of a binding counts a free place in the remote inbound queue (R119, R221): not taken by a word there or on
its way, nor freed by a pop that it does not know of. -/
def placeFor (s : State) (c : Chan) (b : Binding) : Bool :=
  decide ((s.chan b.cid b.remote).inq.length + s.wordsTo b.cid b.remote + c.unknown < 8)

/-- Words leave an outbound queue in push order, each once it has been written, while the sender counts a free place in
the remote inbound queue (R119, R221). -/
def pump (s : State) (cid ch : Nat) : Nat → State
  | 0 => s
  | fuel + 1 =>
    let c := s.chan cid ch
    match c.bound, c.out with
    | some b, w :: rest =>
      if w.word.isSome && s.placeFor c b then
        let s := s.modChan cid ch fun c => { c with out := rest, flight := c.flight ++ [w] }
        let obj : Obj := { a := cid, b := ch, c := c.binds }
        let s :=
          if b.cid = cid then s.schedule (.cycle s.cycle) (rankOf cid) .channelWordDelivery obj
          else
            let d := s.dueIn cid (s.channelClocked cid b) (arrivalTurns cid b.cid)
            d.2.schedule d.1 (rankOf cid) .channelWordDelivery obj
        pump s cid ch fuel
      else s
    | _, _ => s

/-- The senders bound to an inbound queue: core and channel. -/
def senders (s : State) (cid ch : Nat) : List (Nat × Nat) :=
  s.cores.flatMap fun p => (p.2.chans.filter fun q =>
    match q.2.bound with | some b => b.cid == cid && b.remote == ch | none => false).map fun q => (p.1, q.1)

/-- The word of a push written into its place, and what can then leave (R119). -/
def fillPlace (s : State) (cid ch seq : Nat) (v : Word) : State :=
  let s := s.modChan cid ch fun c =>
    { c with out := c.out.map fun w => if w.seq == seq then { w with word := some v } else w }
  s.pump cid ch 8

/-- A place withdrawn: the push of an instruction that traps when its response arrives (R25). -/
def withdrawPlace (s : State) (d : Dest) (cid : Nat) : State :=
  match d with
  | .place ch seq => (s.modChan cid ch fun c => { c with out := c.out.filter fun w => w.seq != seq }).pump cid ch 8
  | _ => s

/-! ### Swizzles and norm slices (R146, R148, R228) -/

end State

/-- Units in a row and rows in a block of a swizzle code (R228). -/
def swizzleShape : Nat → Nat × Nat
  | 1 => (4, 4)
  | 2 => (4, 8)
  | 3 => (8, 8)
  | 4 => (8, 16)
  | _ => (1, 0)

/-- The place of the byte at a logical offset of a buffer of a length (R228): a final block that is not filled is plain. -/
def swizzlePlace (k len o : Nat) : Nat :=
  let sh := swizzleShape k
  let block := 16 * sh.1 * sh.2
  if block = 0 ∨ len < (o / block + 1) * block then o
  else
    let j := o % block / 16
    let r := j / sh.1
    let c := j % sh.1
    o / block * block + 16 * (sh.1 * r + (c + r) % sh.1) + o % 16

/-- The logical offset of the byte at a place. -/
def swizzleLogical (k len o : Nat) : Nat :=
  let sh := swizzleShape k
  let block := 16 * sh.1 * sh.2
  if block = 0 ∨ len < (o / block + 1) * block then o
  else
    let j := o % block / 16
    let r := j / sh.1
    let c := j % sh.1
    o / block * block + 16 * (sh.1 * r + (c + sh.1 * sh.2 - r) % sh.1) + o % 16

/-- The fields of a norm descriptor (R146). -/
structure NormShape where
  pitch : Nat
  nr : Nat
  etype : Nat
  orient : Bool
  width : Nat
  slices : Nat
  deriving DecidableEq, Repr

def normShape (d : Word) : NormShape :=
  { pitch := 16 * (d.toNat / 2 ^ 44), nr := d.toNat / 2 ^ 32 % 2 ^ 7, etype := d.toNat / 2 ^ 16 % 16
    orient := d.getLsbD 15, width := 2 ^ (d.toNat / 2 ^ 12 % 8), slices := d.toNat % 2 ^ 12 + 1 }

/-- The bytes of an element of types 10 to 13 (R146). -/
def NormShape.elem (n : NormShape) : Nat := if n.etype ≤ 11 then 2 else 1

/-- The slice to which the byte at a logical offset belongs (R146); padding belongs to none. -/
def NormShape.sliceOf (n : NormShape) (o : Nat) : Option Nat :=
  if n.pitch = 0 then none else
  let row := o / n.pitch
  let col := o % n.pitch
  if n.orient then (if row < n.slices * n.width ∧ col < 32 * n.elem then some (row / n.width) else none)
  else (if row < n.nr ∧ col < n.slices * n.width * n.elem then some (col / (n.width * n.elem)) else none)

namespace State

def normEntry (s : State) (cid k : Nat) : NormEntry := tget (s.core cid).norms k {}
def setNorm (s : State) (cid k : Nat) (e : NormEntry) : State := s.modCore cid fun c => { c with norms := tset c.norms k e }

/-- The slices that the bytes at logical offsets of a handle reach. -/
def slicesAt (n : NormTab) (os : List Nat) : List Nat := (os.filterMap (normShape n.desc).sliceOf).eraseDups

/-- The logical offsets of written scratchpad bytes within a handle, as its swizzle maps them. -/
def handleOffsets (h : Handle) (offs : List Nat) : List Nat :=
  (offs.filter fun o => decide (h.base ≤ o) && decide (o < h.base + h.len)).map fun o =>
    swizzleLogical (if h.swz = 0xFF then 0 else h.swz) h.len (o - h.base)

/-- Slices of a handle made stale (R148). -/
def makeStale (s : State) (cid : Nat) (n : NormTab) (ks : List Nat) : State :=
  ks.foldl (fun s k => s.setNorm cid (n.first + k) { s.normEntry cid (n.first + k) with stale := true }) s

/-- What one write that is no landing into a handle does to a handle whose range it meets (R148): the slices it reaches,
through the swizzle as it stands before the write, become stale, and it records swizzle 0. -/
def markHandle (s : State) (cid : Nat) (offs : List Nat) (p : Nat × Handle) : State :=
  let h := p.2
  let os := handleOffsets h offs
  if h.state == .free || os.isEmpty then s else
  let s := match h.norm with
    | some n => s.makeStale cid n (slicesAt n os)
    | none => s
  if h.swz = 0 then s else s.setHandle cid p.1 { h with swz := 0xFF }

/-- One write of scratchpad bytes marks every handle that it meets. -/
def markWrite (s : State) (cid : Nat) (offs : List Nat) : State := (s.core cid).hs.foldl (fun s p => s.markHandle cid offs p) s

/-- The places of those of consecutive bytes that are enabled. -/
def writtenAt (off : Nat) (bs : List (Byte × Bool)) : List Nat :=
  (bs.zipIdx.filter fun p => p.1.2).map fun p => off + p.2

/-! ### WAITV (R93, R246) -/

/-- Bytes at a home. -/
def readLoc (s : State) (l : Loc) (n : Nat) : List Byte :=
  match l.home with
  | .scratch cid => (s.core cid).sp.bytes l.addr n
  | .slice _ => s.mem.bytes l.addr n
  | .node _ => List.replicate n 0

/-- The next turn of a slot that its core has not yet begun. -/
def nextOwnTurn (s : State) (cid i : Nat) : Nat :=
  let n := (s.core cid).turn
  n + (i + 16 - n % 16) % 16

/-- The end of a WAITV: its context goes on at its first own turn, and d is written then; the line of its word is not in the
L1 (R85, R93, R246). -/
def endWatch (s : State) (c i : Nat) (m : Msg) (v : Word) : State :=
  let s := (s.dropMsg m.id).wake c i
  let s := match m.loc.home with
    | .slice _ => s.l1Drop c m.loc.pa
    | _ => s
  let n := s.nextOwnTurn c i
  let p : Pend := { due := n, slot := i, dest := m.dest, data := v.setWidth 128, mask := lowMask 8 }
  (s.modCore c fun x => { x with pend := x.pend ++ [p] }).schedule (.turn c n) (rankOf c) .fixedLatencyWrite { a := c }

/-- A parked WAITV re-reads its word: if it differs from b the wait ends (R93, R246). -/
def rereadWatch (s : State) (m : Msg) : State :=
  match s.ownerOf m.cid m.slot m.serial with
  | none => s.dropMsg m.id
  | some (c, i) =>
    let v := BitVec.ofNat 64 (leNat (s.readLoc m.loc 8))
    if v = m.expect then s
    else if (s.slot c i).wait = .watch m.id then s.endWatch c i m v
    else s.modMsg m.id fun m => { m with resp := some (.value (v.setWidth 128)), watching := false }

/-- The WAITVs that watch a word which a write has reached re-read it (R246). -/
def wakeWatches (s : State) (home : Home) (addr size : Nat) : State :=
  (s.net.filter fun m => m.kind == .watch && m.watching && m.loc.home == home
    && decide (m.loc.addr < addr + size) && decide (addr < m.loc.addr + 8)).foldl rereadWatch s

/-! ### Register results (R18, R224) -/

/-- A result written to a register of a slot: a write of workspace bytes, which a WAITV may watch (R224, R246). -/
def regWrite (s : State) (cid i off : Nat) (data : VWord) (mask : BitVec 16) : State :=
  let s := s.wsWrite cid i off data mask
  if (s.slot cid i).guest then s else s.wakeWatches (.scratch cid) (i * 0x400 + off) 16

def setWord64 (s : State) (cid i off : Nat) (v : Word) : State := s.regWrite cid i off (v.setWidth 128) (lowMask 8)
def setWord16 (s : State) (cid i off : Nat) (v : BitVec 16) : State := s.regWrite cid i off (v.setWidth 128) (lowMask 2)

/-- A scalar result that arrives: written to its register or its place (R18, R119). -/
def deliver (s : State) (cid : Nat) (d : Dest) (v : Word) : State :=
  match d with
  | .reg i off => s.regWrite cid i off (v.setWidth 128) (lowMask 8)
  | .place ch seq => s.fillPlace cid ch seq v
  | _ => s

/-! ### Writes at a home -/

/-- Whether a byte of a scratchpad was written by a fixed-latency write of the turn in which a store is performed: the
store counts as performed before it (R22). -/
def overruled (s : State) (cid off : Nat) : Bool :=
  let c := s.core cid
  c.wrote.contains off && c.wroteTurn == c.turnAt s.cycle

/-- A store performed at a scratchpad: the bytes, the marks of R148, and the watches it wakes.  A landing into a handle
makes its own marks. -/
def storeScratch (s : State) (cid off : Nat) (bs : List (Byte × Bool)) (marks : Bool := true) : State :=
  let bs' := bs.zipIdx.map fun p => (p.1.1, p.1.2 && !s.overruled cid (off + p.2))
  let s := if marks then s.markWrite cid (writtenAt off bs) else s
  let s := s.modCore cid fun c => { c with sp := c.sp.writeMasked off bs' }
  let s := if s.errorFree then s else s.mend { home := .scratch cid, addr := off } bs
  s.wakeWatches (.scratch cid) off bs.length

/-- A write performed at its home on this module. -/
def storeLoc (s : State) (l : Loc) (bs : List (Byte × Bool)) (marks : Bool := true) : State :=
  match l.home with
  | .scratch cid => s.storeScratch cid l.addr bs marks
  | .slice _ =>
    let s := { s with mem := s.mem.writeMasked l.addr bs }.useL2 l
    let s := if s.errorFree then s else s.mend l bs
    s.wakeWatches l.home l.addr bs.length
  | .node _ => s

/-- One ECC word of a store: a part of it is merged with what the word holds, which meets the word's errors; where that one
is lasting, the part is not written (R91, R280). -/
def storeWord (l : Loc) (source : Nat) (acc : List (Byte × Bool) × State) (w : Nat × Nat) : List (Byte × Bool) × State :=
  let k := l.eccKey
  if coversWord k.2.2 k.2.1 acc.1 w.2 then acc
  else
    let first := w.2 - k.2.2
    let e := acc.2.eccRead { l with addr := l.addr + w.2 - k.2.2, pa := l.pa + w.2 - k.2.2 } 1 source
    (if e.1 then acc.1.zipIdx.map fun b => (b.1.1, b.1.2 && !(decide (first ≤ b.2) && decide (k.2.2 + b.2 < w.2 + k.2.1)))
     else acc.1, e.2)

/-- A store performed at its home on this module, ECC word by ECC word (R91). -/
def storeChecked (s : State) (l : Loc) (bs : List (Byte × Bool)) (source : Nat) (marks : Bool := true) : State :=
  if s.errorFree then s.storeLoc l bs marks
  else
    let r := ((eccOf l bs.length).filter fun w => (bs.zipIdx.any fun b =>
      b.1.2 && decide (w.2 ≤ l.eccKey.2.2 + b.2) && decide (l.eccKey.2.2 + b.2 < w.2 + l.eccKey.2.1))).foldl (storeWord l source) (bs, s)
    r.2.storeLoc l r.1 marks

end State

/-- All bytes of a list enabled. -/
def allOn (bs : List Byte) : List (Byte × Bool) := bs.map fun b => (b, true)

end Sys2Proof.Machine
end

