-- ==== Sys2Proof/Machine/Link.lean ====
section
/-!
DEFINITION. Grisia Link: nodes and paths (R284, R286), ports with their flits (R285, R288, R289), and packets on their way to
other modules.
-/
namespace Sys2Proof.Machine

/-! ### Nodes and paths (R284, R286) -/

/-- The coordinates of a node. -/
def nodePoint (n : Nat) : Nat × Nat × Nat :=
  if n < 961 then (1, n / 31, n % 31) else if n < 992 then (0, 1, n - 961) else (0, 0, 1)

/-- The node of coordinates that are not all 0 modulo 31. -/
def pointNode (p : Nat × Nat × Nat) : Nat :=
  let inv := fun x => x ^ 29 % 31
  let x := p.1 % 31
  let y := p.2.1 % 31
  let z := p.2.2 % 31
  if x ≠ 0 then 31 * (y * inv x % 31) + z * inv x % 31 else if y ≠ 0 then 961 + z * inv y % 31 else 992

/-- Two nodes are neighbours. -/
def neighbours (a b : Nat) : Bool :=
  let p := nodePoint a
  let q := nodePoint b
  a != b && (p.1 * q.1 + p.2.1 * q.2.1 + p.2.2 * q.2.2) % 31 == 0

/-- The node between two nodes that are no neighbours: their cross product. -/
def between (a b : Nat) : Nat :=
  let p := nodePoint a
  let q := nodePoint b
  let d := fun u v x y => u * v + (31 - x * y % 31)
  pointNode (d p.2.1 q.2.2 p.2.2 q.2.1, d p.2.2 q.1 p.1 q.2.2, d p.1 q.2.1 p.2.1 q.1)

/-- The neighbours of a node in ascending order: neighbour i is reached through ports 2i and 2i + 1. -/
def neighboursOf (a : Nat) : List Nat := (List.range 993).filter (neighbours a)

/-- The first hop of the minimal path between two nodes. -/
def firstHop (a b : Nat) : Nat := if neighbours a b then b else between a b

/-- Flits that a port may have sent and not yet had acknowledged: its credits and its retry buffer (R285, R288). -/
def Link.window (l : Link) : Nat := Nat.min 512 (if l.half then Config.creditWindow / 2 else Config.creditWindow)
def Link.credit (l : Link) : Nat := l.window - l.buffer.length - l.queue.length

/-- The flits of a payload. -/
def flitPayloads (bs : List Byte) : List (List Byte) :=
  (List.range ((bs.length + 239) / 240)).map fun i => (bs.drop (240 * i)).take 240

namespace State

def link (s : State) (p : Nat) : Link := tget s.links p {}
def setLink (s : State) (p : Nat) (l : Link) : State := { s with links := tset s.links p l }

/-- The reference node of the GTC: the lowest-numbered one that can be reached (R290). -/
def refNode (s : State) : Nat := ((List.range (s.node + 1)).find? fun n => !s.unreachable.contains n).getD s.node

/-- The neighbours that are reached through one of their ports. -/
def upNodes (s : State) : List Nat :=
  ((neighboursOf s.node).zipIdx.filter fun p => !(s.link (2 * p.2)).down || !(s.link (2 * p.2 + 1)).down).map (·.1)

/-- The first hops of the paths to a node, by their numbers: the minimal one (0), and eight others (R286). -/
def hops (s : State) (n : Nat) : List (Nat × Nat) :=
  (0, firstHop s.node n) :: (List.range 8).filterMap fun k =>
    let via := Config.routeVia s.resets n k % 993
    if via = s.node then none else some (k + 1, firstHop s.node via)

/-- A node has a path whose first hop is one of some nodes (R289). -/
def pathBy (s : State) (up : List Nat) (n : Nat) : Bool := n == s.node || (s.hops n).any fun h => up.contains h.2

/-- The ports of a neighbour that are up. -/
def portsTo (s : State) (hop : Nat) : List Nat :=
  let i := (neighboursOf s.node).idxOf hop
  [2 * i, 2 * i + 1].filter fun p => !(s.link p).down

/-- The free credit of a first hop. -/
def hopCredit (s : State) (hop : Nat) : Nat := (s.portsTo hop).foldl (fun n p => n + (s.link p).credit) 0

/-- The path of a packet at its injection (R286): the minimal one in a deterministic region while it is up, else the one of the
most free credit; one sent again takes another path where there is one. -/
def choosePath (s : State) (p : FabricPacket) (again : Bool) : Option (Nat × Nat) :=
  let open_ := (s.hops p.node).filter fun h => !(s.portsTo h.2).isEmpty
  let others := open_.filter fun h => h.1 != p.path
  let cs := if again && !others.isEmpty then others else open_
  match cs with
  | [] => none
  | c :: rest =>
    if p.det && c.1 == 0 then some c
    else some (rest.foldl (fun b h => if s.hopCredit b.2 < s.hopCredit h.2 then h else b) c)

/-- The port of a neighbour that takes the next packet: its two ports share the traffic in proportion to their widths (R288). -/
def portFor (s : State) (hop : Nat) : Option Nat :=
  let load := fun p => (s.link p).next * (if (s.link p).half then 2 else 1)
  match s.portsTo hop with
  | [] => none
  | p :: ps => some (ps.foldl (fun b q => if load q < load b then q else b) p)

/-- Waiting flits of a port leave while its retry buffer has room and there is credit (R285). -/
def pumpPort (s : State) (p : Nat) : Nat → State
  | 0 => s
  | fuel + 1 =>
    let l := s.link p
    match l.queue with
    | [] => s
    | f :: rest =>
      if l.window ≤ l.buffer.length then s
      else
        let f := { f with seq := l.next, half := l.half && decide (l.halfFrom ≤ l.next) }
        (s.setLink p { l with queue := rest, buffer := l.buffer ++ [f], next := l.next + 1 }).pumpPort p fuel

/-- The fields that the flits of a packet carry. -/
def packetFields (s : State) (p : FabricPacket) : List Nat :=
  [p.node, p.region, p.addr, p.seq, p.cid, p.slot, p.ref] ++
  match p.kind with
  | .access id => (match s.net.find? (fun m => m.id == id) with
    | some m => [m.size, m.data.toNat, m.mask.toNat, m.expect.toNat] ++ m.bytes.map (·.toNat)
    | none => [])
  | .transfer id => [id]
  | .context c => [c.pc.toNat, c.perr.toNat] ++ c.phases.flatMap (fun q => [q.1, q.2.toNat]) ++ (c.frame.bytes 0 640).map (·.toNat)
      ++ (match c.window with | some w => w.base.toNat :: w.words.flatMap fun q => [q.1, q.2.toNat] | none => [])
  | .store bs => bs.map fun b => b.1.toNat
  | .amo op d e => [op, d.toNat, e.toNat]
  | .message t => (match t.kind with | .send r => [r.dst, r.len] | _ => [])
  | .data n bs => n :: bs.map (·.toNat)
  | .answer r ok v => [r, ok.toNat, v.toNat]
  | .recall e => [e.toNat]

/-- The flits of a packet go to a port of its path. -/
def sendFlits (s : State) (p : FabricPacket) (again : Bool) : State :=
  match s.choosePath p again with
  | none => s
  | some (k, hop) =>
    let s := { s with fabric := s.fabric.map fun (q : FabricPacket) => if q.id == p.id then { q with path := k } else q }
    match s.portFor hop with
    | none => s
    | some port =>
      let l := s.link port
      let fs := (flitPayloads (Config.packetBytes (s.packetFields p))).map fun b =>
        ({ seq := 0, packet := p.id, half := false, bytes := b } : Flit)
      (s.setLink port { l with queue := l.queue ++ fs }).pumpPort port fs.length

/-- A packet for another module (R286): numbered, sent, and kept until it is acknowledged; a node without a path answers that it
has failed. -/
def inject (s : State) (p : FabricPacket) : Nat × State :=
  let f := s.fresh
  let key := p.node * 4096 + p.cid
  let p := { p with id := f.1, seq := tget s.fabOut key 0 }
  let s := { f.2 with fabric := f.2.fabric ++ [p], fabOut := tset f.2.fabOut key (p.seq + 1) }
  (p.id,
    if s.refusesAll p.node then s.unclocked (rankOf p.cid) .fabricPacketDelivery { a := p.id, ok := false }
    else (s.sendFlits p false).schedule (.gtc (s.gtc.toNat + 2 ^ 20)) (rankOf p.cid) .e2eTimeout { a := p.id })

/-- An answer to another module on its way; nothing is kept of it. -/
def sendAnswer (s : State) (node ref : Nat) (ok : Bool) (v : Word := 0) : State :=
  (s.sendFlits { id := 0, node := node, kind := .answer ref ok v, region := 0 } false)

/-! ### Ports (R285, R288, R289) -/

/-- A port goes down (R289): its flits are lost, and the packets whose flits its retry buffer holds are sent again at their
time-outs (R286). -/
def portDown (s : State) (p : Nat) : State :=
  let s := s.setLink p { s.link p with down := true, buffer := [], queue := [] }
  let up := s.upNodes
  { s with unreachable := (List.range 993).filter fun n => !s.pathBy up n }

/-- A flit has not come through: it is asked for again, and a port whose retries have failed 8 times in a row goes down. -/
def flitFails (s : State) (p : Nat) : State :=
  let l := s.link p
  if l.down then s
  else if 8 ≤ l.retries then s.portDown p
  else s.setLink p { l with retries := l.retries + 1 }

end State
end Sys2Proof.Machine
end

