-- ==== Sys2Proof/Machine/Mail.lean ====
section
/-!
DEFINITION. Mailbox tags, buffer handles and inbound queues as the landings, the units and the instructions change them
(R119, R162 to R165).
-/
namespace Sys2Proof.Machine
namespace State

/-! ### Mailbox tags (R162) -/

/-- The slots of a core in ascending order, folded over. -/
def eachSlot (s : State) (f : State → Nat → State) : State := (List.range 16).foldl f s

/-- A context parked in MBWAIT tests its tag; the wait ends by abandonment or by the count, with the status in d and the
L1 cleared. -/
def testMailbox (t cid : Nat) (s : State) (i : Nat) : State :=
  match (s.slot cid i).wait with
  | .mailbox t' e d =>
    let m := s.mailbox cid t
    if t' = t ∧ (s.slot cid i).live ∧ (m.abandon ≠ 0 ∨ e ≤ m.count) then
      ((s.deliver cid d (if m.abandon ≠ 0 then 1 else 0)).l1Clear cid).wake cid i
    else s
  | _ => s

/-- A tag changed, and the waits that its change ends. -/
def putMailbox (s : State) (cid t : Nat) (m : Mailbox) : State := (s.setMailbox cid t m).eachSlot (testMailbox t cid)

/-- COUNT and ABANDON saturate and never wrap. -/
def mbCount (s : State) (cid t : Nat) : State :=
  let m := s.mailbox cid t
  s.putMailbox cid t { m with count := Nat.min (m.count + 1) 0xFFFFFFFF }
def mbAbandon (s : State) (cid t : Nat) : State :=
  let m := s.mailbox cid t
  s.putMailbox cid t { m with abandon := Nat.min (m.abandon + 1) 0xFFFF }

end State

/-- A word of an outbound queue as it arrives or is lost. -/
def OutWord.arrived (w : OutWord) : InWord := { word := w.word.getD 0, cid := w.cid, slot := w.slot, serial := w.serial }

/-! ### Handles (R163 to R165) -/

def HState.code : HState → Nat
  | .free => 0 | .filling => 1 | .full => 2 | .draining => 3

/-- The bit of a truth value at a place. -/
def bitAt (b : Bool) (n : Nat) : Nat := if b then 2 ^ n else 0

/-- The status word of a handle (R165). -/
def Handle.status (h : Handle) : Word :=
  BitVec.ofNat 64 (h.landed % 2 ^ 24 * 2 ^ 40 + h.oor * 2 ^ 32 + h.mb * 2 ^ 26 + h.state.code * 2 ^ 24 + h.swz * 2 ^ 8
    + bitAt h.chlost 7 + bitAt (0 < h.pins) 6 + bitAt h.norm.isSome 5 + bitAt h.err 4 + bitAt h.refused 3
    + bitAt h.abandoned 2 + bitAt h.dependent 1 + bitAt h.corrupt 0)

/-- What a landing with swizzle k records (R165). -/
def Handle.record (h : Handle) (k : Nat) : Handle :=
  if h.swz = 0 ∧ h.landed = 0 then { h with swz := k } else if h.swz = k then h else { h with swz := 0xFF }

namespace State

/-- A context parked in HWAIT, and whether its handle still fills or drains (R165). -/
def testHandle (n cid : Nat) (s : State) (i : Nat) : State :=
  match (s.slot cid i).wait with
  | .handle n' d =>
    let h := s.handle cid n
    if n' = n ∧ (s.slot cid i).live ∧ h.state ≠ .filling ∧ h.state ≠ .draining then (s.deliver cid d h.status).wake cid i
    else s
  | _ => s

/-- A handle changed, and the waits that its change ends. -/
def putHandle (s : State) (cid n : Nat) (h : Handle) : State := (s.setHandle cid n h).eachSlot (testHandle n cid)

/-- The entries of a norm table given back (R147). -/
def freeNorms (s : State) (cid : Nat) (n : NormTab) : State :=
  s.modCore cid fun c => { c with norms := c.norms.filter fun p => !(decide (n.first ≤ p.1) && decide (p.1 < n.first + n.count)) }

/-- A handle back at its start value (R13, R200). -/
def resetHandle (s : State) (cid n : Nat) : State :=
  let h := s.handle cid n
  let s := match h.norm with
    | some t => s.freeNorms cid t
    | none => s
  s.putHandle cid n { claim := h.claim }

/-- A handle made FREE, with its norm table (R163): its other status fields stay until the next claim (R164, R165), and so
does a word in its latch. -/
def freeHandle (s : State) (cid n : Nat) : State :=
  let h := s.handle cid n
  let s := match h.norm with
    | some t => s.freeNorms cid t
    | none => s
  s.putHandle cid n { h with state := .free, norm := none }

/-- A word put into an inbound queue (R119). -/
def pushIn (s : State) (cid ch : Nat) (w : InWord) : State := s.modChan cid ch fun c => { c with inq := c.inq ++ [w] }

/-- A discarded notification sets CHLOST while the handle is claimed (R163). -/
def chLost (s : State) (cid n : Nat) : State :=
  let h := s.handle cid n
  if h.state = .free then s else s.putHandle cid n { h with chlost := true }

/-- The notification of a handle that has become FULL: into the queue, the latch, or nowhere (R163). -/
def notifyFull (s : State) (cid n : Nat) : State :=
  let h := s.handle cid n
  match h.chan with
  | none => s
  | some k =>
    let c := s.chan cid k
    if c.bound.isNone || h.latch.isSome then s.chLost cid n
    else if c.inq.length < 8 then s.pushIn cid k { word := h.status }
    else s.setHandle cid n { h with latch := some (h.status, k, h.claim) }

/-- A handle made FULL, with its notification in the same step (R163). -/
def fillHandle (s : State) (cid n : Nat) (h : Handle) : State :=
  ((s.setHandle cid n { h with state := .full }).notifyFull cid n).eachSlot (testHandle n cid)

/-- The unbinding of a channel discards the words that latches hold for it (R163). -/
def dropLatches (s : State) (cid ch : Nat) : State :=
  (s.core cid).hs.foldl (fun s p =>
    match p.2.latch with
    | some (_, k, _) => if k = ch then (s.setHandle cid p.1 { s.handle cid p.1 with latch := none }).chLost cid p.1 else s
    | none => s) s

/-- A handle whose word waits for a place in an inbound queue. -/
def latched? (s : State) (cid ch : Nat) : Option Nat :=
  ((s.core cid).hs.find? fun p => match p.2.latch with | some (_, k, _) => k == ch | none => false).map (·.1)

/-- The next handle word that waits for a place in an inbound queue is due to enter it now (R163). -/
def callLatch (s : State) (cid ch : Nat) : State :=
  match s.latched? cid ch with
  | some n => if (s.chan cid ch).inq.length < 8 then s.schedule (.cycle s.cycle) 0 .notifyLatchDrain { a := cid, b := n } else s
  | none => s

/-- A handle word that waits for a place in an inbound queue enters it; while there is room, another follows (R163). -/
def drainLatch (s : State) (cid n : Nat) : State :=
  let h := s.handle cid n
  match h.latch with
  | some (v, k, _) =>
    if (s.chan cid k).inq.length < 8 then
      ((s.pushIn cid k { word := v }).setHandle cid n { h with latch := none }).callLatch cid k
    else s
  | none => s

/-- A per-peer error bit for the own node, owed to the context that pushed a word: its own, or the control context of its
core while that is live; a notification of a handle is owed to nobody (R119). -/
def wordLost (s : State) (w : InWord) : State :=
  if w.serial = 0 then s else
  match s.ownerOf w.cid w.slot w.serial with
  | some (c, i) => s.setPeerError c i (s.slot c i).serial s.node false
  | none =>
    let x := s.slot w.cid 0
    if x.live && x.idx == 0 && !x.guest then s.setPeerError w.cid 0 x.serial s.node false else s

/-- A place of an inbound queue is free again: a latched notification takes it (R163), and the senders learn of it, one on
the same core at once, another at the store-arrival count in the popping core's turns, or after a free delay (R221). -/
def placeFreed (s : State) (cid ch : Nat) : State :=
  let s := s.callLatch cid ch
  (s.senders cid ch).foldl (fun s p =>
    let obj : Obj := { a := p.1, b := p.2, c := (s.chan p.1 p.2).binds }
    let s := s.modChan p.1 p.2 fun c => { c with unknown := c.unknown + 1 }
    if p.1 = cid then s.schedule (.cycle s.cycle) 1 .channelCreditReturn obj
    else
      let clocked := s.channelClocked p.1 { cid := cid, remote := ch, gid := (s.core cid).gid }
      let d := s.dueIn cid clocked (arrivalTurns cid p.1)
      d.2.schedule d.1 (rankOf cid) .channelCreditReturn obj) s

/-- The oldest inbound word of a channel taken (R119). -/
def popIn (s : State) (cid ch : Nat) : Option (InWord × State) :=
  match (s.chan cid ch).inq with
  | [] => none
  | w :: rest => some (w, (s.modChan cid ch fun c => { c with inq := rest }).placeFreed cid ch)

/-- A channel unbound: the words still to go, the inbound words and the latched words are discarded, and a bit is set for the
pusher of each (R119, R120). -/
def unbind (s : State) (cid ch : Nat) : State :=
  let c := s.chan cid ch
  let s := (c.out.map OutWord.arrived ++ c.inq).foldl wordLost s
  let s := s.dropLatches cid ch
  let s := s.modChan cid ch fun c => { c with bound := none, out := [], flight := [], inq := [] }
  c.inq.foldl (fun s _ => s.placeFreed cid ch) s

/-- A channel bound (R118). -/
def bindChannel (s : State) (cid ch : Nat) (b : Binding) : State :=
  (s.modChan cid ch fun c => { c with bound := some b, unknown := 0, binds := c.binds + 1 }).pump cid ch 8

/-- The outbound queue of a channel has drained (R120). -/
def drained (s : State) (cid ch : Nat) : Bool := (s.chan cid ch).out.isEmpty && (s.chan cid ch).flight.isEmpty

/-- The end of a CHEND, and the new binding of a CHBIND that began with one (R118, R120). -/
def endChannel (s : State) (cid ch : Nat) (b : Option Binding) : State :=
  let s := s.unbind cid ch
  match b with
  | some b => s.bindChannel cid ch b
  | none => s

end State
end Sys2Proof.Machine
end

