-- ==== Sys2Proof/Machine/Units.lean ====
section
/-!
DEFINITION. What the cluster queue and the transfer unit do to the rest of the machine when their work is taken away:
range locks and pins released (R135, R167, R232), entries removed (R144), messages orphaned and abandoned (R170, R171).
-/
namespace Sys2Proof.Machine

def Entry.acc? (e : Entry) : List Nat :=
  match e.kind with
  | .task _ a b => if a = b then [a] else [a, b]
  | .drain a _ | .drainCe a _ | .zero a | .fill a _ => [a]
  | .scale d s _ _ _ => if d = s then [d] else [d, s]
  | .swap _ | .codebook _ _ _ => []

/-- The handles that a task names (R135). -/
def Entry.handles (e : Entry) : List Nat :=
  match e.kind with
  | .task t _ _ => (t.a.handle.toList ++ t.b.handle.toList)
  | _ => []

/-- The constructor of the start step of an entry's kind (R128). -/
def EntryKind.startStep : EntryKind → Instr
  | .task _ _ _ => .taskStart
  | .swap _ => .swapStart
  | .codebook _ _ _ => .codebookLoadStart
  | .drain _ _ | .drainCe _ _ => .drainStart
  | .zero _ => .zeroStart
  | .fill _ _ => .fillStart
  | .scale _ _ _ _ _ => .scaleStart

/-- The engine, and the accumulator, of a cluster that an index names within the share of a pitch (R125): none outside it. -/
def engineOf (pitch : List Nat) (e : Nat) : Option Nat :=
  if 4 ≤ pitch.length then (if e < 2 then some e else none)
  else if e = 0 then some (coreField (pitch.headD 0) / 2) else none
def accOf (pitch : List Nat) (i : Nat) : Option Nat :=
  let c := coreField (pitch.headD 0)
  if 4 ≤ pitch.length then (if i < 16 then some i else none)
  else if pitch.length = 2 then (if i < 8 then some (8 * (c / 2) + i) else none)
  else if i < 4 then some (4 * c + i) else none

/-- The source number of a step of an entry that an engine runs (R4, R236): a drain's accesses are those of its core. -/
def Entry.source (e : Entry) (cl eng : Nat) : Nat :=
  match e.kind with
  | .task _ _ _ => engineSource cl eng
  | .swap n | .codebook n _ _ => engineSource cl n
  | .drain _ _ | .drainCe _ _ => e.cid
  | .zero _ | .fill _ _ | .scale _ _ _ _ _ => engineSource cl 0

namespace State

/-! ### Range locks (R232) -/

/-- The entries of a holder released in every table. -/
def unlock (s : State) (hkind holder : Nat) : State :=
  { s with clusters := s.clusters.map fun p =>
      (p.1, { p.2 with locks := p.2.locks.filter fun l => !(l.hkind == hkind && l.holder == holder) }) }

/-- The lowest index that is in no list: where a holder stands in its unit's queue (R232). -/
def freePlace (used : List Nat) : Nat := ((List.range (used.length + 1)).find? fun i => !used.contains i).getD 0

/-- The entries of a cluster's table that are free. -/
def freeLocks (s : State) (cl : Nat) : Nat := 32 - (s.cluster cl).locks.length

/-- An entry taken. -/
def takeLock (s : State) (cl : Nat) (l : Lock) : State := s.modCluster cl fun c => { c with locks := c.locks ++ [l] }

/-- What waits for a lock entry, a place of a queue or room of a transfer unit is tried again (R126, R161, R167), after the
accesses of the cycle (R233). -/
def retryPosted (s : State) : State :=
  let s := s.clusters.foldl (fun s p =>
    match p.2.waiting with
    | [] => s
    | e :: _ => s.schedule (.cycle s.cycle) (takeRank e.cid) .engineQueueAccept { a := p.1 }) s
  s.transfers.foldl (fun s t =>
    let s := if t.accepted && !t.relock then s else s.schedule (.cycle s.cycle) (takeRank t.cid) .transferAccept { a := t.cid }
    if t.lockWaits then s.schedule (.cycle s.cycle) (takeRank t.cid) .lockMessageArrival { a := t.id, ok := true } else s) s

/-! ### The cluster queue (R127 to R129, R144) -/

/-- A swap of an engine waits in the queue (R130). -/
def swapWaits (s : State) (cl e : Nat) : Bool :=
  ((s.cluster cl).queue ++ (s.cluster cl).waiting).any fun x => x.kind == .swap e && !x.started

/-- The oldest entry of a queue that has not started. -/
def headEntry (s : State) (cl : Nat) : Option Entry := (s.cluster cl).queue.find? fun e => !e.started

/-- The entries that run, and whether an engine runs a task. -/
def running (s : State) (cl : Nat) : List Entry := (s.cluster cl).queue.filter (·.started)
def engineBusy (s : State) (cl eng : Nat) : Bool :=
  (s.running cl).any fun e => match e.kind with | .task _ _ _ => e.engine == eng | _ => false

/-- The engine that a task takes: an idle one among those that it names, ME0 first. -/
def taskEngine (s : State) (cl : Nat) (t : TaskRec) : Option Nat :=
  (if t.engine = 0xFF then [0, 1] else [t.engine]).find? fun e => !s.engineBusy cl e

/-- The start of the oldest entry is tried in this cycle, in the place of its engine (R128, R236). -/
def kickQueue (s : State) (cl : Nat) : State :=
  match s.headEntry cl with
  | some e =>
    let eng := match e.kind with
      | .task t _ _ => (s.taskEngine cl t).getD 0
      | _ => 0
    s.schedule (.cycle s.cycle) (rankOf (e.source cl eng)) e.kind.startStep { a := cl }
  | none => s

/-- The handles of an entry unpinned (R135). -/
def unpin (s : State) (e : Entry) : State :=
  e.handles.foldl (fun s n => let h := s.handle e.cid n; s.putHandle e.cid n { h with pins := h.pins - 1 }) s

/-- An entry out of its queue, with its locks and pins. -/
def removeEntry (s : State) (cl : Nat) (e : Entry) : State :=
  let s := s.modCluster cl fun c => { c with queue := c.queue.filter fun x => x.id != e.id }
  (s.unlock 3 e.id).unpin e

/-- Every entry of a group that has not started is removed from a queue, those still waiting for a place too (R144). -/
def removeEntries (s : State) (gid cl : Nat) : State :=
  let es := (s.cluster cl).queue.filter fun e => e.gid == gid && !e.started
  let s := es.foldl (fun s e => s.removeEntry cl e) s
  let s := s.modCluster cl fun c => { c with waiting := c.waiting.filter fun e => e.gid != gid }
  if es.isEmpty then s else s.kickQueue cl

/-- The entries of a killed group that have started complete in silence (R279). -/
def silenceEntries (s : State) (gid cl : Nat) : State :=
  s.modCluster cl fun c => { c with queue := c.queue.map fun e => if e.gid == gid then { e with silent := true } else e }

/-- The clusters that a pitch touches. -/
def clustersOf (pitch : List Nat) : List Nat := (pitch.map clusterOf).eraseDups

/-- Engine entries or SFU requests of a group that are not complete (R191). -/
def unitsBusy (s : State) (g : Group) : Bool :=
  (clustersOf g.pitch).any fun k =>
    let c := s.cluster k
    c.queue.any (fun e => e.gid == g.gid) || c.sfu.any fun r => g.pitch.contains r.cid

/-! ### Transfers (R166 to R176) -/

/-- The tag that a transfer counts on: core and tag (R166, R169); none where it is no core's of this module. -/
def countedTag (s : State) (t : Transfer) : Option (Nat × Nat) :=
  match t.kind with
  | .send r =>
    if !r.counted || !t.recvHere then none
    else if r.toHandle then some (t.receiver, (s.handle t.receiver r.x).mb) else some (t.receiver, r.x)
  | .gather r => some (t.cid, r.mb)
  | .rscat r => some (t.cid, r.mb)
  | .vdec r => some (t.cid, r.errmb)
  | .chunk _ => none

/-- A tag after one more count, or one more abandonment (R162). -/
def raiseTag (m : Mailbox) (abandon : Bool) : Mailbox :=
  if abandon then { m with abandon := Nat.min (m.abandon + 1) 0xFFFF } else { m with count := Nat.min (m.count + 1) 0xFFFFFFFF }

/-- A tag of a core of a group raised on the group's behalf: on the core while it belongs to the group, or at the
resumption of a pre-empted group (R234, R262). -/
def tagFor (s : State) (gid cid tag : Nat) (abandon : Bool) : State :=
  match s.group? gid with
  | none => s
  | some l =>
    match l.saved with
    | some sv =>
      s.modGroup gid fun l => { l with saved := some { sv with told := sv.told ++ [(l.pitch.idxOf cid, tag, abandon)] } }
    | none => if (s.core cid).gid ≠ gid then s else if abandon then s.mbAbandon cid tag else s.mbCount cid tag

/-- The same for an abandonment. -/
def abandonFor (s : State) (gid cid tag : Nat) : State := s.tagFor gid cid tag true

/-- The handle that is the source of a SEND.SH becomes FREE once its last byte has been read (R163). -/
def sourceFree (s : State) (t : Transfer) : State :=
  match t.kind with
  | .send r =>
    match r.srcHandle with
    | some h => if (s.handle t.cid h).state = .draining ∧ (s.core t.cid).gid = t.gid then s.freeHandle t.cid h else s
    | none => s
  | _ => s

/-- A message taken out of its gate, whose next grant is then due. -/
def leaveGate (s : State) (t : Transfer) : State :=
  (s.modDie t.gate fun d => { d with requests := d.requests.filter fun x => x != t.id }).schedule (.cycle s.cycle)
    (rankOf (gateSource t.gate)) .tokenGrant { a := t.gate }

/-- ABANDON of the sender's tag under DONE, once for a message (R170, R287). -/
def abandonDone (s : State) (t : Transfer) : State :=
  match t.kind with
  | .send r =>
    match r.done with
    | some m => if t.abandoned then s else (s.modTransfer t.id fun t => { t with abandoned := true }).abandonFor t.gid t.cid m
    | none => s
  | _ => s

/-- Every lock that a message holds is released, it waits at no gate, and its source is read no more (R170). -/
def letGo (s : State) (t : Transfer) : State :=
  let s := ((s.unlock 0 t.id).unlock 1 t.id).leaveGate t
  let s := if t.readDone then s else s.sourceFree t
  (s.modTransfer t.id fun t => { t with readDone := true, lockWaits := false }).abandonDone t

/-- The sender of a message on another module learns how it has ended. -/
def answerSender (s : State) (t : Transfer) (ok : Bool) : State :=
  match t.sender with
  | some n => s.sendAnswer n t.serial ok
  | none => s

/-- What the end of a message means to the plan that sends it: it fails with it (R174). -/
def failSender (s : State) (t : Transfer) : State :=
  match t.kind with
  | .chunk r =>
    if t.sender.isSome then s
    else s.schedule (.cycle s.cycle) (rankOf (collectiveSource (dieOf t.cid))) .rscatCompletion { a := r.plan, c := 2 }
  | _ => s

/-- A message that ends without its last byte, with the packets that are still under way (R170). -/
def dropMessage (s : State) (t : Transfer) : State :=
  ((((s.letGo t).answerSender t false).failSender t).dropTransfer t.id).retryPosted

/-- A handle that a message was filling gets ABANDONED and becomes FULL (R170). -/
def abandonHandle (s : State) (t : Transfer) : State :=
  match t.kind with
  | .send r =>
    let h := s.handle t.receiver r.x
    if r.toHandle && t.recvHere && h.state == .filling then s.fillHandle t.receiver r.x { h with abandoned := true } else s
  | _ => s

/-- ABANDON of the counted tag, while its core holds a live pitch that the message may reach (R170). -/
def abandonTag (s : State) (t : Transfer) (live : Bool) : State :=
  if !live then s else
  match s.countedTag t with
  | some (c, tag) => (s.mbAbandon c tag).abandonHandle t
  | none => s

/-- A message abandoned and ended at once (R170). -/
def abandonMessage (s : State) (t : Transfer) (live : Bool) : State := (s.abandonTag t live).dropMessage t

/-- A request orphaned (R170): what has been read still lands, and with nothing under way the message ends. -/
def orphanMessage (s : State) (t : Transfer) (live : Bool) : State :=
  let s := ((s.abandonTag t live).letGo t).failSender t
  if t.packets.all (·.landed) then ((s.answerSender t false).dropTransfer t.id).retryPosted
  else (s.modTransfer t.id fun t => { t with orphaned := true }).retryPosted

end State

/-- A request still needs a token. -/
def Transfer.waits (t : Transfer) : Bool := t.accepted && t.tokens.any fun k => !k.granted

/-- It holds a token of which no packet has been read. -/
def Transfer.holds (t : Transfer) : Bool := t.tokens.any fun k => k.granted && !k.used

/-- A VDEC command that has not started (R176): it is in its decoder's queue. -/
def Transfer.pendingDecode (t : Transfer) : Bool := match t.kind with | .vdec _ => !t.locked | _ => false

namespace State

/-- A receiver on this module still holds a live pitch that a message of a region may reach; live is asked for it. -/
def orphanTransfer (live : Nat → Nat → Bool) (killed : Bool) (s : State) (t : Transfer) : State :=
  if !t.accepted then s.dropTransfer t.id
  else if killed && Transfer.holds t then s.modTransfer t.id fun t => { t with dying := true }
  else if Transfer.waits t then s.orphanMessage t (live t.receiver t.region)
  else if Transfer.pendingDecode t then
    match t.kind with
    | .vdec r =>
      let s := s.modDie (dieOf t.cid) fun d =>
        { d with decoders := tset d.decoders r.dec ((tget d.decoders r.dec []).filter fun x => x != t.id) }
      (s.abandonFor t.gid t.cid r.errmb).dropTransfer t.id
    | _ => s
  else match t.kind with
    | .rscat _ => if t.packets.isEmpty then s.schedule (.cycle s.cycle) (rankOf (collectiveSource (dieOf t.cid))) .rscatCompletion { a := t.id, c := 2 } else s
    | _ => s

/-- The end of a group at the transfer units: waiting SEND requests and incomplete plans are orphaned, VDEC commands that
have not started are dropped with ABANDON of their ERRMB, and postings not accepted vanish (R171, R174, R176).  A killed group's transfers
first finish reading what they hold tokens for (R279). -/
def orphanTransfers (s : State) (gid : Nat) (killed : Bool) (live : Nat → Nat → Bool) : State :=
  (s.transfers.filter fun t => t.gid == gid).foldl (orphanTransfer live killed) s

end State
end Sys2Proof.Machine
end

