-- ==== Sys2Proof/Machine/Regions.lean ====
section
/-!
DEFINITION. Groups and regions as traps and exits meet them: live pitches (R83, R191), event records (R259), the end of
a group (R191) and kills (R259, R278, R279).
-/
namespace Sys2Proof.Machine

/-- The code of a trap cause (R277). -/
def Cause.code : Cause → Nat
  | .illegal => 0x01 | .feature => 0x02 | .align => 0x03 | .xlate => 0x04 | .perm => 0x05 | .peerGone => 0x06
  | .rangeLock => 0x07 | .stallCheck => 0x08 | .singular => 0x09 | .swizzle => 0x0A | .shape => 0x0B | .handle => 0x0C
  | .channel => 0x0D | .trap => 0x0E | .bkpt => 0x0F | .memerr => 0x10 | .sendDenied => 0x11 | .preemptTimeout => 0x12

namespace State

/-- The group that a core belongs to. -/
def groupOf (s : State) (cid : Nat) : Option Group := s.group? (s.core cid).gid

/-- The region of the live pitch that a core belongs to (R83, R191). -/
def liveRegion (s : State) (cid : Nat) : Option Nat := (s.groupOf cid).map (·.region)

/-- A core holds a live pitch of a region (R83). -/
def livePitch (s : State) (cid region : Nat) : Bool := s.liveRegion cid == some region

/-- A core holds a live pitch of a region or of one of its ancestors (R166, R169). -/
def livePitchUp (s : State) (cid region : Nat) : Bool :=
  match s.liveRegion cid with
  | some r => s.isAncestor r region
  | none => false

/-- The source number under which the scheduler, the Welt and the link dies act: they have none, and come after every source
that has one (R4, R5, log 13). -/
def deviceSource : Nat := 0xFFFF

/-- Bytes written into HBM by the device itself, the parts of each ECC word at its home (R280). -/
def writeHbm (s : State) (pa : Nat) (bs : List Byte) : State :=
  let a := pa % 32
  (List.range ((a + bs.length + 31) / 32)).foldl (fun s i =>
    let lo := Nat.max a (32 * i)
    s.storeChecked (s.hbmLoc (pa - a + lo)) (allOn ((bs.drop (lo - a)).take (32 * i + 32 - lo))) deviceSource) s

/-- Bytes of HBM. -/
def readHbm (s : State) (pa n : Nat) : List Byte :=
  (List.range n).map fun i => s.mem.get (s.hbmLoc (pa + i)).addr

/-- An event record put among those of its GTC tick: in the order of their sources, behind those of its own (R5). -/
def putRecord (r : Nat × List Byte) : List (Nat × List Byte) → List (Nat × List Byte)
  | [] => [r]
  | x :: xs => if r.1 < x.1 then r :: x :: xs else x :: putRecord r xs

/-- An event record in the log of a region, from a source (R5, R259); a region without a log logs nothing. -/
def eventRecord (s : State) (source region gid kind cause : Nat) (tval : Word) (regid : Nat) : State :=
  match tfind s.regions region with
  | none => s
  | some r =>
    let base := s.effEvbase region
    if base = 0 then s
    else
      let rec_ := leBytes 8 s.gtc.toNat ++ leBytes 4 gid ++ leBytes 1 kind ++ leBytes 1 cause ++ leBytes 2 0
        ++ leBytes 8 tval.toNat ++ leBytes 8 regid
      let old := r.evRecs.filter fun q => q.2.take 8 == rec_.take 8
      let recs := putRecord (source, rec_) old
      let first := r.evcount.toNat - old.length
      let s := recs.zipIdx.foldl (fun s q =>
        if old[q.2]? = some q.1 then s else s.writeHbm (base + 32 * ((first + q.2) % 64)) q.1.2) s
      let s := s.writeHbm (region + 232) (leBytes 8 (r.evcount + 1).toNat)
      { s with regions := tset s.regions region { r with evcount := r.evcount + 1, evRecs := recs } }

/-- The notification of a launched group's end (R195): COUNT, or ABANDON for a killed group; a pre-empted notifying group
gets it in what the scheduler keeps (R262). -/
def notifyEnd (s : State) (g : Group) : State :=
  match g.notify with
  | none => s
  | some (gid, cid, tag) => s.tagFor gid cid tag g.killed

/-- A context becomes not live; its slot is free.  A store or AMO that still waits to be released is not sent,
nor the store of a vector instruction that waits for its reads, and its watch is given up; the per-peer
error bits of a context of the core stay until its group's next start (R99). -/
def clearSlot (s : State) (cid i : Nat) : State :=
  let x := s.slot cid i
  let s := match x.wait with
    | .release _ id | .watch id | .gather _ _ _ (.mem _ _ (some id)) => s.dropMsg id
    | _ => s
  s.setSlot cid i { serial := x.serial, perr := if x.home = cid ∧ x.idx = i ∧ !x.guest then x.perr else 0 }

/-- The context of a home slot is on another module: its slot is reserved, and it neither runs nor moves on this one (R215). -/
def awayFrom (s : State) (x : Slot) : Bool :=
  x.reserved && !(s.cores.any fun p => p.2.slots.any fun q => q.2.live && !q.2.guest && q.2.serial == x.serial)
    && !s.moves.any fun m => m.ctx.serial == x.serial

/-- A context that is on another module is called home for a pending pre-emption, or told that its group has ended (R217, R218):
at every module that its region may reach, since its home does not follow its moves (log 59). -/
def recallGuest (s : State) (cid i : Nat) (ended : Bool) : State :=
  let x := s.slot cid i
  if !s.awayFrom x then s
  else
    ((List.range 993).filter fun n => n != s.node && (s.effNodemap x.region).getLsbD n).foldl (fun s n =>
      (s.inject { id := 0, node := n, kind := .recall ended, region := s.regid x.region, cid := cid, slot := i }).2) s

/-- The same for those of the reserved home slots that a test accepts. -/
def recallGuests (s : State) (ended : Bool) (mine : Nat → Slot → Bool) : State :=
  s.cores.foldl (fun s p =>
    (p.2.slots.filter fun q => q.2.reserved && mine p.1 q.2).foldl (fun s q => s.recallGuest p.1 q.1 ended) s) s

/-- A packet with a context that waits for a slot of a die is tried again (R216). -/
def kickGuests (s : State) (d : Nat) : State :=
  match (s.die d).guests with
  | id :: _ => s.schedule (.cycle s.cycle) 0 .guestLanding { a := id }
  | [] => s

/-- Every context of a group becomes not live, wherever it runs (R218, R279). -/
def stopContexts (s : State) (gid : Nat) : State :=
  let s := s.recallGuests true fun _ x => x.gid == gid
  let s := { s with moves := s.moves.filter fun m => m.ctx.gid != gid }
  s.cores.foldl (fun s p =>
    (p.2.slots.filter fun q => (q.2.live || q.2.reserved) && !q.2.guest && q.2.gid == gid).foldl
      (fun s q => s.clearSlot p.1 q.1) s) s

/-- The release of the pitch of an ended group, once nothing of it is busy and a killed group's messages have read what they
hold tokens for (R191, R279). -/
def tryRelease (s : State) (gid : Nat) : State :=
  match s.group? gid with
  | some g =>
    if g.state = .ending ∧ !s.unitsBusy g ∧ !(s.transfers.any fun t => t.gid == gid && t.dying && !t.orphaned) then s.schedule (.cycle s.cycle) 1 .pitchRelease { a := gid } else s
  | none => s

/-- The step in which a placed group ends (R191, R279): its waiting SENDs, commands and entries go, its launcher is told. -/
def endPlaced (s : State) (gid : Nat) (killed : Bool) : State :=
  let s := s.modGroup gid fun g =>
    { g with state := .ending, killed := killed, preempt := false, heirs := [], frame := none, saved := none }
  match s.group? gid with
  | none => s
  | some g =>
    let s := s.stopContexts gid
    let s := (clustersOf g.pitch).foldl (fun s k => s.removeEntries gid k) s
    let s := if killed then (clustersOf g.pitch).foldl (fun s k => s.silenceEntries gid k) s else s
    let s := s.orphanTransfers gid killed s.livePitchUp
    ((s.notifyEnd g).retryPosted).tryRelease gid

/-- A kill (R279): a placed group ends as at EXIT, a waiting or pre-empted one leaves the queue; a group that ends
already is left alone. -/
def killGroup (s : State) (source gid : Nat) (cause : Nat) (tval : Word) : State :=
  match s.group? gid with
  | none => s
  | some g =>
    match g.state with
    | .ending | .releasing => s
    | .queued | .saved =>
      let s := s.eventRecord source g.region gid 1 cause tval 0
      let s := s.notifyEnd { g with killed := true }
      let s := s.orphanTransfers gid true s.livePitchUp
      let s := { s with groups := tdel s.groups gid, queue := s.queue.filter fun x => x != gid }
      s.unclocked 0 .placement
    | _ => (s.eventRecord source g.region gid 1 cause tval 0).endPlaced gid true

/-- The groups of a region and of its descendants in ascending identifier. -/
def groupsUnder (s : State) (region : Nat) : List Nat :=
  (s.groups.filter fun p => s.isAncestor region p.2.region).map (·.1)

/-- A REGION kill: one record for each group, then one for the region (R279, R259). -/
def killRegion (s : State) (source region : Nat) (cause : Nat) (tval : Word) : State :=
  let s := (s.groupsUnder region).foldl (fun s g => s.killGroup source g cause tval) s
  s.eventRecord source region 0 2 cause tval (s.regid region)

/-- The effective fault domain of a group acts (R259, R278). -/
def faultDomain (s : State) (source gid : Nat) (cause : Nat) (tval : Word) : State :=
  match s.group? gid with
  | none => s
  | some g =>
    match g.state with
    | .ending | .releasing => s
    | _ => if s.effFdom g.region = 2 then s.killRegion source g.region cause tval else s.killGroup source gid cause tval

end State
end Sys2Proof.Machine
end

