-- ==== Sys2Proof/Machine/Ops.lean ====
section
/-!
DEFINITION. The operations that every instruction shares: taking a trap and returning from one (R26, R76, R278), the
gates of an issue (R17, R19, R22, R25, R60), and what an issue leaves behind it (R21, R24, R211).
-/
namespace Sys2Proof.Machine

/-- A computation of an instruction's effect: it ends in a new state or in a stop that discards everything (R25). -/
abbrev Do := StateT State (Except Stop)

/-- Word 0 of an instruction. -/
def word0 : Instr → BitVec 32
  | .illegalEncoding w0 => w0
  | i => (encode i).headD 0

/-- The bytes from an instruction to its sequential successor (R46). -/
def instrBytes (i : Instr) : Nat := 4 * (encode i).length

/-! ### Taking a trap (R26, R278) -/

/-- TSTATUS as trap entry writes it (R26). -/
def trapStatus (w0 : BitVec 32) (t : TrapInfo) : BitVec 16 :=
  w0.extractLsb' 5 6 ++ w0.extractLsb' 0 2 ++ 0#3 ++ 1#1 ++ (if t.write then 1#1 else 0#1) ++ BitVec.ofNat 3 t.use

/-- INH of a context (R26). -/
def State.inhibited (s : State) (cid i : Nat) : Bool := (s.word16 cid i wsTstatus).getLsbD 4

/-- The trap handler of a context: that of the kernel header of its group. -/
def State.handlerOf (s : State) (cid i : Nat) : Word :=
  match s.group? (s.slot cid i).gid with
  | some g => g.header.handler
  | none => 0

/-- Taking a trap: the one way a context enters its handler.  With INH clear the four trap words are written, and PC goes
to the handler, whose first instruction issues in the context's next own turn; with INH set nothing of the context is
written and the group's fault domain acts (R278).  A guest first goes home, with the trap and word 0 of its instruction
(R218). -/
def State.takeTrap (s : State) (cid i : Nat) (t : TrapInfo) (w0 : BitVec 32) (ret : Word) : State :=
  let x := s.slot cid i
  if x.guest then
    (s.modSlot cid i fun x => { x with wait := .goHome (some t), pc := ret, ins := some (.illegalEncoding w0) }).schedule (.cycle s.cycle) (rankOf cid) .guestReturn
      { a := cid, b := i }
  else if s.inhibited cid i || x.routine.isSome then s.faultDomain cid x.gid t.cause.code t.tval
  else
    let h := s.handlerOf cid i
    let s := s.wsWrite cid i wsTcause (BitVec.ofNat 128 t.cause.code) (lowMask 2)
    let s := s.wsWrite cid i wsTval (t.tval.setWidth 128) (lowMask 8)
    let s := s.wsWrite cid i wsTretpc (ret.setWidth 128) (lowMask 8)
    let s := s.wsWrite cid i wsTstatus ((trapStatus w0 t).setWidth 128) (lowMask 2)
    let s := s.modSlot cid i fun x =>
      { x with pc := h, wait := .ready, stall := none, yield := none, own := true, ins := none, walked := none
               trans := [], late := [], fetched := none, refusedNode := none }
    s.wakeWatches (.scratch cid) (i * 0x400 + wsTval) 40

/-- The return from a trap (R76): INH cleared, PC from TRETPC, nothing else restored. -/
def State.returnFromTrap (s : State) (cid i : Nat) : State :=
  let t := s.word16 cid i wsTstatus
  let pc := s.word64 cid i wsTretpc
  (s.setWord16 cid i wsTstatus (t &&& 0xFFEF)).modSlot cid i fun x => { x with pc := pc, own := true }

/-! ### Operand uses (R18, R19, R22) -/

/-- A use of a register, channel, stream or predicate by an instruction, in the order in which the scoreboard meets them:
the governing predicate, then the fields a, b, c, d, each field's read before its write (R22). -/
inductive Use where
  | sr (code : Nat) | sw (code : Nat)
  | vr (code : Nat) | vw (code : Nat)
  | kr (n : Nat) | kw (n : Nat)
  deriving DecidableEq, Repr

/-- The offset from WP of the register of a use, if it is one (R18, R224). -/
def Use.offset? : Use → Option Nat
  | .sr c | .sw c => if 1 ≤ c ∧ c ≤ 27 then some (8 * c) else none
  | .vr c | .vw c => if c < 16 then some (wsQ c) else none
  | .kr n | .kw n => some (wsK n)

end Sys2Proof.Machine
namespace Sys2Proof
open Machine

namespace RF
/-- d, a and b are scalar fields; the old d is not read. -/
def uses (f : RF) : List Use := [.sr f.a.toNat, .sr f.b.toNat, .sw f.d.toNat]
/-- As above with d read as well (R62). -/
def usesOld (f : RF) : List Use := [.sr f.a.toNat, .sr f.b.toNat, .sr f.d.toNat, .sw f.d.toNat]
def usesA (f : RF) : List Use := [.sr f.a.toNat, .sw f.d.toNat]
def readsA (f : RF) : List Use := [.sr f.a.toNat]
def writesD (f : RF) : List Use := [.sw f.d.toNat]
end RF

def AF.uses (f : AF) : List Use := [.sr f.a.toNat, .sr f.b.toNat, .sw f.d.toNat]
def AF.usesOld (f : AF) : List Use := [.sr f.a.toNat, .sr f.b.toNat, .sr f.d.toNat, .sw f.d.toNat]

namespace XF
/-- The governing predicate (R53). -/
def pred (f : XF) : List Use := if f.k = 0 then [] else [.kr f.k.toNat]
def va (f : XF) : Use := .vr f.a.toNat
def vb (f : XF) : Use := .vr f.b.toNat
def vc (f : XF) : Use := .vr f.c.toNat
def vd (f : XF) : Use := .vw f.d.toNat
def sa (f : XF) : Use := .sr f.a.toNat
def sb (f : XF) : Use := .sr f.b.toNat
def sc (f : XF) : Use := .sr f.c.toNat
def sd (f : XF) : Use := .sw f.d.toNat
/-- The n registers from a code, read or written. -/
def group (w : Bool) (code n : Nat) : List Use :=
  (List.range n).map fun i => if w then .vw (code + i) else .vr (code + i)
end XF

end Sys2Proof
namespace Sys2Proof.Machine

/-- The operand uses of each instruction. -/
def uses : Instr → List Use
  | .add f => f.uses
  | .sub f => f.uses
  | .mul f => f.uses
  | .mulh f => f.uses
  | .mulhu f => f.uses
  | .div f => f.uses
  | .divu f => f.uses
  | .rem f => f.uses
  | .remu f => f.uses
  | .and f => f.uses
  | .or f => f.uses
  | .xor f => f.uses
  | .andn f => f.uses
  | .shl f => f.uses
  | .shr f => f.uses
  | .sra f => f.uses
  | .rotr f => f.uses
  | .slt f => f.uses
  | .sltu f => f.uses
  | .min f => f.uses
  | .max f => f.uses
  | .minu f => f.uses
  | .maxu f => f.uses
  | .sel f => f.usesOld
  | .clz f => f.usesA
  | .ctz f => f.usesA
  | .popc f => f.usesA
  | .bfx f => f.uses
  | .bfxu f => f.uses
  | .bfi f => f.usesOld
  | .addi f => [.sr f.a.toNat, .sw f.d.toNat]
  | .addiLit f => [.sr f.a.toNat, .sw f.d.toNat]
  | .andi f => [.sr f.a.toNat, .sw f.d.toNat]
  | .andiLit f => [.sr f.a.toNat, .sw f.d.toNat]
  | .ori f => [.sr f.a.toNat, .sw f.d.toNat]
  | .oriLit f => [.sr f.a.toNat, .sw f.d.toNat]
  | .xori f => [.sr f.a.toNat, .sw f.d.toNat]
  | .xoriLit f => [.sr f.a.toNat, .sw f.d.toNat]
  | .shli f => [.sr f.a.toNat, .sw f.d.toNat]
  | .shliLit f => [.sr f.a.toNat, .sw f.d.toNat]
  | .shri f => [.sr f.a.toNat, .sw f.d.toNat]
  | .shriLit f => [.sr f.a.toNat, .sw f.d.toNat]
  | .srai f => [.sr f.a.toNat, .sw f.d.toNat]
  | .sraiLit f => [.sr f.a.toNat, .sw f.d.toNat]
  | .slti f => [.sr f.a.toNat, .sw f.d.toNat]
  | .sltiLit f => [.sr f.a.toNat, .sw f.d.toNat]
  | .sltiu f => [.sr f.a.toNat, .sw f.d.toNat]
  | .sltiuLit f => [.sr f.a.toNat, .sw f.d.toNat]
  | .movi f => [.sw f.d.toNat]
  | .moviLit f => [.sw f.d.toNat]
  | .fadd f => f.uses
  | .fsub f => f.uses
  | .fmul f => f.uses
  | .ffma f => f.usesOld
  | .fmin f => f.uses
  | .fmax f => f.uses
  | .fabs f => f.usesA
  | .fneg f => f.usesA
  | .fcmpeq f => f.uses
  | .fcmplt f => f.uses
  | .fcmple f => f.uses
  | .fcvtif f => f.usesA
  | .fcvtfi f => f.usesA
  | .fclass f => f.usesA
  | .br f => [.sr f.a.toNat, .sr f.b.toNat]
  | .brLong f => [.sr f.a.toNat, .sr f.b.toNat]
  | .jmp _ => []
  | .jmpLit _ => []
  | .call _ => [.sw 27]
  | .callLit _ => [.sw 27]
  | .jr f => f.readsA
  | .callr f => f.usesA
  | .nop _ => []
  | .safept _ => []
  | .trap _ => []
  | .tret _ => []
  | .bkpt _ => []
  | .mfs f => f.writesD
  | .mts f => f.readsA
  | .rdtime f => f.writesD
  | .getid f => f.writesD
  | .ld f => [.sr f.base.toNat, .sw f.d.toNat]
  | .ldLit f => [.sr f.base.toNat, .sw f.d.toNat]
  | .st f => [.sr f.base.toNat, .sr f.d.toNat]
  | .stLit f => [.sr f.base.toNat, .sr f.d.toNat]
  | .ldAcq f => [.sr f.base.toNat, .sw f.d.toNat]
  | .ldAcqLit f => [.sr f.base.toNat, .sw f.d.toNat]
  | .stRel f => [.sr f.base.toNat, .sr f.d.toNat]
  | .stRelLit f => [.sr f.base.toNat, .sr f.d.toNat]
  | .pfetch f => f.readsA
  | .l1inv _ => []
  | .waitv f => f.uses
  | .amoadd f => f.uses
  | .amoand f => f.uses
  | .amoor f => f.uses
  | .amoxor f => f.uses
  | .amomin f => f.uses
  | .amomax f => f.uses
  | .amominu f => f.uses
  | .amomaxu f => f.uses
  | .amoswap f => f.uses
  | .amocas f => f.usesOld
  | .amofadd f => f.uses
  | .amoamax f => f.uses
  | .fenceC _ => []
  | .fenceK _ => []
  | .fenceP _ => []
  | .fenceS f => f.usesA
  | .vadd f => f.pred ++ [f.va, f.vb, f.vd]
  | .vsub f => f.pred ++ [f.va, f.vb, f.vd]
  | .vmul f => f.pred ++ [f.va, f.vb, f.vd]
  | .vmulh f => f.pred ++ [f.va, f.vb, f.vd]
  | .vmad f => f.pred ++ [f.va, f.vb, f.vc, f.vd]
  | .vmacw f => f.pred ++ [f.va, f.vb] ++ XF.group false f.d.toNat 4 ++ XF.group true f.d.toNat 4
  | .vdot4 f => f.pred ++ [f.va, f.vb, .vr f.d.toNat, f.vd]
  | .vmin f => f.pred ++ [f.va, f.vb, f.vd]
  | .vmax f => f.pred ++ [f.va, f.vb, f.vd]
  | .vabs f => f.pred ++ [f.va, f.vd]
  | .vand f => f.pred ++ [f.va, f.vb, f.vd]
  | .vor f => f.pred ++ [f.va, f.vb, f.vd]
  | .vxor f => f.pred ++ [f.va, f.vb, f.vd]
  | .vshli f => f.pred ++ [f.va, f.vd]
  | .vshri f => f.pred ++ [f.va, f.vd]
  | .vsrai f => f.pred ++ [f.va, f.vd]
  | .vrshr f => f.pred ++ [f.va, f.vd]
  | .vfadd f => f.pred ++ [f.va, f.vb, f.vd]
  | .vfsub f => f.pred ++ [f.va, f.vb, f.vd]
  | .vfmul f => f.pred ++ [f.va, f.vb, f.vd]
  | .vffma f => f.pred ++ [f.va, f.vb, f.vc, f.vd]
  | .vfmin f => f.pred ++ [f.va, f.vb, f.vd]
  | .vfmax f => f.pred ++ [f.va, f.vb, f.vd]
  | .vld f => f.pred ++ [f.sa, f.vd]
  | .vst f => f.pred ++ [f.sa, f.vb]
  | .vsplat f => f.pred ++ [f.sa, f.vd]
  | .vsplatLit f => f.x.pred ++ [f.x.vd]
  | .vperm f => f.pred ++ [f.va, f.vb, f.vd]
  | .vpermLit f => f.x.pred ++ [f.x.va, f.x.vd]
  | .vslide f => f.pred ++ [f.va, f.vb, f.vd]
  | .vred f => f.pred ++ [f.va, f.vd]
  | .vsel f => f.pred ++ [f.va, f.vb, f.vd]
  | .vcmp f => f.pred ++ [f.va, f.vb, .kw f.d.toNat]
  | .kand f => [.kr f.a.toNat, .kr f.b.toNat, .kw f.d.toNat]
  | .kor f => [.kr f.a.toNat, .kr f.b.toNat, .kw f.d.toNat]
  | .knot f => [.kr f.a.toNat, .kw f.d.toNat]
  | .kmov f => [.kr f.a.toNat, .kw f.d.toNat]
  | .kmovImm f => [.kw f.d.toNat]
  | .vfcvt f => f.pred ++ [f.va, f.vd]
  | .vnarrow f => f.pred ++ XF.group false f.a.toNat (groupOf f.et) ++ [f.vd]
  | .vwiden f => f.pred ++ [f.va] ++ XF.group true f.d.toNat (groupOf f.et)
  | .srcp f => f.pred ++ [f.va, f.vd]
  | .srsq f => f.pred ++ [f.va, f.vd]
  | .sexp2 f => f.pred ++ [f.va, f.vd]
  | .slog2 f => f.pred ++ [f.va, f.vd]
  | .ssin f => f.pred ++ [f.va, f.vd]
  | .scos f => f.pred ++ [f.va, f.vd]
  | .stanh f => f.pred ++ [f.va, f.vd]
  | .ssigm f => f.pred ++ [f.va, f.vd]
  | .stbind f => [f.sa]
  | .stend _ => []
  | .chbind f => [f.sa]
  | .chend _ => []
  | .mxldw f => [f.sa, f.sb]
  | .mxswap _ => []
  | .mxq f => [f.sa]
  | .mxwaitv _ => []
  | .mxwaitvReg f => [f.sa]
  | .mxdrain f => [f.sa, f.sb]
  | .mxdrainCe f => [f.sa]
  | .mxzero _ => []
  | .mxzeroLd f => [f.sa]
  | .mxcb f => [f.sa]
  | .scacc f => [f.sa, f.sb]
  | .mxstat f => [f.sd]
  | .normref f => [f.sa]
  | .normrd f => [f.sa, f.sd]
  | .send f => [f.sa, f.sb, f.sc, .sr f.d.toNat]
  | .mbwait f => [f.sa, f.sd]
  | .mbread f => [f.sd]
  | .mbset f => [f.sa]
  | .hclaim f => [f.sa, f.sb]
  | .hwait f => [f.sd]
  | .hfree _ => []
  | .hstat f => [f.sd]
  | .gather f => [f.sa, f.sb, f.sc]
  | .nzscan f => [f.sa, f.sb, f.sc, f.sd]
  | .rscat f => [f.sa]
  | .vdec f => [f.sa]
  | .gmadd f => [f.sa, f.sb, .sr f.d.toNat]
  | .gmaddJ f => [f.sa, f.sb, .sr f.d.toNat]
  | .gmsub f => [f.sa, f.sb, .sr f.d.toNat]
  | .gmsubJ f => [f.sa, f.sb, .sr f.d.toNat]
  | .gmschur f => [f.sa, .sr f.d.toNat]
  | .gmdamp f => [f.sa, f.sb, .sr f.d.toNat]
  | .gmsend f => [f.sa, f.sb]
  | .gmpoll f => [f.sa, f.sd]
  | .gmmean f => [f.sa, .sr f.d.toNat]
  | .start f => [f.sa]
  | .startR f => [f.sa, f.sb]
  | .reap f => [f.sa]
  | .exit _ => []
  | .resole f => [f.sa, f.sb]
  | .launch f => [f.sa, f.sd]
  | .migrate f => [f.sa, f.sd]
  | .yield _ => []
  | .rdvinit f => [f.sa]
  | .arrive _ => []
  | .rdvwait _ => []
  | .rdvwaitPhase f => [f.sa]
  | .illegalEncoding _ => []
  | .fixedLatencyWrite | .interlockedResult | .stallDistanceEnd | .yieldEnd | .homeAccess | .storeAck | .l1Fill |
  .waitvPoll | .streamPrefetch | .channelWordDelivery | .channelCreditReturn | .engineQueueAccept | .taskStart |
  .swapStart | .codebookLoadStart | .drainStart | .zeroStart | .fillStart | .scaleStart | .entryCompletion |
  .sfuServiceStart | .sfuCompletion | .transferAccept | .lockMessageArrival | .gateRequest | .tokenGrant |
  .tokenArrival | .tokenExpiry | .packetLanding | .notifyLatchDrain | .lastSourceRead | .sendDone |
  .cxlTransferFailure | .gatherRowFetch | .gatherCompletion | .rscatCompletion | .vdecCommandStart | .frameLanding |
  .decodeBatchEnd | .gmsendLanding | .rendezvousArrival | .arriveResponse | .phaseUpdate | .rdvinitAtHome |
  .cloadRefresh | .migrationSend | .migrationReservation | .migrationLanding | .remoteLoadMove | .guestLanding |
  .guestReturn | .guestHomeLanding | .resoleScrub | .resoleSuccessorStart | .pitchRelease | .releaseScrubDone |
  .placement | .saveRoutineStart | .preemptHwSave | .preemptTimeout | .restoreHwWriteback | .pageWalk | .tlbMissRetry
  | .instructionFetchDone | .portRcb | .portLaunch | .portPreempt | .portKill | .portWriteDone | .artCtrlWrite |
  .invalidatePage | .invalidateRange | .invalidateRegion | .invalidateAll | .invalidationDone | .multicastCommit |
  .commitAck | .resync | .resyncDone | .attestationQuote | .moduleReset | .bootStage | .governorWindow | .patrolScrub
  | .gtcSync | .laneSample | .flitReceive | .e2eTimeout | .fabricPacketDelivery | .registerWrite | .linkRetryTimeout |
  .cxlLinkDrop | .cxlLinkReturn => []

namespace State

/-! ### What can be served (R19) -/

/-- How often a list of uses holds a use. -/
def countUse (us : List Use) (u : Use) : Nat := (us.filter fun x => x == u).length

/-- Whether a channel can serve the reads and has room for the writes of an instruction (R19); an unbound one traps. -/
def channelServes (s : State) (cid : Nat) (us : List Use) (n : Nat) : Bool :=
  let c := s.chan cid n
  let pops := countUse us (.sr (28 + n))
  let pushes := countUse us (.sw (28 + n))
  c.bound.isNone || (decide (pops ≤ c.inq.length) && (pushes == 0 || decide (c.out.length + pushes ≤ 8)))

/-- An address in the scratchpad of the core itself (R24, R83). -/
def ownScratch (cid home : Nat) (a : Word) : Bool :=
  match windowOf a with
  | .scratch _ => true
  | .peer f _ => decide ((if f = 0xFFF then home else f) = cid)
  | _ => false

/-- Whether a stream port can serve an instruction's reads, and a write finds fewer than eight of the port's writes
unacknowledged (R116); an unbound port and a use beyond the end trap. -/
def streamServes (s : State) (cid : Nat) (us : List Use) (n : Nat) : Bool :=
  match tfind (s.core cid).streams n with
  | none => true
  | some p =>
    let reads := countUse us (.vr (16 + n))
    let writes := countUse us (.vw (16 + n))
    (p.write || (List.range (Nat.min reads (p.total - p.pos))).all fun k =>
      match p.ahead[k]? with
      | some .here | some (.word _) | some (.failed _) => true
      | _ => false)
    && (!p.write || writes == 0 || decide (p.unacked < 8)
        || match p.addr? p.pos with
           | some a => ownScratch cid p.home a
           | none => true)

/-- An earlier ARRIVE of a context on a point whose response has not come (R204). -/
def arrivesAt (s : State) (serial pt : Nat) : Bool := s.net.any fun m => m.kind == .arrive pt && m.serial == serial

/-- Whether the context of a slot is held before an instruction (R16, R19, R130, R204). -/
def heldFor (s : State) (cid i : Nat) (ins : Instr) : Bool :=
  let us := uses ins
  !((List.range 4).all fun n => s.channelServes cid us n && s.streamServes cid us n)
    || match ins with
       | .arrive f => s.arrivesAt (s.slot cid i).serial (f.aux8.extractLsb' 0 5).toNat
       | .mxldw f =>
         match (s.groupOf cid).bind fun g => engineOf g.pitch f.d.toNat with
         | some e => s.swapWaits (clusterOf cid) e
         | none => false
       | _ => false

/-! ### The checking scoreboard (R22) -/

/-- Whether a register of a slot awaits a fixed-latency result. -/
def awaits (s : State) (cid i off : Nat) : Bool :=
  (s.core cid).pend.any fun p => p.slot == i && p.dest == .reg i off

/-- The offset of the first register that an instruction names and that awaits a result. -/
def firstAwaited (s : State) (cid i : Nat) (us : List Use) : Option Nat :=
  us.findSome? fun u =>
    match u.offset? with
    | some off => if s.awaits cid i off then some off else none
    | none => none

/-! ### Guests (R217) -/

/-- A system register that a guest reaches at home only: those of core or slot scope, and USTORE, which R217 does not let a guest read
(R77, log 31). -/
def homeRegister (n : BitVec 5) : Bool := n.toNat == 9 || decide (11 ≤ n.toNat) || n.toNat == 10

/-- An instruction before which a guest goes home, its memory accesses apart (R217). -/
def atHomeOnly (ins : Instr) : Bool :=
  decide (0x1E ≤ ins.major.toNat)
    || (uses ins).any (fun u => match u with
        | .sr c | .sw c => decide (28 ≤ c)
        | .vr c | .vw c => decide (16 ≤ c) && decide (c < 20)
        | _ => false)
    || match ins with
       | .safept _ | .trap _ | .tret _ | .bkpt _ => true
       | .mfs f | .mts f => homeRegister f.b
       | _ => false

/-! ### Issue (R17) -/

/-- The issue counted (R211) and the instruction's own trace removed from the turn. -/
def countIssue (s : State) : State := (s.modHereCore fun c => { c with issued := c.issued + 1 })

/-- A trap of the issuing instruction: everything else it did is discarded (R25); TRETPC is its own address. -/
def trapHere (s : State) (ins : Instr) (t : TrapInfo) : State :=
  let pc := s.here.pc
  s.countIssue.takeTrap s.curCid s.curSlot t (word0 ins)
    (if t.after then pc + BitVec.ofNat 64 (instrBytes ins) else pc)

/-- The state on which an instruction works: counted, PC at the sequential successor (R17), its STALL distance set
(R21): from the turn in which it issues for good, where it has waited for a walk (log 14). -/
def begin_ (s : State) (ins : Instr) : State :=
  let st := (stallField (word0 ins)).toNat
  let n := s.hereCore.turn + 8 * st
  let s := s.countIssue.modHere fun x =>
    { x with pc := x.pc + BitVec.ofNat 64 (instrBytes ins), lent := s.lender.isSome, own := false, fetched := none
             stall := if st = 0 then none else some n, ins := none, undo := [], since := s.cycle }
  let s := s.setBanks []
  if st = 0 then s
  else s.schedule (.turn s.curCid n) (rankOf s.curCid) .stallDistanceEnd { a := s.curCid, b := s.curSlot }

/-- The collisions of an issue stretch its turn (R24). -/
def stretchTurn (s : State) : State :=
  let k := s.banks.length - s.banks.eraseDups.length
  (s.modHereCore fun c => { c with stretch := k, bankstall := c.bankstall + BitVec.ofNat 64 k }).setBanks []

/-- A memory error that an instruction met is logged although the instruction performs nothing (R282). -/
def logMemerr (s : State) (t : TrapInfo) : State :=
  if t.cause = .memerr then
    match windowOf t.tval with
    | .scratch off => (s.eccRead { home := .scratch s.curCid, addr := off } 1 s.curCid).2
    | _ => s
  else s

/-- A failed word of a stream is fetched again when the instruction that met it is executed again (R116). -/
def refetchFailed (s : State) (us : List Use) : State :=
  (List.range 4).foldl (fun s n =>
    match tfind s.hereCore.streams n with
    | some p =>
      if us.contains (.vr (16 + n)) && p.ahead.any (fun a => match a with | .failed _ => true | _ => false) then
        let keep := p.ahead.takeWhile fun a => match a with | .failed _ => false | _ => true
        let s := s.modHereCore fun c => { c with streams := tset c.streams n { p with ahead := keep } }
        s.schedule (.cycle s.cycle) (rankOf s.curCid) .streamPrefetch { a := s.curCid, b := n }
      else s
    | none => s) s

/-- The walk for a missing translation: 4,608 turns in a deterministic region, and in the order of the die's queue elsewhere
(R270, R271). -/
def startWalk (s : State) (cid i : Nat) (w : Wait) : State :=
  let s := s.modSlot cid i fun x => { x with wait := w, own := true }
  let x := s.slot cid i
  let obj : Obj := { a := cid, b := i, v := BitVec.ofNat 64 x.serial }
  if x.mode.det && !x.guest then s.schedule (s.atTurn cid 4608) (rankOf cid) .pageWalk obj
  else match w with
    | .walk va | .walkRows va _ => s.missed x.region va.toNat obj
    | _ => s

/-- The issuing guest goes home before its instruction (R217, R218). -/
def stopHome (s : State) : State :=
  (s.modHere fun x => { x with wait := .goHome none }).schedule (.cycle s.cycle) (rankOf s.curCid) .guestReturn
    { a := s.curCid, b := s.curSlot }

/-- What an issue that stops leaves: a trap (R25), nothing, a walk, or a move. -/
def stopIssue (s : State) (ins : Instr) : Stop → State
  | .trap t => ((s.logMemerr t).refetchFailed (uses ins)).trapHere ins t
  | .hold => s
  | .miss va => s.startWalk s.curCid s.curSlot (.walk va)
  | .depart n a =>
    if s.here.guest && n == s.here.homeNode then s.stopHome
    else (s.modHere fun x => { x with wait := .depart n a, ins := some ins }).schedule (.cycle s.cycle) (rankOf s.curCid)
      .remoteLoadMove { a := s.curCid, b := s.curSlot }
  | .goHome => s.stopHome

/-- The registers of the slot as the instruction that a walk has kept found them at its issue. -/
def asIssued (s : State) (late : List Late) : State :=
  late.foldr (fun l s => s.wsWrite s.curCid s.curSlot l.off l.before l.mask) s

/-- The results of that time, which stand behind what the instruction does at its issue. -/
def withLate (s : State) (late : List Late) : State :=
  late.foldl (fun s l => s.wsWrite s.curCid s.curSlot l.off l.data l.mask) s

/-- Nothing kept of the walks, or of the refused move (R215), of an instruction that has issued. -/
def issueDone (s : State) : State :=
  if s.here.again || !s.here.late.isEmpty || s.here.refusedNode.isSome then
    s.modHere fun x => { x with walked := none, trans := [], late := [], refusedNode := none }
  else s

end State

/-- The issue of an instruction: a guest's way home, the hold of operands, ILLEGAL of a rounding mode or a context index,
FEATURE, the scoreboard, then its effect (R16, R17, R19, R22, R25, R217). -/
def issueOnce (ins : Instr) (early : State → Option Word) (body : Do Unit) (s : State) : State :=
  if s.here.guest && State.atHomeOnly ins then s.stopIssue ins .goHome
  else if s.heldFor s.curCid s.curSlot ins then s
  else match early s with
  | some v => s.trapHere ins { cause := .illegal, tval := v }
  | none =>
    if !s.hereCore.feat.getLsbD ins.feature then
      s.trapHere ins { cause := .feature, tval := BitVec.ofNat 64 ins.feature }
    else
    match if s.here.mode.sbchk then s.firstAwaited s.curCid s.curSlot (uses ins) else none with
    | some off => s.trapHere ins { cause := .stallCheck, tval := BitVec.ofNat 64 off }
    | none =>
      match body.run (s.begin_ ins) with
      | .ok p => p.2.issueDone.stretchTurn
      | .error e => s.stopIssue ins e

/-- The same, on the registers of its first issue where walks have kept it (R17, R271). -/
def issueWith (ins : Instr) (early : State → Option Word) (body : Do Unit) (s : State) : State :=
  let late := s.here.late
  if late.isEmpty then issueOnce ins early body s else (issueOnce ins early body (s.asIssued late)).withLate late

/-- The outcome of an instruction whose effect is a computation. -/
def issue (ins : Instr) (body : Do Unit) (s : State) : Host.Outcome State Fault Refusal :=
  .next (issueWith ins (fun _ => none) body s)

/-- The same with a check at use that raises ILLEGAL (R33, R188). -/
def issueChecked (ins : Instr) (early : State → Option Word) (body : Do Unit) (s : State) : Host.Outcome State Fault Refusal :=
  .next (issueWith ins early body s)

end Sys2Proof.Machine
end

