-- ==== Sys2Proof/Machine/Net.lean ====
section
/-!
DEFINITION. The way of an access to its home and of its response back (R83, R89 to R91, R221, R235 to R239), the
rendezvous points (R202 to R205), and the waits that end by themselves (R16).
-/
namespace Sys2Proof.Machine

/-- Stores, AMOs, WAITV, arrivals, GMSEND, lock messages and reservations keep one order on a path, loads and other reads another (R238). -/
def MsgKind.storeClass : MsgKind → Bool
  | .load | .fill | .stream _ | .pointer _ | .instr => false
  | _ => true

/-- The step in which an access is performed at its home. -/
def MsgKind.homeStep : MsgKind → Instr
  | .arrive _ => .rendezvousArrival
  | .rdvinit _ _ => .rdvinitAtHome
  | .gmsend => .gmsendLanding
  | .reserve _ _ => .migrationReservation
  | .lockMsg _ => .lockMessageArrival
  | _ => .homeAccess

/-- The step in which its response is taken, where it has one. -/
def MsgKind.responseStep : MsgKind → Option Instr
  | .store | .gmsend => some .storeAck
  | .arrive _ => some .arriveResponse
  | .fill => some .l1Fill
  | .rdvinit _ _ | .reserve _ _ | .lockMsg _ => none
  | _ => some .interlockedResult

/-- The new word of an AMO (R95, R96); none where AMOCAS writes nothing. -/
def amoResult (op : Nat) (m b expect : Word) : Option Word :=
  match op with
  | 0 => some (m + b)
  | 1 => some (m &&& b)
  | 2 => some (m ||| b)
  | 3 => some (m ^^^ b)
  | 4 => some (Alu.min m b)
  | 5 => some (Alu.max m b)
  | 6 => some (Alu.minu m b)
  | 7 => some (Alu.maxu m b)
  | 8 => some b
  | 9 => if m = expect then some b else none
  | 10 => some (BitVec.ofNat 64 (addF f32 .rne (m.toNat % 2 ^ 32) (b.toNat % 2 ^ 32)))
  | _ =>
    let x := m.toNat % 2 ^ 31
    let y := b.toNat % 2 ^ 31
    some (BitVec.ofNat 64 (if 0x7F800000 < x ∨ 0x7F800000 < y then 0x7FC00000 else Nat.max x y))

/-- A rendezvous point; at group start it expects the cores of the pitch. -/
def Group.point (g : Group) (pt : Nat) : Rdv := tget g.rdv pt { expect := g.pitch.length }

/-- The home of a group's rendezvous points: rank 0 (R202). -/
def Group.home (g : Group) : Nat := g.pitch.headD 0

/-- The bytes of a store with their enables. -/
def storeBytes (m : Msg) : List (Byte × Bool) :=
  if m.bytes = [] then (maskedBytes m.data m.mask).take m.size else allOn m.bytes

/-- Consecutive 16-byte units joined where they have one home and follow one another there: each part with its place in the
whole and its bytes (R235). -/
def joinUnits : Nat → List Loc → List (Loc × Nat × Nat)
  | _, [] => []
  | at_, l :: ls =>
    match joinUnits (at_ + 16) ls with
    | (m, _, n) :: r =>
      if m.home = l.home ∧ m.addr = l.addr + 16 ∧ m.tier = l.tier ∧ (m.pa = l.pa + 16 ∨ m.pa = 0 ∧ l.pa = 0) then (l, at_, n + 16) :: r
      else (l, at_, 16) :: (m, at_ + 16, n) :: r
    | [] => [(l, at_, 16)]

namespace State

/-! ### Sending -/

/-- The counts of an access in turns, in a deterministic region (R90, R221). -/
def clocked (s : State) (m : Msg) : Option (Nat × Nat) :=
  match s.groupOf m.cid with
  | some g => if g.mode.det then latency m.cid m.loc else none
  | none => none

/-- The latest cycle of a list of cycles. -/
def latest (l : List Nat) : Nat := l.foldl Nat.max 0

/-- A response on its way, in the order in which the home performed the requests (R238): the line fill first. -/
def sendBack (s : State) (id : Nat) (due : Due) (c : Nat) (m : Msg) : State :=
  let s := s.modMsg id fun m => { m with back := c, ret := some due }
  match m.kind.responseStep with
  | none => s
  | some step =>
    let s := if m.line.isSome && m.kind != .fill then s.schedule due (rankOf m.cid) .l1Fill { a := id } else s
    s.schedule due (rankOf m.cid) step { a := id }

/-- The response of an access that has been performed leaves its home: at its fixed turn, or after a free delay. -/
def respond (s : State) (id : Nat) : State :=
  match s.msg? id with
  | none => s
  | some m =>
    match s.clocked m, m.ret with
    | some _, some due => s.sendBack id due 0 m
    | _, _ =>
      let prev := latest ((s.net.filter fun x => x.cid == m.cid && x.loc.home == m.loc.home && x.performed).map (·.back))
      let d := s.delay
      let c := Nat.max prev (s.cycle + d.1)
      d.2.sendBack id (.cycle c) c m

/-- The packet that carries an access to another module (R84, R286). -/
def sendFabric (s : State) (m : Msg) (node : Nat) : State :=
  (s.inject { id := 0, node := node, kind := .access m.id, region := s.regid m.region, addr := m.loc.addr, cid := m.cid, slot := m.slot
              det := (match s.groupOf m.cid with | some g => g.mode.det | none => false) }).2

/-- What an access that leaves does to the L1 of its core: a store writes through, an AMO or WAITV drops the line of its
word (R85). -/
def throughL1 (s : State) (m : Msg) : State :=
  match m.loc.home with
  | .slice _ =>
    match m.kind with
    | .store => s.l1StoreLong m.cid m.loc.pa (storeBytes m) ((m.size + 15) / 16)
    | .amo _ | .watch => s.l1Drop m.cid m.loc.pa
    | _ => s
  | _ => s

/-- The first cycle from one on that is in no list: a source presents at most one access to a home in a cycle (R236). -/
def firstFree (used : List Nat) (c : Nat) : Nat → Nat
  | 0 => c
  | n + 1 => if used.contains c then firstFree used (c + 1) n else c

/-- An access leaves for its home: it arrives at its counted turn (R90, R221), later by a lag where one instruction sends
many, or after a free delay behind the earlier ones of its class on the same path (R238). -/
def launch (s : State) (m : Msg) (lag : Nat := 0) : State :=
  let s := (s.modMsg m.id fun m => { m with sent := true }).throughL1 m
  match m.loc.home with
  | .node n => s.sendFabric m n
  | _ =>
    if m.loc.home = .scratch m.cid ∧ m.kind.homeStep = .rendezvousArrival then
      s.schedule (.cycle s.cycle) (rankOf m.cid) .rendezvousArrival { a := m.id }
    else
    match s.clocked m with
    | some (arr, back) =>
      let s := s.modMsg m.id fun x => { x with ret := some (s.atTurn m.cid (back + lag)) }
      s.schedule (s.atTurn m.cid (arr + lag)) (rankOf m.cid) m.kind.homeStep { a := m.id }
    | none =>
      let path := s.net.filter fun x => x.cid == m.cid && x.loc.home == m.loc.home && x.id != m.id
      let prev := latest ((path.filter fun x => x.kind.storeClass == m.kind.storeClass).map (·.arrive))
      let d := s.delay
      let used := path.map (·.arrive)
      let c := firstFree used (Nat.max prev (s.cycle + d.1 + lag)) used.length
      let s := d.2.modMsg m.id fun x => { x with arrive := c }
      s.schedule (.cycle c) (rankOf m.cid) m.kind.homeStep { a := m.id }

/-- An access put into the network, and sent unless it has to wait. -/
def post (s : State) (m : Msg) (now : Bool := true) (lag : Nat := 0) : Nat × State :=
  let f := s.fresh
  let m := { m with id := f.1, scope := scopeOf m.cid m.loc.home, sent := now }
  let s := { f.2 with net := f.2.net ++ [m] }
  (f.1, if now then s.launch m lag else s)

/-! ### Performing at the home -/

/-- PEER_GONE and RANGE_LOCK at another scratchpad (R83, R86). -/
def homeRefuses (s : State) (m : Msg) (size : Nat) (write : Bool) : Option Cause :=
  match m.loc.home with
  | .scratch h =>
    if h = m.cid then none
    else if !s.livePitch h m.region then some .peerGone
    else if s.scratchLocked h m.loc.addr size write then some .rangeLock
    else none
  | _ => none

/-- An uncorrectable error of a tier access: its link is down (R275). -/
def tierFails (s : State) (m : Msg) : Bool := m.loc.tier && s.tierLost m.loc.pa

/-- The byte that a store writes at a place of its home, if it writes one there. -/
def msgByte (x : Msg) (at_ : Nat) : Option Byte :=
  if x.loc.addr ≤ at_ ∧ at_ < x.loc.addr + x.size then
    let i := at_ - x.loc.addr
    if x.bytes = [] then (if x.mask.getLsbD i then some (x.data.extractLsb' (8 * i) 8) else none) else x.bytes[i]?
  else none

/-- Bytes with those of a context's own stores laid over them that have not been performed (R239). -/
def overlay (s : State) (loc : Loc) (mine : Msg → Bool) (bs : List Byte) : List Byte :=
  s.net.foldl (fun bs x =>
    if x.kind == .store && x.sent && !x.performed && x.loc.home == loc.home && mine x then
      bs.zipIdx.map fun p => (msgByte x (loc.addr + p.2)).getD p.1
    else bs) bs

/-- The line that a global load brings: the home's bytes with the core's own stores on their way (R85, R239). -/
def lineAt (s : State) (m : Msg) : Option (BitVec 1024) :=
  match m.loc.home with
  | .slice _ =>
    let l := { m.loc with addr := m.loc.addr - m.loc.pa % 128 }
    some (BitVec.ofNat 1024 (leNat (s.overlay l (fun x => x.cid == m.cid) (s.readLoc l 128))))
  | _ => none

/-- A load performed at its home; a stream's read is not merged with stores on their way (R239, R116).  A line filled with it is kept
whole, also where another ECC word of the line has a lasting error (R91, log 61). -/
def performLoad (s : State) (m : Msg) : State :=
  match s.homeRefuses m m.size false with
  | some c => s.modMsg m.id fun x => { x with performed := true, resp := some (.trap { cause := c, tval := m.va, use := m.use }) }
  | none =>
    let e := s.eccRead m.loc m.size m.cid
    let s := e.2
    if e.1 || s.tierFails m then
      s.modMsg m.id fun x => { x with performed := true, resp := some (.trap { cause := .memerr, tval := m.va, use := m.use }) }
    else
      let v := match m.kind with
        | .stream _ => s.readLoc m.loc m.size
        | _ => s.overlay m.loc (fun x => x.serial == m.serial) (s.readLoc m.loc m.size)
      let line := match m.kind with
        | .load | .fill | .pointer _ => s.lineAt m
        | _ => none
      s.modMsg m.id fun x => { x with performed := true, resp := some (.value (BitVec.ofNat 128 (leNat v))), line := line }

/-- A store performed at its home, or discarded there (R83, R86, R91). -/
def performStore (s : State) (m : Msg) : State :=
  let s := s.modMsg m.id fun x => { x with performed := true }
  match s.homeRefuses m m.size true with
  | some _ => (s.setPeerError m.cid m.slot m.serial s.node true).modMsg m.id fun x => { x with resp := some .failed }
  | none => s.storeChecked m.loc (storeBytes m) m.cid

/-- An AMO performed at its home: its read and its write as one access (R94, R95). -/
def performAmo (s : State) (m : Msg) (op : Nat) : State :=
  match s.homeRefuses m 8 true with
  | some c =>
    s.modMsg m.id fun x => { x with performed := true, resp := some (.trap { cause := c, tval := m.va, use := m.use, write := true }) }
  | none =>
    let e := s.eccRead m.loc 8 m.cid
    let s := e.2
    if e.1 then
      s.modMsg m.id fun x => { x with performed := true, resp := some (.trap { cause := .memerr, tval := m.va, use := m.use, write := true }) }
    else
      let old := BitVec.ofNat 64 (leNat (s.readLoc m.loc 8))
      let s := match amoResult op old (m.data.setWidth 64) m.expect with
        | some v => s.storeLoc m.loc (allOn (leBytes 8 v.toNat))
        | none => s
      s.modMsg m.id fun x => { x with performed := true, resp := some (.value (old.setWidth 128)) }

/-- Watches in use at a home by the watchers of one kind: the core's own contexts, or its peers; one pool at a slice (R93). -/
def watchFree (s : State) (m : Msg) : Bool :=
  let used := s.net.filter fun x => x.kind == .watch && x.watching && x.loc.home == m.loc.home
  match m.loc.home with
  | .scratch h => if h = m.cid then true else decide ((used.filter fun x => x.cid != h).length < 32)
  | _ => decide (used.length < 64)

/-- A WAITV's read and watch placement, one access at the home (R93, R237). -/
def performWatch (s : State) (m : Msg) : State :=
  match s.homeRefuses m 8 false with
  | some c =>
    (s.modMsg m.id fun x => { x with performed := true, resp := some (.trap { cause := c, tval := m.va, use := m.use }) }).respond m.id
  | none =>
    let e := s.eccRead m.loc 8 m.cid
    let s := e.2
    if e.1 then
      (s.modMsg m.id fun x => { x with performed := true, resp := some (.trap { cause := .memerr, tval := m.va, use := m.use }) }).respond m.id
    else
      let v := BitVec.ofNat 64 (leNat (s.readLoc m.loc 8))
      if v ≠ m.expect then
        (s.modMsg m.id fun x => { x with performed := true, resp := some (.value (v.setWidth 128)) }).respond m.id
      else if s.watchFree m then s.modMsg m.id fun x => { x with performed := true, watching := true }
      else
        (s.modMsg m.id fun x => { x with performed := true }).schedule (s.atTurn m.cid 1024) (rankOf m.cid) .waitvPoll
          { a := m.cid, b := m.slot, c := m.id }

/-! ### Rendezvous points (R202 to R204) -/

/-- A context parked in RDVWAIT tests its phase on its core (R202, R205). -/
def testRendezvous (pt cid : Nat) (s : State) (i : Nat) : State :=
  let x := s.slot cid i
  match x.wait with
  | .rendezvous pt' p =>
    if pt' ≠ pt ∨ !x.live then s
    else
      let goal := match p with
        | some v => v
        | none => tget x.phases pt 0
      let here := tget (s.core cid).phase pt 0
      if s.arrivesAt x.serial pt ∨ ¬ (here - goal).toNat < 2 ^ 15 then s else (s.l1Clear cid).wake cid i
  | _ => s

/-- A new PHASE received on a core wakes the waits that it ends. -/
def receivePhase (s : State) (cid pt : Nat) (p : BitVec 16) : State :=
  (s.modCore cid fun c => { c with phase := tset c.phase pt p }).eachSlot (testRendezvous pt cid)

/-- The latest cycle in which a PHASE of a group on its way to a core arrives. -/
def phasesTo (s : State) (c gid : Nat) : Nat :=
  latest (s.agenda.map fun e =>
    match e.ins, e.due with
    | .phaseUpdate, .cycle n => if e.obj.a = c ∧ e.obj.c = gid then n else 0
    | _, _ => 0)

/-- What is due after a free delay comes no earlier than a cycle. -/
def noEarlier (c : Nat) : Due → Due
  | .cycle n => .cycle (Nat.max n c)
  | d => d

/-- The home sends a new PHASE to every core of the pitch, at its store-arrival count (R202, R221), behind those that it has
sent there before (R238). -/
def sendPhase (s : State) (g : Group) (pt : Nat) (p : BitVec 16) : State :=
  g.pitch.foldl (fun s c =>
    if c = g.home then s.receivePhase c pt p
    else
      let d := s.dueIn g.home g.mode.det (arrivalTurns g.home c)
      d.2.schedule (noEarlier (s.phasesTo c g.gid) d.1) (rankOf g.home) .phaseUpdate
        { a := c, b := pt, c := g.gid, v := p.setWidth 64 }) s

/-- A rendezvous point after a change: a phase that is complete begins the next (R203, R204). -/
def settlePoint (s : State) (gid pt : Nat) (r : Rdv) : State :=
  let done := decide (r.expect ≤ r.arrived)
  let r' := if done then { r with phase := r.phase + 1, arrived := 0 } else r
  let s := s.modGroup gid fun g => { g with rdv := tset g.rdv pt r' }
  match s.group? gid with
  | some g => if done then s.sendPhase g pt r'.phase else s
  | none => s

/-- One arrival counted at the home (R204): the phase before it, and the state. -/
def countArrival (s : State) (gid pt : Nat) : BitVec 16 × State :=
  match s.group? gid with
  | none => (0, s)
  | some g =>
    let r := g.point pt
    (r.phase, s.settlePoint gid pt { r with arrived := r.arrived + 1 })

/-- EXPECT set at the home (R203). -/
def setExpect (s : State) (gid pt n : Nat) : State :=
  match s.group? gid with
  | none => s
  | some g => s.settlePoint gid pt { g.point pt with expect := n }

/-- An arrival of a unit that works for a core (R204): that of a matrix engine counts at once with the home on that core, and
else travels as a peer store from there; that of a collective engine or a decoder, whose source number is given, is
unclocked (R221). -/
def unitArrival (s : State) (cid gid pt : Nat) (unit : Option Nat) : State :=
  match s.group? gid with
  | none => s
  | some g =>
    let m : Msg := { id := 0, kind := .arrive pt, cid := cid, slot := 16, serial := 0, region := gid, va := 0
                     loc := { home := .scratch g.home, addr := 0 }, size := 0, ins := .arriveResponse }
    match unit with
    | none => if g.home = cid then (s.countArrival gid pt).2 else (s.post m).2
    | some n =>
      let p := s.post m false
      p.2.unclocked (rankOf n) .rendezvousArrival { a := p.1 }

/-! ### Waits that end by themselves -/

/-- A store of more than 16 bytes: at once in the own scratchpad, elsewhere one message to each home that it reaches. -/
def storeLong (s : State) (cid i : Nat) (va : Word) (locs : List Loc) (bs : List Byte) : State :=
  (joinUnits 0 locs).foldl (fun s p =>
    let part := (bs.drop p.2.1).take p.2.2
    if p.1.home = .scratch cid then s.storeChecked p.1 (allOn part) cid
    else
      let x := s.slot cid i
      (s.post { id := 0, kind := .store, cid := cid, slot := i, serial := x.serial, region := x.region
                va := va + BitVec.ofNat 64 p.2.1, loc := p.1, size := part.length, bytes := part, ins := .storeAck }).2) s

/-- A context goes on, or waits for its stores where it has passed the limit (R89). -/
def wakeLimited (s : State) (cid i : Nat) : State :=
  if 64 < s.ustore (s.slot cid i).serial then s.modSlot cid i fun x => { x with wait := .ustore } else s.wake cid i

/-- Set bits of a set of nodes (R100). -/
def nodeCount (b : BitVec 1024) : Nat := ((List.range 1024).filter b.getLsbD).length

/-- Nothing of a context is under way that a move waits for (R193, R215): no store, no fixed-latency result, no ARRIVE. -/
def quiet (s : State) (cid i : Nat) : Bool :=
  let x := s.slot cid i
  s.ustore x.serial == 0 && !(s.core cid).pend.any (fun p => p.slot == i)
    && !s.net.any fun m => match m.kind with | .arrive _ => m.serial == x.serial | _ => false

/-- What a FENCE does at its end (R98, R100): the L1 of scope P and S; FENCE.S reads and clears the error set in one step,
with the bitmap as an ordinary store.  How its context goes on is given. -/
def fenceEffect (s : State) (cid i scope : Nat) (d : Dest) (bitmap : Option (Word × List Loc)) (isS : Bool) (late : BitVec 1024)
    (goOn : State → State) : State :=
  let s := if 2 ≤ scope then s.l1Clear cid else s
  if !isS then goOn s
  else
    let x := s.slot cid i
    let bits := x.perr
    let s := s.modSlot cid i fun x => { x with perr := late }
    let s := s.deliver cid d (BitVec.ofNat 64 (nodeCount bits))
    let s := goOn s
    match bitmap with
    | none => s
    | some (va, locs) => s.storeLong cid i va locs (leBytes 128 bits.toNat)

/-- The end of a FENCE for which its context has waited. -/
def endFence (s : State) (cid i scope : Nat) (d : Dest) (bitmap : Option (Word × List Loc)) (isS : Bool) (late : BitVec 1024) : State :=
  s.fenceEffect cid i scope d bitmap isS late fun s => s.wake cid i

/-- A context whose wait may have ended tests it again (R16). -/
def settle (s : State) (cid i : Nat) : State :=
  let x := s.slot cid i
  if !x.live then s else
  match x.wait with
  | .ustore => if s.ustore x.serial < 64 then s.wake cid i else s
  | .release scope id =>
    if s.unackedIn x.serial scope id ≠ 0 then s
    else
      match s.msg? id with
      | none => s.wake cid i
      | some m =>
        let s := s.launch m
        match m.kind with
        | .amo _ => s.modSlot cid i fun x => { x with wait := .result id }
        | _ => s.wakeLimited cid i
  | .fence scope d bitmap isS late =>
    if s.unackedIn x.serial scope = 0 then s.endFence cid i scope d bitmap isS late else s
  | .stend port rebind =>
    match tfind (s.core cid).streams port with
    | some p =>
      if p.unacked ≠ 0 ∨ p.pending ≠ 0 then s
      else
        match rebind with
        | none => (s.modCore cid fun c => { c with streams := tdel c.streams port }).wake cid i
        | some q =>
          ((s.modCore cid fun c => { c with streams := tset c.streams port q }).schedule (.cycle s.cycle) (rankOf cid)
            .streamPrefetch { a := cid, b := port }).wake cid i
    | none => s.wake cid i
  | .chend ch b => if s.drained cid ch then (s.endChannel cid ch b).wake cid i else s
  | .depart _ _ =>
    if s.quiet cid i then s.schedule (.cycle s.cycle) (rankOf cid) .remoteLoadMove { a := cid, b := i } else s
  | .goHome _ =>
    if s.quiet cid i then s.schedule (.cycle s.cycle) (rankOf cid) .guestReturn { a := cid, b := i } else s
  | .migrate _ t _ =>
    if s.quiet cid i then s.schedule (.cycle s.cycle) (rankOf cid) .migrationSend { a := cid, b := i, c := t } else s
  | _ => s

/-- The slots of a core tested again. -/
def settleCore (s : State) (cid : Nat) : State := s.eachSlot fun s i => s.settle cid i

/-! ### Stores that end or leave (R89, R102, R116, R117) -/

/-- The count of a bound write stream lowered. -/
def lowerStream (s : State) (cid port : Nat) (f : Stream → Stream) : State :=
  s.modCore cid fun c =>
    match tfind c.streams port with
    | some p => if p.write then { c with streams := tset c.streams port (f p) } else c
    | none => c

/-- A word of a write stream has been performed in the own scratchpad (R117). -/
def streamWritten (s : State) (cid port : Nat) : State :=
  (s.lowerStream cid port fun p => { p with pending := p.pending - 1 }).settleCore cid

/-- A store of a context has ended: USTORE falls, and with it what waits for it; the port of a write stream counts it too
(R89, R116). -/
def storeEnds (s : State) (m : Msg) : State :=
  let s := s.dropMsg m.id
  let s := match m.port with
    | none => s
    | some n => s.lowerStream m.cid n fun p => { p with unacked := p.unacked - 1 }
  let s := s.settleCore m.cid
  match s.ownerOf m.cid m.slot m.serial with
  | some (c, i) => s.settle c i
  | none => s

/-- A store that has waited for its result leaves (R102); with no lane on, none is sent (log 54). -/
def leave (s : State) (id : Nat) (data : VWord) (mask : BitVec 16) : State :=
  let s := s.modMsg id fun m => { m with data := data, mask := mask }
  match s.msg? id with
  | some m => if mask = 0 then s.storeEnds m else s.launch m
  | none => s

end State
end Sys2Proof.Machine
end

