-- ==== Sys2Proof/Machine/Operands.lean ====
section
/-!
DEFINITION. The operand forms (R18 to R20, R101, R102, R115 to R119): registers, channels, stream ports and pointer
operands, read and written in the order of their uses, and where results go.
-/
namespace Sys2Proof.Machine

/-- A trap of a use of an operand. -/
def trapOf {α : Type} (c : Cause) (v : Word) (use : Nat := 0) (write : Bool := false) : Do α :=
  throw (.trap { cause := c, tval := v, use := use, write := write })

/-- What an instruction takes and would have to give back (R25). -/
def noteUndo (u : Undo) : Do Unit := modify fun s => s.modHere fun x => { x with undo := u :: x.undo }

/-! ### Registers -/

/-- n bytes of the own workspace at an offset from WP, with the check of their ECC words (R281). -/
def readWord (use off n : Nat) : Do Nat := do
  let s ← get
  if s.here.guest || s.errorFree then pure (s.wsRead s.curCid s.curSlot off n)
  else
    let a := s.curSlot * 0x400 + off
    let e := s.eccRead { home := .scratch s.curCid, addr := a } n s.curCid
    if e.1 then trapOf .memerr (BitVec.ofNat 64 (a / 16 * 16)) use
    else
      set e.2
      pure (s.wsRead s.curCid s.curSlot off n)

/-- A fixed-latency result, written at the turn of its latency after the issuing turn (R20). -/
def later (lat : Nat) (dest : Dest) (data : VWord) (mask : BitVec 16) : Do Unit :=
  modify fun s =>
    let due := s.hereCore.turn + lat
    let p : Pend := { due := due, slot := s.curSlot, dest := dest, data := data, mask := mask }
    let known := s.hereCore.pend.any fun q => q.due == due
    let s := s.modHereCore fun c => { c with pend := c.pend ++ [p] }
    if known then s else s.schedule (.turn s.curCid due) (rankOf s.curCid) .fixedLatencyWrite { a := s.curCid }

/-! ### Channels (R119) -/

/-- A pop of the oldest inbound word. -/
def popChannel (use n : Nat) : Do Word := do
  let s ← get
  if (s.chan s.curCid n).bound.isNone then trapOf .channel (BitVec.ofNat 64 (28 + n)) use
  else
    match s.popIn s.curCid n with
    | none => throw .hold
    | some (w, s') =>
      set s'
      noteUndo (.pop n w)
      pure w.word

/-- A place taken in an outbound queue. -/
def takePlace (use n : Nat) : Do Dest := do
  let s ← get
  let c := s.chan s.curCid n
  if c.bound.isNone then trapOf .channel (BitVec.ofNat 64 (28 + n)) use true
  else if 8 ≤ c.out.length then throw .hold
  else
    let w : OutWord := { seq := c.nextSeq, word := none, cid := s.curCid, slot := s.curSlot, serial := s.here.serial }
    set (s.modChan s.curCid n fun c => { c with nextSeq := c.nextSeq + 1, out := c.out ++ [w] })
    noteUndo (.place n c.nextSeq)
    pure (.place n c.nextSeq)

/-! ### Scalar fields (R18) -/

/-- A scalar field read. -/
def readS (use : Nat) (code : BitVec 5) : Do Word := do
  let n := code.toNat
  if n = 0 then pure 0
  else if n < 28 then
    let v ← readWord use (8 * n) 8
    pure (BitVec.ofNat 64 v)
  else popChannel use (n - 28)

/-- Where the result of a scalar field goes: a place is taken now (R119). -/
def destS (use : Nat) (code : BitVec 5) : Do Dest := do
  let n := code.toNat
  if n = 0 then pure .none
  else if n < 28 then do
    let s ← get
    pure (.reg s.curSlot (8 * n))
  else takePlace use (n - 28)

/-- A fixed-latency scalar result: w0 discards it. -/
def writeS (use : Nat) (code : BitVec 5) (lat : Nat) (v : Word) : Do Unit := do
  let d ← destS use code
  match d with
  | .none => pure ()
  | d => later lat d (v.setWidth 128) (lowMask 8)

/-! ### Reads of memory by an instruction -/

/-- A value that an operand gives now, or after an access outside the own scratchpad. -/
inductive VRead where
  | now (v : VWord)
  | later (va : Word) (loc : Loc)
  deriving DecidableEq, Repr

/-- Bytes of the own scratchpad read at issue (R89, R91). -/
def readOwn (use : Nat) (va : Word) (loc : Loc) (n : Nat) : Do Nat := do
  let s ← get
  let e := if s.errorFree then (false, s) else s.eccRead loc n s.curCid
  if e.1 then trapOf .memerr va use
  else
    set e.2
    pure (leNat (s.readLoc loc n))

/-- The checks of R82 for the issuing context. -/
def checked (va : Word) (size use : Nat) (k : Access) : Do Loc := do
  let s ← get
  match checkAccess s s.curCid s.here va size use k with
  | .error e => throw e
  | .ok (l, s') =>
    set s'
    pure l

/-- A checked read of up to 16 bytes: now in the own scratchpad, later elsewhere; a home on another module moves the
context, and one that has refused the move gives 0 and sets its error bit (R215), of an instruction that is interlocked all the
same (R23). -/
def readMem (use : Nat) (va : Word) (n : Nat) : Do VRead := do
  let l ← checked va n use .load
  let s ← get
  match l.home with
  | .node k =>
    if s.here.refusedNode = some k then
      set (s.modHere fun x => { x with perr := x.perr ||| BitVec.twoPow 1024 k, own := true })
      pure (.now 0)
    else throw (.depart k l.addr)
  | h =>
    if h = .scratch s.curCid then
      let v ← readOwn use va l n
      pure (.now (BitVec.ofNat 128 v))
    else pure (.later va l)

/-! ### Pointer operands (R18, R19, R24) -/

/-- The bank of an access of the own scratchpad is noted for the turn (R24). -/
def noteBank (l : Loc) : Do Unit :=
  modify fun s => if l.home = .scratch s.curCid then s.setBanks (s.banks ++ [l.addr / 16 % 3]) else s

/-- 16 added to a pointer. -/
def bumpPointer (n : Nat) (old : Word) : Do Unit := do
  modify fun s => s.setWord64 s.curCid s.curSlot (wsP n) (old + 16)
  noteUndo (.pointer n old)

/-- A read through a pointer. -/
def readPointer (use n : Nat) : Do VRead := do
  let p ← readWord use (wsP n) 8
  let va := BitVec.ofNat 64 p
  let r ← readMem use va 16
  match r, windowOf va with
  | .now _, .scratch off => modify fun s => s.setBanks (s.banks ++ [off / 16 % 3])
  | .now _, .peer _ off => modify fun s => s.setBanks (s.banks ++ [off / 16 % 3])
  | _, _ => pure ()
  bumpPointer n va
  pure r

/-! ### Stream ports (R115, R116) -/

/-- The port of a stream operand that has a word left for its direction; anything else traps CHANNEL, use in the wrong direction too,
of which the spec says nothing (R116, log 61). -/
def portFor (use n : Nat) (write : Bool) : Do (Stream × Word) := do
  let s ← get
  match tfind s.hereCore.streams n with
  | none => trapOf .channel (BitVec.ofNat 64 (16 + n)) use write
  | some p =>
    match p.addr? p.pos with
    | none => trapOf .channel (BitVec.ofNat 64 (16 + n)) use write
    | some va => if p.write = write then pure (p, va) else trapOf .channel (BitVec.ofNat 64 (16 + n)) use write

/-- The words ahead that lie in the own scratchpad are at hand; a word elsewhere is fetched, up to eight ahead (R116). -/
def State.extendAhead (s : State) (cid port : Nat) : Nat → State
  | 0 => s
  | fuel + 1 =>
    match tfind (s.core cid).streams port with
    | none => s
    | some p =>
      if p.write || 8 ≤ p.ahead.length then s
      else match p.addr? (p.pos + p.ahead.length) with
        | none => s
        | some va =>
          if ownScratch cid p.home va then
            State.extendAhead (s.modCore cid fun c => { c with streams := tset c.streams port { p with ahead := p.ahead ++ [.here] } })
              cid port fuel
          else s.schedule (.cycle s.cycle) (rankOf cid) .streamPrefetch { a := cid, b := port }

/-- The next word of a read stream. -/
def readStream (use n : Nat) : Do VRead := do
  let pv ← portFor use n false
  let p := pv.1
  let va := pv.2
  match p.ahead.head? with
  | some (.word v) =>
    modify fun s => (s.modHereCore fun c =>
      { c with streams := tset c.streams n { p with pos := p.pos + 1, ahead := p.ahead.tail } }).extendAhead s.curCid n 8
    noteUndo (.stream n (some v))
    pure (.now v)
  | some (.failed t) => throw (.trap { t with use := use })
  | some (.coming _) => throw .hold
  | _ =>
    let s ← get
    if State.ownScratch s.curCid p.home va then
      let l ← checked va 16 use .load
      let v ← readOwn use va l 16
      modify fun s => (s.modHereCore fun c =>
        { c with streams := tset c.streams n { p with pos := p.pos + 1, ahead := p.ahead.tail } }).extendAhead s.curCid n 8
      noteUndo (.stream n none)
      pure (.now (BitVec.ofNat 128 v))
    else throw .hold

/-! ### Vector fields (R18) -/

/-- A vector field read. -/
def readV (use : Nat) (code : BitVec 5) : Do VRead := do
  let n := code.toNat
  if n < 16 then
    let v ← readWord use (wsQ n) 16
    pure (.now (BitVec.ofNat 128 v))
  else if n < 20 then readStream use (n - 16)
  else readPointer use (n - 24)

/-- A store that an instruction will send at its readable turn: it counts in USTORE from now on (R102). -/
def reserveStore (use : Nat) (va : Word) (l : Loc) (port : Option Nat) (ins : Instr) : Do Nat := do
  let s ← get
  let m : Msg :=
    { id := 0, kind := .store, cid := s.curCid, slot := s.curSlot, serial := s.here.serial, region := s.here.region
      va := va, loc := l, size := 16, use := use, port := port, ins := ins }
  let p := s.post m false
  set p.2
  noteUndo (.store p.1)
  pure p.1

/-- An interlocked instruction that ends with its issuing turn: the next one issues in an own turn (R23). -/
def ownNext : Do Unit := modify fun s => s.modHere fun x => { x with own := true }

/-- The place of a checked vector write, through a pointer or a port.  Outside the own scratchpad a store is set aside at issue and counts
in USTORE; with no lane on it is withdrawn when the result is there, as R107 has it for VST (log 54). -/
def memDest (use : Nat) (va : Word) (port : Option Nat) (ins : Instr) : Do VDest := do
  let l ← checked va 16 use .store
  let s ← get
  if l.home = .scratch s.curCid then
    match port with
    | none => pure (.mem va l none)
    | some n => pure (.stream n va l)
  else
    let id ← reserveStore use va l port ins
    pure (.mem va l (some id))

/-- Where the result of a vector field goes: checked, and pointer and stream advanced, at issue (R101, R102, R121).  A pointer
outside the local window interlocks the instruction (R19, R23). -/
def destV (use : Nat) (code : BitVec 5) (ins : Instr) : Do VDest := do
  let n := code.toNat
  if n < 16 then pure (.q n)
  else if n < 20 then
    let pv ← portFor use (n - 16) true
    let p := pv.1
    let d ← memDest use pv.2 (some (n - 16)) ins
    let away := match d with | .mem _ _ (some _) => true | _ => false
    if away && 8 ≤ p.unacked then throw .hold
    modify fun s => s.modHereCore fun c =>
      { c with streams := tset c.streams (n - 16)
                { p with pos := p.pos + 1, unacked := p.unacked + (if away then 1 else 0)
                         pending := p.pending + (if away then 0 else 1) } }
    noteUndo (.written (n - 16) away)
    pure d
  else
    let p ← readWord use (wsP (n - 24)) 8
    let va := BitVec.ofNat 64 p
    let d ← memDest use va none ins
    match d with
    | .mem _ _ (some _) => ownNext
    | .mem _ l none => noteBank l
    | _ => pure ()
    bumpPointer (n - 24) va
    pure d

/-- A vector result written a fixed latency after issue: those bytes that the mask enables. -/
def putV (lat : Nat) (d : VDest) (data : VWord) (mask : BitVec 16) : Do Unit := do
  let s ← get
  match d with
  | .q n => later lat (.reg s.curSlot (wsQ n)) data mask
  | .k n => later lat (.reg s.curSlot (wsK n)) data (lowMask 2)
  | .mem _ l none => later lat (.scratch l.addr) data mask
  | .stream n _ l => later lat (.stream n l.addr) data mask
  | .mem _ _ (some id) => later lat (.send id) data mask

/-- A vector result written into the own scratchpad. -/
def State.placeOwn (s : State) (cid : Nat) (d : VDest) (data : VWord) (mask : BitVec 16) : State :=
  match d with
  | .mem _ l _ | .stream _ _ l => if mask = 0 then s else s.storeChecked l (maskedBytes data mask) cid
  | _ => s

/-- A vector result written at once, when the response it waited for arrives (R23). -/
def State.placeV (s : State) (cid i : Nat) (d : VDest) (data : VWord) (mask : BitVec 16) : State :=
  match d with
  | .mem _ _ none => s.placeOwn cid d data mask
  | .stream port _ _ => (s.placeOwn cid d data mask).streamWritten cid port
  | .q n => s.regWrite cid i (wsQ n) data mask
  | .k n => s.regWrite cid i (wsK n) data (lowMask 2)
  | .mem _ _ (some id) => s.leave id data mask

/-! ### Predicates (R53, R101) -/

/-- The lanes that are on, as bits 0 to 15. -/
def readPred (f : XF) : Do (BitVec 16) := do
  if f.k = 0 then pure 0xFFFF
  else
    let v ← readWord 0 (wsK f.k.toNat) 2
    let p := BitVec.ofNat 16 v
    pure (if f.kneg then ~~~ p else p)

/-- The bytes of the lanes of an element type that are on. -/
def laneMask (w : Nat) (on : BitVec 16) : BitVec 16 :=
  BitVec.ofNat 16 (((List.range 16).filter fun i => on.getLsbD (8 * i / (if w = 0 then 8 else w))).foldl (fun a i => a + 2 ^ i) 0)

/-! ### Giving back (R25) -/

/-- What an interlocked instruction took at issue is given back when its response traps. -/
def State.undoOne (cid i : Nat) (s : State) (u : Undo) : State :=
  match u with
  | .pointer n old => s.setWord64 cid i (wsP n) old
  | .pop ch w => s.modChan cid ch fun c => { c with inq := w :: c.inq }
  | .stream n w =>
    match tfind (s.core cid).streams n with
    | some p =>
      let p := { p with pos := p.pos - 1 }
      let p := { p with ahead := (match w with | some v => .word v | none => .here) :: p.ahead }
      s.modCore cid fun c => { c with streams := tset c.streams n p }
    | none => s
  | .written n away =>
    match tfind (s.core cid).streams n with
    | some p =>
      let p := { p with pos := p.pos - 1, unacked := p.unacked - (if away then 1 else 0)
                        pending := p.pending - (if away then 0 else 1) }
      (s.modCore cid fun c => { c with streams := tset c.streams n p }).settleCore cid
    | none => s
  | .place ch seq => s.withdrawPlace (.place ch seq) cid
  | .rnd old => s.setWord64 cid i wsRnd old
  | .store id => s.dropMsg id

/-- What an instruction that traps with its response took at issue is given back (R25).  The stretch of its turn and the increase of
BANKSTALL stay, since that turn has passed (log 61). -/
def State.undoAll (s : State) (cid i : Nat) : State :=
  ((s.slot cid i).undo.foldl (State.undoOne cid i) s).modSlot cid i fun x => { x with undo := [] }

/-! ### Rounding (R33, R34, R37) -/

/-- The mode number that an override selects: 0 to 5 as RND.MODE numbers them. -/
def overrideMode (ro : BitVec 3) (rnd : Word) : Nat :=
  match ro.toNat with
  | 0 => (rnd.toNat) % 8
  | n => n - 1

/-- SRBITS as used (R33). -/
def srBitsOf (rnd : Word) : Nat :=
  let b := rnd.toNat / 256 % 32
  if b = 0 ∨ 24 < b then 24 else b

/-- The rounding mode of a number, with the draw of SRCTR value i (R36, R37). -/
def modeOf (m bits ctr : Nat) (seed : Word) (tag : Nat) (i : Nat) : Mode :=
  match m with
  | 0 => .rne
  | 1 => .rtz
  | 2 => .rdn
  | 3 => .rup
  | 4 => .rna
  | _ => .sr bits (draw seed (BitVec.ofNat 64 tag) ((ctr + i) % 2 ^ 32)).toNat

/-- The RND value with n more draws consumed. -/
def rndAfter (rnd : Word) (n : Nat) : Word :=
  BitVec.ofNat 64 ((rnd.toNat / 2 ^ 32 + n) % 2 ^ 32 * 2 ^ 32 + rnd.toNat % 2 ^ 32)

/-- SRCTR advanced by the draws of an instruction (R37). -/
def consume (rnd : Word) (n : Nat) : Do Unit := do
  if n = 0 then pure ()
  else
    modify fun s => s.setWord64 s.curCid s.curSlot wsRnd (rndAfter rnd n)
    noteUndo (.rnd rnd)

/-- The rounding of number i that an instruction makes. -/
def VInputs.rm (v : VInputs) (i : Nat) : Mode := modeOf v.mode v.srbits v.srctr v.seed v.tag i

/-- The rounding of an instruction of a rounding kind (R34, R37), and the RND value where it was read. -/
def readRounding (ro : BitVec 3) : Do (VInputs × Word) := do
  let rnd ← if ro = 0 ∨ ro = 6 then readWord 0 wsRnd 8 else pure 0
  let rnd := BitVec.ofNat 64 rnd
  let m := overrideMode ro rnd
  let seed ← if m = 5 then readWord 0 wsSeed 8 else pure 0
  let s ← get
  pure ({ lanes := 0xFFFF, mode := m, srbits := srBitsOf rnd, srctr := rnd.toNat / 2 ^ 32, seed := BitVec.ofNat 64 seed
          tag := s.here.idx }, rnd)

/-- ILLEGAL at issue under a MODE of 6 or 7, with TVAL the RND value (R33). -/
def modeIllegal (ro : BitVec 3) (s : State) : Option Word :=
  let rnd := s.word64 s.curCid s.curSlot wsRnd
  if ro = 0 ∧ 6 ≤ rnd.toNat % 8 then some rnd else none

end Sys2Proof.Machine
end

