-- ==== Sys2Proof/Machine/Memory.lean ====
section
/-!
DEFINITION. Loads and stores (R87 to R91), PFETCH, L1INV and WAITV (R92, R93).
-/
namespace Sys2Proof.Machine

/-- The bytes of a SIZE code and whether a load sign-extends (R57). -/
def sizeBytes (size : BitVec 3) : Nat := 2 ^ (size.toNat % 4)
def sizeSigned (size : BitVec 3) : Bool := size.toNat < 3

/-- A loaded value of n bytes extended to 64 bits (R87). -/
def extend (n : Nat) (signed : Bool) (v : Nat) : Word :=
  if signed then (match n with
    | 1 => (BitVec.ofNat 8 v).signExtend 64
    | 2 => (BitVec.ofNat 16 v).signExtend 64
    | 4 => (BitVec.ofNat 32 v).signExtend 64
    | _ => BitVec.ofNat 64 v)
  else BitVec.ofNat 64 v

/-- The context waits from its issuing turn onwards (R23). -/
def wait (w : Wait) (ins : Instr) : Do Unit := modify fun s => s.modHere fun x => { x with wait := w, own := true, ins := some ins }

/-- An access of the issuing context. -/
def message (s : State) (kind : MsgKind) (use : Nat) (va : Word) (loc : Loc) (size : Nat) (ins : Instr) : Msg :=
  { id := 0, kind := kind, cid := s.curCid, slot := s.curSlot, serial := s.here.serial, region := s.here.region, va := va
    loc := loc, size := size, use := use, ins := ins }

/-- A load that leaves for its home, or takes its value from the L1 at issue: a hit is answered at the same count (R85,
R221).  Of a page of the CXL tier whose expander does not serve it, no line is used (R275). -/
def State.postLoad (s : State) (m : Msg) : Nat × State :=
  let hit := match m.loc.home with
    | .slice _ => if m.loc.tier && s.tierLost m.loc.pa then none else s.l1Get m.cid m.loc.pa
    | _ => none
  match hit with
  | none => s.post m
  | some d =>
    let p := s.post m false
    let v := leNat (lineBytes d (m.loc.pa % 128) m.size)
    let s := p.2.modMsg p.1 fun x => { x with sent := true, performed := true, resp := some (.value (BitVec.ofNat 128 v)) }
    let s := match s.clocked m with
      | some (_, back) => s.modMsg p.1 fun x => { x with ret := some (s.atTurn m.cid back) }
      | none => s
    (p.1, s.respond p.1)

/-- LD (R87, R88): fixed latency in the own scratchpad, interlocked elsewhere (R89).  A load of a node that has refused its
move completes with 0 (R215), and is an acquire all the same. -/
def load (ins : Instr) (d base : BitVec 5) (disp : Word) (size : BitVec 3) (acq : Bool) : Do Unit := do
  let b ← readS 1 base
  let va := b + disp
  let n := sizeBytes size
  let r ← readMem 1 va n
  match r with
  | .now v =>
    writeS 4 d 6 (extend n (sizeSigned size) v.toNat)
    match windowOf va with
    | .global _ => if acq then modify fun s => s.l1Clear s.curCid
    | _ => pure ()
  | .later va loc =>
    let dest ← destS 4 d
    let s ← get
    let p := s.postLoad { message s .load 1 va loc n ins with signed := sizeSigned size, acq := acq, dest := dest }
    set p.2
    wait (.result p.1) ins

/-- A store that leaves for its home: counted in USTORE, and its context waits when it passes the limit (R89). -/
def postStore (m : Msg) (ins : Instr) : Do Unit := do
  let s ← get
  set (s.post m).2
  let s ← get
  if 64 < s.ustore s.here.serial then wait .ustore ins

/-- A message that goes out once the earlier stores of its scope are acknowledged (R88). -/
def postRelease (m : Msg) (ins : Instr) : Do Unit := do
  let s ← get
  let p := s.post m false
  set p.2
  wait (.release (scopeOf s.curCid m.loc.home) p.1) ins

/-- ST (R87, R88). -/
def store (ins : Instr) (src base : BitVec 5) (disp : Word) (size : BitVec 3) (rel : Bool) : Do Unit := do
  let b ← readS 1 base
  let va := b + disp
  let n := sizeBytes size
  let loc ← checked va n 1 .store
  let v ← readS 4 src
  let s ← get
  if loc.home = .scratch s.curCid then modify fun s => s.storeChecked loc (allOn (leBytes n v.toNat)) s.curCid
  else
    let m := { message s .store 1 va loc n ins with data := v.setWidth 128, mask := lowMask n }
    if rel && s.unackedIn s.here.serial (scopeOf s.curCid loc.home) != 0 then postRelease m ins else postStore m ins

/-- The displacement of format M (R87). -/
def MF.displacement (f : MF) : Word := f.disp.signExtend 64 * BitVec.ofNat 64 (sizeBytes f.size)

/-- LD (R87). -/
def execLd (f : MF) (s : State) : Host.Outcome State Fault Refusal :=
  issue (.ld f) (load (.ld f) f.d f.base (MF.displacement f) f.size false) s
/-- LD with a literal displacement (R87). -/
def execLdLit (f : ML) (s : State) : Host.Outcome State Fault Refusal :=
  issue (.ldLit f) (load (.ldLit f) f.d f.base f.lit f.size false) s
/-- LD.ACQ (R88). -/
def execLdAcq (f : MF) (s : State) : Host.Outcome State Fault Refusal :=
  issue (.ldAcq f) (load (.ldAcq f) f.d f.base (MF.displacement f) f.size true) s
/-- LD.ACQ with a literal displacement (R88). -/
def execLdAcqLit (f : ML) (s : State) : Host.Outcome State Fault Refusal :=
  issue (.ldAcqLit f) (load (.ldAcqLit f) f.d f.base f.lit f.size true) s
/-- ST (R87). -/
def execSt (f : MF) (s : State) : Host.Outcome State Fault Refusal :=
  issue (.st f) (store (.st f) f.d f.base (MF.displacement f) f.size false) s
/-- ST with a literal displacement (R87). -/
def execStLit (f : ML) (s : State) : Host.Outcome State Fault Refusal :=
  issue (.stLit f) (store (.stLit f) f.d f.base f.lit f.size false) s
/-- ST.REL (R88). -/
def execStRel (f : MF) (s : State) : Host.Outcome State Fault Refusal :=
  issue (.stRel f) (store (.stRel f) f.d f.base (MF.displacement f) f.size true) s
/-- ST.REL with a literal displacement (R88). -/
def execStRelLit (f : ML) (s : State) : Host.Outcome State Fault Refusal :=
  issue (.stRelLit f) (store (.stRelLit f) f.d f.base f.lit f.size true) s

/-! ### PFETCH and L1INV (R92) -/

/-- The fill of the line that holds an address, unless it is there or on its way. -/
def State.fillLine (s : State) (cid i : Nat) (va : Word) (loc : Loc) : State :=
  let x := s.slot cid i
  if (s.l1Get cid loc.pa).isSome then s
  else (s.post { id := 0, kind := .fill, cid := cid, slot := i, serial := x.serial, region := x.region, va := va, loc := loc
                 size := 1, ins := .l1Fill }).2

/-- A prefetch of a global address: nothing where a check fails; a missing translation is walked for while the context
goes on. -/
def State.prefetch (s : State) (cid i : Nat) (va : Word) : State :=
  match windowOf va with
  | .global _ =>
    match checkPlace s cid (s.slot cid i) va 1 1 .engineRead with
    | .ok (loc, s') => s'.fillLine cid i va loc
    | .error (.miss _) =>
      let obj : Obj := { a := cid, b := i, v := va, ok := true }
      if (s.slot cid i).mode.det then s.schedule (s.atTurn cid 4608) (rankOf cid) .pageWalk obj
      else s.missed (s.slot cid i).region va.toNat obj
    | .error _ => s
  | _ => s

/-- PFETCH (R92). -/
def execPfetch (f : RF) (s : State) : Host.Outcome State Fault Refusal :=
  issue (.pfetch f) (do
    let va ← readS 1 f.a
    modify fun s => s.prefetch s.curCid s.curSlot va) s

/-- L1INV (R92). -/
def execL1inv (f : RF) (s : State) : Host.Outcome State Fault Refusal :=
  issue (.l1inv f) (modify fun s => s.l1Clear s.curCid) s

/-! ### WAITV (R93) -/

/-- A WAITV of a word in the own scratchpad reads it at issue and, while it equals b, keeps one of the core's own
watches. -/
def watchOwn (m : Msg) (v : Nat) (ins : Instr) : Do Unit := do
  let s ← get
  let p := s.post m false
  let differs := BitVec.ofNat 64 v != m.expect
  let s := p.2.modMsg p.1 fun x =>
    { x with sent := true, performed := true, watching := !differs
             resp := if differs then some (.value (BitVec.ofNat 128 v)) else none }
  set (if differs then s.schedule (s.atTurn s.curCid 1) (rankOf s.curCid) .interlockedResult { a := p.1 } else s)
  wait (.watch p.1) ins

/-- WAITV (R93). -/
def execWaitv (f : RF) (s : State) : Host.Outcome State Fault Refusal :=
  issue (.waitv f) (do
    let va ← readS 1 f.a
    let loc ← checked va 8 1 .watch
    let s ← get
    let own := decide (loc.home = .scratch s.curCid)
    let v ← if own then readOwn 1 va loc 8 else pure 0
    let b ← readS 2 f.b
    let dest ← destS 4 f.d
    let s ← get
    let m := { message s .watch 1 va loc 8 (.waitv f) with expect := b, dest := dest }
    if own then watchOwn m v (.waitv f)
    else
      let p := s.post m
      set p.2
      wait (.watch p.1) (.waitv f)) s

end Sys2Proof.Machine
end

