-- ==== Sys2Proof/Machine/Atomic.lean ====
section
/-!
DEFINITION. Atomic operations (R94 to R97).
-/
namespace Sys2Proof.Machine

/-- An AMO at issue in the own scratchpad: its read and its write as one access (R94, R95). -/
def State.amoOwn (s : State) (loc : Loc) (op : Nat) (b expect : Word) : State :=
  let old := BitVec.ofNat 64 (leNat (s.readLoc loc 8))
  match amoResult op old b expect with
  | some v => s.storeLoc loc (allOn (leBytes 8 v.toNat))
  | none => s

/-- Failure of a read as a use that is also a write. -/
def asWrite (x : Do Nat) : Do Nat := fun s =>
  match x.run s with
  | .error (.trap t) => .error (.trap { t with write := true })
  | r => r

/-- The AMO of an operation code (R94, R97), always interlocked: at issue in the own scratchpad, with d six turns later;
elsewhere at its home. -/
def amo (ins : Instr) (f : AF) (op : Nat) (cas : Bool) : Do Unit := do
  let va ← readS 1 f.a
  let loc ← checked va 8 1 .amo
  let s ← get
  let own := decide (loc.home = .scratch s.curCid)
  let old ← if own then asWrite (readOwn 1 va loc 8) else pure 0
  let b ← readS 2 f.b
  let expect ← if cas then readS 4 f.d else pure 0
  let acq := f.ord.getLsbD 0
  let rel := f.ord.getLsbD 1
  if own then
    modify fun s => s.amoOwn loc op b expect
    writeS 4 f.d 6 (BitVec.ofNat 64 old)
    ownNext
  else
    let dest ← destS 4 f.d
    let s ← get
    let m := { message s (.amo op) 1 va loc 8 ins with data := b.setWidth 128, expect := expect, acq := acq, dest := dest }
    if rel && s.unackedIn s.here.serial (scopeOf s.curCid loc.home) != 0 then postRelease m ins
    else
      let p := s.post m
      set p.2
      wait (.result p.1) ins

/-- AMOADD (R95). -/
def execAmoadd (f : AF) (s : State) : Host.Outcome State Fault Refusal :=
  issue (.amoadd f) (amo (.amoadd f) f 0 false) s

/-- AMOAND (R95). -/
def execAmoand (f : AF) (s : State) : Host.Outcome State Fault Refusal :=
  issue (.amoand f) (amo (.amoand f) f 1 false) s

/-- AMOOR (R95). -/
def execAmoor (f : AF) (s : State) : Host.Outcome State Fault Refusal :=
  issue (.amoor f) (amo (.amoor f) f 2 false) s

/-- AMOXOR (R95). -/
def execAmoxor (f : AF) (s : State) : Host.Outcome State Fault Refusal :=
  issue (.amoxor f) (amo (.amoxor f) f 3 false) s

/-- AMOMIN (R95). -/
def execAmomin (f : AF) (s : State) : Host.Outcome State Fault Refusal :=
  issue (.amomin f) (amo (.amomin f) f 4 false) s

/-- AMOMAX (R95). -/
def execAmomax (f : AF) (s : State) : Host.Outcome State Fault Refusal :=
  issue (.amomax f) (amo (.amomax f) f 5 false) s

/-- AMOMINU (R95). -/
def execAmominu (f : AF) (s : State) : Host.Outcome State Fault Refusal :=
  issue (.amominu f) (amo (.amominu f) f 6 false) s

/-- AMOMAXU (R95). -/
def execAmomaxu (f : AF) (s : State) : Host.Outcome State Fault Refusal :=
  issue (.amomaxu f) (amo (.amomaxu f) f 7 false) s

/-- AMOSWAP (R95). -/
def execAmoswap (f : AF) (s : State) : Host.Outcome State Fault Refusal :=
  issue (.amoswap f) (amo (.amoswap f) f 8 false) s

/-- AMOCAS (R95). -/
def execAmocas (f : AF) (s : State) : Host.Outcome State Fault Refusal :=
  issue (.amocas f) (amo (.amocas f) f 9 true) s

/-- AMOFADD (R96). -/
def execAmofadd (f : AF) (s : State) : Host.Outcome State Fault Refusal :=
  issue (.amofadd f) (amo (.amofadd f) f 10 false) s

/-- AMOAMAX (R96). -/
def execAmoamax (f : AF) (s : State) : Host.Outcome State Fault Refusal :=
  issue (.amoamax f) (amo (.amoamax f) f 11 false) s

end Sys2Proof.Machine
end

