-- ==== Sys2Proof/Machine/Mailboxes.lean ====
section
/-!
DEFINITION. Mailbox and handle instructions (R162 to R165).
-/
namespace Sys2Proof.Machine

/-- The object that aux8 names. -/
def XF.object (f : XF) : Nat := (f.aux8.extractLsb' 0 6).toNat

/-- MBWAIT (R162): the tag is tested at issue; an ended wait clears the L1. -/
def execMbwait (f : XF) (s : State) : Host.Outcome State Fault Refusal :=
  issue (.mbwait f) (do
    let a ← readS 1 f.a
    let n := XF.object f
    if 2 ^ 32 ≤ a.toNat then trapOf .shape a
    else
      let d ← destS 4 f.d
      let s ← get
      let m := s.mailbox s.curCid n
      if m.abandon ≠ 0 ∨ a.toNat ≤ m.count then do
        modify fun s => (s.deliver s.curCid d (if m.abandon ≠ 0 then 1 else 0)).l1Clear s.curCid
        ownNext
      else wait (.mailbox n a.toNat d) (.mbwait f)) s

/-- MBREAD (R162). -/
def execMbread (f : XF) (s : State) : Host.Outcome State Fault Refusal :=
  issue (.mbread f) (do
    let s ← get
    let m := s.mailbox s.curCid (XF.object f)
    writeS 4 f.d 2 (BitVec.ofNat 64 (m.abandon * 2 ^ 32 + m.count))) s

/-- MBSET (R162): a store to the tag, performed at issue. -/
def execMbset (f : XF) (s : State) : Host.Outcome State Fault Refusal :=
  issue (.mbset f) (do
    let a ← readS 1 f.a
    if 2 ^ 48 ≤ a.toNat then trapOf .illegal a
    else modify fun s =>
      s.putMailbox s.curCid (XF.object f) { count := a.toNat % 2 ^ 32, abandon := a.toNat / 2 ^ 32 }) s

/-- The lowest other handle whose range a claim overlaps (R164). -/
def State.overlapped (s : State) (cid n a b : Nat) : Option Nat :=
  (List.range 64).find? fun k =>
    let h := s.handle cid k
    k != n && h.state != .free && decide (h.base < a + b) && decide (a < h.base + h.len)

/-- HCLAIM (R164). -/
def execHclaim (f : XF) (s : State) : Host.Outcome State Fault Refusal :=
  issue (.hclaim f) (do
    let a ← readS 1 f.a
    let b ← readS 2 f.b
    let n := XF.object f
    let s ← get
    let h := s.handle s.curCid n
    if h.state != .free then trapOf .handle (BitVec.ofNat 64 n)
    else if a.toNat % 16 ≠ 0 then trapOf .align a 1
    else if b.toNat % 16 ≠ 0 ∨ b = 0 then trapOf .shape b
    else if a.toNat < 0x5000 ∨ 0x60000 < a.toNat + b.toNat then trapOf .shape a
    else
      match s.overlapped s.curCid n a.toNat b.toNat with
      | some k => trapOf .shape (BitVec.ofNat 64 k)
      | none =>
        let claimed : Handle :=
          { state := .filling, base := a.toNat, len := b.toNat, mb := (f.aux32.extractLsb' 0 6).toNat
            chan := if f.aux32.getLsbD 8 then some (f.aux32.extractLsb' 9 2).toNat else none
            claim := h.claim + 1, latch := h.latch }
        modify fun s => s.putHandle s.curCid n claimed) s

/-- HWAIT (R165). -/
def execHwait (f : XF) (s : State) : Host.Outcome State Fault Refusal :=
  issue (.hwait f) (do
    let n := XF.object f
    let d ← destS 4 f.d
    let s ← get
    let h := s.handle s.curCid n
    if h.state = .filling ∨ h.state = .draining then wait (.handle n d) (.hwait f)
    else do
      modify fun s => s.deliver s.curCid d h.status
      ownNext) s

/-- HFREE (R163). -/
def execHfree (f : XF) (s : State) : Host.Outcome State Fault Refusal :=
  issue (.hfree f) (do
    let n := XF.object f
    let s ← get
    let h := s.handle s.curCid n
    if h.state != .full || decide (0 < h.pins) then trapOf .handle (BitVec.ofNat 64 n)
    else modify fun s => s.freeHandle s.curCid n) s

/-- HSTAT (R165). -/
def execHstat (f : XF) (s : State) : Host.Outcome State Fault Refusal :=
  issue (.hstat f) (do
    let s ← get
    writeS 4 f.d 2 (s.handle s.curCid (XF.object f)).status) s

end Sys2Proof.Machine
end

