-- ==== Sys2Proof/Machine/Functions.lean ====
section
/-!
DEFINITION. The special functions (R122): the exact value rounded once to FP32 by RNE.  Quotients and roots are rounded
from their exact integer parts; the transcendental functions are computed in fixed point to 2^-420 with a margin of
2^-390, and both ends of that margin round to the same FP32 number for every FP32 input (log 22).
-/
namespace Sys2Proof.Machine.Sfu

/-- Bits below the point of the fixed-point numbers, and the margin of a computed value in units of the last one. -/
def bits : Nat := 420
def one : Int := 2 ^ bits
def margin : Nat := 2 ^ 30

def fmul (a b : Int) : Int := a * b / one
def fdiv (a b : Int) : Int := a * one / b

/-- The sum of z^(2k+1)/(2k+1), with alternating signs or not: n terms from a power p of z. -/
def oddSeries (z2 : Int) (alt : Bool) (p : Int) (k : Nat) : Nat → Int
  | 0 => 0
  | n + 1 => p / (2 * k + 1 : Nat) + oddSeries z2 alt (if alt then -(fmul p z2) else fmul p z2) (k + 1) n

/-- artanh z for |z| ≤ 1/3, and arctan(1/n). -/
def artanh (z : Int) : Int := oddSeries (fmul z z) false z 0 140
def arctanInv (n : Int) : Int := oddSeries (one / (n * n)) true (one / n) 0 100

def ln2 : Int := 2 * artanh (one / 3)
def pi : Int := 16 * arctanInv 5 - 4 * arctanInv 239

/-- The terms of a power series t, t·r/k, ...: every factor r/k from k on, in steps. -/
def factorial (r : Int) (t : Int) (k step : Nat) : Nat → Int
  | 0 => 0
  | n + 1 => t + factorial r ((fmul t r) / ((k : Int) * (if step = 2 then (k + 1 : Int) else 1))) (k + step) step n

/-- e^r for |r| < 1. -/
def expSmall (r : Int) : Int := factorial r one 1 1 100
/-- sin and cos of an angle of at most two radians. -/
def sinOf (t : Int) : Int := factorial (-(fmul t t)) t 2 2 60
def cosOf (t : Int) : Int := factorial (-(fmul t t)) one 1 2 60

/-- A value in fixed point, times a power of two, rounded to FP32. -/
def finish (neg : Bool) (a : Nat) (e : Int) : Nat :=
  let lo := roundFin f32 .rne neg (a - margin) (e - bits) true
  let hi := roundFin f32 .rne neg (a + margin) (e - bits) true
  if lo = hi then lo else roundFin f32 .rne neg a (e - bits) true

/-- m·2^e in fixed point, bits below the last place cut. -/
def fixed (m : Nat) (e : Int) : Int :=
  if 0 ≤ e + bits then (m : Int) * 2 ^ (e + bits).toNat else (m : Int) / 2 ^ (-(e + bits)).toNat

/-- 1/x. -/
def rcp : FVal → Nat
  | .nan => f32.nan
  | .inf n => signBits f32 n 0
  | .fin n m e =>
    if m = 0 then signBits f32 n 0x7F800000
    else
      let q := 2 ^ 80 / m
      roundFin f32 .rne n q (-e - 80) (2 ^ 80 % m != 0)

/-- The integer square root by halving, n steps. -/
def isqrtLoop (x lo hi : Nat) : Nat → Nat
  | 0 => lo
  | n + 1 =>
    let mid := (lo + hi) / 2
    if mid * mid ≤ x then isqrtLoop x mid hi n else isqrtLoop x lo mid n

/-- 1/√x. -/
def rsq : FVal → Nat
  | .nan => f32.nan
  | .inf n => if n then f32.nan else 0
  | .fin n m e =>
    if m = 0 then signBits f32 n 0x7F800000
    else if n then f32.nan
    else
      -- with e even, 1/√(m·2^e) = √(2^120 / m) · 2^(-60 - e/2)
      let me := if e % 2 = 0 then (m, e) else (2 * m, e - 1)
      let x := 2 ^ 120 / me.1
      let r := isqrtLoop x 0 (2 ^ 61) 62
      roundFin f32 .rne false r (-60 - me.2 / 2) (2 ^ 120 % me.1 != 0 || r * r != x)

/-- A finite value as a whole part and a fraction in fixed point. -/
def split (neg : Bool) (m : Nat) (e : Int) : Int × Int :=
  let v := FVal.signed neg m
  if 0 ≤ e then (v * 2 ^ e.toNat, 0)
  else
    let d : Int := 2 ^ (-e).toNat
    (v / d, (v % d) * one / d)

/-- 2^x. -/
def exp2 : FVal → Nat
  | .nan => f32.nan
  | .inf n => if n then 0 else 0x7F800000
  | .fin n m e =>
    if FVal.cmp (.fin n m e) (.fin false 128 0) ≥ 0 then 0x7F800000
    else if FVal.cmp (.fin n m e) (.fin true 152 0) < 0 then 0
    else
      let p := split n m e
      let whole := if 0 ≤ e then decide True else decide (m % 2 ^ (-e).toNat = 0)
      if whole then roundFin f32 .rne false 1 p.1 false
      else finish false (expSmall (fmul p.2 ln2)).toNat p.1

/-- log₂ x. -/
def log2 : FVal → Nat
  | .nan => f32.nan
  | .inf n => if n then f32.nan else 0x7F800000
  | .fin n m e =>
    if m = 0 then 0xFF800000
    else if n then f32.nan
    else
      let k := m.log2
      let top : Int := e + k
      if m = 2 ^ k then roundF f32 .rne (intVal top)
      else
        let y := fixed m (-(k : Int))
        let l := fdiv (2 * artanh (fdiv (y - one) (y + one))) ln2 + top * one
        finish (decide (l < 0)) l.natAbs 0

/-- The angle πx reduced: the half turns and the part in [0, 1) of a finite magnitude. -/
def halfTurns (m : Nat) (e : Int) : Nat × Nat × Nat :=
  if 0 ≤ e then (m * 2 ^ e.toNat % 2, 0, 1)
  else
    let d := 2 ^ (-e).toNat
    (m / d % 2, m % d, d)

/-- sin(πt) for t = n/d in (0, 1), n/d ≠ 1/2. -/
def sinPart (n d : Nat) : Nat :=
  let n := if d < 2 * n then d - n else n
  if 4 * n ≤ d then (sinOf (fmul ((n : Int) * one / d) pi)).toNat
  else (cosOf (fmul (((d : Int) - 2 * n) * one / (2 * d)) pi)).toNat

/-- sin(πx). -/
def sinPi : FVal → Nat
  | .nan => f32.nan
  | .inf _ => f32.nan
  | .fin neg m e =>
    let (h, n, d) := halfTurns m e
    let neg' := neg != (h == 1)
    if n = 0 then signBits f32 neg 0
    else if 2 * n = d then signBits f32 neg' 0x3F800000
    else finish neg' (sinPart n d) 0

/-- cos(πx). -/
def cosPi : FVal → Nat
  | .nan => f32.nan
  | .inf _ => f32.nan
  | .fin _ m e =>
    let (h, n, d) := halfTurns m e
    if n = 0 then signBits f32 (h == 1) 0x3F800000
    else if 2 * n = d then 0
    else
      -- cos(πt) = sin(π(1/2 - t)) for t below 1/2, -sin(π(t - 1/2)) above
      let neg := (h == 1) != decide (d < 2 * n)
      let n' := if 2 * n < d then d - 2 * n else 2 * n - d
      finish neg (sinPart n' (2 * d)) 0

/-- e^(-y) for y = m·2^e ≥ 0 below 2^9: a fraction and a power of two. -/
def expNeg (m : Nat) (e : Int) : Int × Int :=
  let y := fixed m e
  let k := fdiv y ln2 / one
  (expSmall (k * ln2 - y), -k)

/-- tanh x. -/
def tanh : FVal → Nat
  | .nan => f32.nan
  | .inf n => signBits f32 n 0x3F800000
  | .fin n m e =>
    if m = 0 then signBits f32 n 0
    else if FVal.cmp (.fin false m e) (.fin false 16 0) ≥ 0 then signBits f32 n 0x3F800000
    else
      let p := expNeg m (e + 1)
      let t := p.1 / 2 ^ (-p.2).toNat
      finish n (fdiv (one - t) (one + t)).toNat 0

/-- 1/(1 + e^-x). -/
def sigmoid : FVal → Nat
  | .nan => f32.nan
  | .inf n => if n then 0 else 0x3F800000
  | .fin n m e =>
    if m = 0 then 0x3F000000
    else if FVal.cmp (.fin false m e) (.fin false 128 0) ≥ 0 then (if n then 0 else 0x3F800000)
    else
      let p := expNeg m e
      let t := p.1 / 2 ^ (-p.2).toNat
      if n then finish false (fdiv t (one + t)).toNat 0 else finish false (fdiv one (one + t)).toNat 0

end Sys2Proof.Machine.Sfu
end

