-- ==== Sys2Proof/Machine/Lasts.lean ====
section
/-!
DEFINITION. Lasts (R226, R227, R229): the record, its validity and a core's part of it.
-/
namespace Sys2Proof.Machine

/-- A last (R226). -/
structure Last where
  etype : Nat
  ndim : Nat
  swz : Nat
  flags : Nat
  splitdim : Nat
  halo : Nat
  splitcnt : Nat
  base : Word
  ext : List Nat
  s0 : Nat
  pad : Nat
  strides : List Word
  deriving DecidableEq, Repr

/-- The record in 64 bytes. -/
def parseLast (bs : List Byte) : Last :=
  let fld := fun off n => leNat ((bs.drop off).take n)
  { etype := fld 0 1, ndim := fld 1 1, swz := fld 2 1, flags := fld 3 1, splitdim := fld 4 1, halo := fld 5 1, splitcnt := fld 6 2
    base := BitVec.ofNat 64 (fld 8 8), ext := (List.range 4).map fun d => fld (16 + 4 * d) 4, s0 := fld 32 4, pad := fld 36 4
    strides := (List.range 3).map fun d => BitVec.ofNat 64 (fld (40 + 8 * d) 8) }

/-- The bits of an element (R226). -/
def elementBits : Nat → Nat
  | 1 | 2 | 12 | 13 => 8
  | 3 | 4 | 10 | 11 => 16
  | 5 | 6 | 9 => 32
  | 7 | 8 => 64
  | 14 => 4
  | _ => 0

namespace Last

def hnd (l : Last) : Bool := l.flags % 2 == 1
def extent (l : Last) (d : Nat) : Nat := l.ext.getD d 0
/-- The stride of dimension 1, 2 or 3. -/
def stride (l : Last) (d : Nat) : Word := l.strides.getD (d - 1) 0
/-- The bytes of dimension 0. -/
def rowBytes (l : Last) : Nat := l.extent 0 * elementBits l.etype / 8

/-- The block of a swizzle code (R228). -/
def block (k : Nat) : Nat := let sh := swizzleShape k; 16 * sh.1 * sh.2

/-- A last is valid (R227). -/
def valid (l : Last) : Bool :=
  decide (1 ≤ l.etype) && decide (l.etype ≤ 14) && decide (1 ≤ l.ndim) && decide (l.ndim ≤ 4) && decide (l.swz ≤ 4)
    && decide (l.flags ≤ 1) && l.pad == 0
    && (if l.splitcnt = 0 then l.splitdim == 0 && l.halo == 0
        else decide (2 ≤ l.splitcnt) && decide (l.splitcnt ≤ 2048) && decide (1 ≤ l.splitdim) && decide (l.splitdim < l.ndim))
    && ((List.range 4).all fun d => if d < l.ndim then l.extent d != 0 else l.extent d == 0)
    && ([1, 2, 3].all fun d => decide (d < l.ndim) || l.stride d == 0)
    && (!l.hnd || decide (l.base.toNat < 64))
    && (l.swz == 0 || (([1, 2, 3].all fun d => (l.stride d).toNat % block l.swz == 0)
        && l.extent 0 * elementBits l.etype % (8 * block l.swz) == 0 && (l.hnd || l.base.toNat % block l.swz == 0)))

/-- The first index and the number of indices of a rank's part of a dimension of extent e (R229). -/
def partOf (e c rank : Nat) : Nat × Nat :=
  let b := e / c
  let r := e % c
  if rank < c then (rank * b + Nat.min rank r, b + (if rank < r then 1 else 0)) else (0, 0)

/-- The first index and the number of indices that a stream of a rank visits in a dimension; a rank with no part visits no halo either,
of which the spec says nothing (R115, log 61). -/
def visit (l : Last) (rank d : Nat) (write : Bool) : Nat × Nat :=
  let e := Nat.max (l.extent d) 1
  if l.splitcnt ≠ 0 ∧ d = l.splitdim then
    let p := partOf e l.splitcnt rank
    if write || p.2 = 0 then p
    else
      let lo := p.1 - l.halo
      (lo, Nat.min e (p.1 + p.2 + l.halo) - lo)
  else (0, e)

end Last

/-- The last n of the issuing core, read as a load of its own scratchpad (R230). -/
def readLast (n : Nat) : Do Last := do
  let va : Word := BitVec.ofNat 64 (0x4000 + 64 * n)
  let loc ← checked va 64 0 .load
  let _ ← readOwn 0 va loc 64
  let s ← get
  let l := parseLast (s.readLoc loc 64)
  if l.valid then pure l else trapOf .shape (BitVec.ofNat 64 n)

end Sys2Proof.Machine
end

