-- ==== Sys2Proof/Machine/Bulk.lean ====
section
/-!
DEFINITION. Ranges that an instruction reads or names: their checks page by page (R82, R86, R134, R166), their loads as
16-byte accesses of the context (R89, R127, R130), and what goes on once the last of these has come.
-/
namespace Sys2Proof.Machine

/-- The part of a range that lies before the next 64 KiB boundary. -/
def pagePart (va n : Nat) : Nat := Nat.min n (65536 - va % 65536)

/-- PEER_GONE and RANGE_LOCK of a place in another core's scratchpad, as they stand (R83, R86). -/
def State.refusedAt (s : State) (cid region : Nat) (l : Loc) (size : Nat) (write : Bool) : Option Cause :=
  match l.home with
  | .scratch h =>
    if h = cid then none
    else if !s.livePitch h region then some .peerGone
    else if s.scratchLocked h l.addr size write then some .rangeLock
    else none
  | _ => none

/-- The checks of a range of n bytes by R82 and R86, page by page: the place of its first byte. -/
def checkedRange (va : Word) (n use : Nat) (k : Access) : Nat → Do (Option Loc)
  | 0 => pure none
  | fuel + 1 => do
    if n = 0 then pure none
    else
      let s ← get
      let p := pagePart va.toNat n
      match checkPlace s s.curCid s.here va p use k with
      | .error e => throw e
      | .ok (l, s') =>
        set s'
        let _ ← checkedRange (va + BitVec.ofNat 64 p) (n - p) use k fuel
        pure (some l)

/-- The same for a peer range too, whose home is asked at once. -/
def checkedHere (va : Word) (n use : Nat) (k : Access) : Do (Option Loc) := do
  let l ← checkedRange va n use k (n / 65536 + 2)
  match l with
  | none => pure none
  | some l => do
    let s ← get
    match s.refusedAt s.curCid s.here.region l n k.writes with
    | some c => trapOf c va use k.writes
    | none => pure (some l)

/-! ### Loads of a range -/

/-- One load of a range: the address that a trap reports, the address and the bytes. -/
structure Part where
  tval : Word
  va : Word
  size : Nat
  deriving DecidableEq, Repr

/-- The 16-byte loads of n units from an address. -/
def unitParts (va : Word) (n : Nat) : List Part :=
  (List.range n).map fun i => { tval := va + BitVec.ofNat 64 (16 * i), va := va + BitVec.ofNat 64 (16 * i), size := 16 }

/-- The places of the loads, each checked by R82. -/
def checkedParts (use : Nat) (k : Access) : List Part → Do (List (Part × Loc))
  | [] => pure []
  | p :: ps => do
    let s ← get
    match checkPlace s s.curCid s.here p.va p.size use k with
    | .error (.trap t) => throw (.trap { t with tval := p.tval })
    | .error e => throw e
    | .ok (l, s') =>
      set s'
      let ls ← checkedParts use k ps
      pure ((p, l) :: ls)

/-- The bytes of loads in the own scratchpad, read at issue. -/
def readParts (use : Nat) : List (Part × Loc) → Do (List Byte)
  | [] => pure []
  | p :: ps => do
    let _ ← readOwn use p.1.tval p.2 p.1.size
    let s ← get
    let bs ← readParts use ps
    pure (s.readLoc p.2 p.1.size ++ bs)

/-- The loads on their way: one in the own scratchpad is answered at once. -/
def State.postParts (s : State) (use : Nat) (ins : Instr) : List (Part × Loc) → List Nat × State
  | [] => ([], s)
  | p :: ps =>
    let m := message s .load use p.1.tval p.2 p.1.size ins
    let own := decide (p.2.home = .scratch s.curCid)
    let q :=
      if own then
        let q := s.post m false
        let e := q.2.eccRead p.2 p.1.size s.curCid
        let r : Resp := if e.1 then .trap { cause := .memerr, tval := p.1.tval, use := use }
          else .value (BitVec.ofNat 128 (leNat (e.2.readLoc p.2 p.1.size)))
        (q.1, e.2.modMsg q.1 fun x => { x with sent := true, performed := true, resp := some r, come := true })
      else s.postLoad m
    let rest := q.2.postParts use ins ps
    (q.1 :: rest.1, rest.2)

/-- Loads of a range: its bytes when all of it lies in the own scratchpad, else none, and the context waits. -/
def readRange (use : Nat) (k : Access) (parts : List Part) (ins : Instr) : Do (Option (List Byte)) := do
  let ls ← checkedParts use k parts
  let s ← get
  if ls.all fun p => decide (p.2.home = .scratch s.curCid) then do
    let bs ← readParts use ls
    pure (some bs)
  else do
    let p := s.postParts use ins ls
    set p.2
    wait (.rows p.1) ins
    pure none

namespace State

/-- The bytes that the loads of a range have brought, or the trap of the first that failed; none while one is on its
way. -/
def rowsBytes (s : State) : List Nat → Option (Except TrapInfo (List Byte))
  | [] => some (.ok [])
  | id :: ids =>
    match s.msg? id with
    | none => none
    | some m =>
      match if m.come then m.resp else none with
      | some (.value v) =>
        match s.rowsBytes ids with
        | some (.ok bs) => some (.ok (leBytes m.size v.toNat ++ bs))
        | r => r
      | some (.trap t) => if (s.rowsBytes ids).isSome then some (.error t) else none
      | some .failed => if (s.rowsBytes ids).isSome then some (.error { cause := .memerr, tval := m.va, use := m.use }) else none
      | none => none

/-- The context of a slot traps with a response: what it took is given back, and TRETPC is the instruction's own
address (R26). -/
def trapWaiting (s : State) (cid i : Nat) (t : TrapInfo) : State :=
  let x := s.slot cid i
  let ins := x.ins.getD (.illegalEncoding 0)
  let s := s.undoAll cid i
  s.takeTrap cid i t (word0 ins) (if t.after then x.pc else x.pc - BitVec.ofNat 64 (instrBytes ins))

/-- The walk for a later access of an instruction, for which its loads so far are kept (R270). -/
def walkForRows (s : State) (cid i : Nat) (va : Word) : State :=
  match (s.slot cid i).wait with
  | .rows ids => s.startWalk cid i (.walkRows va ids)
  | _ => s

/-- The rest of an instruction's effect, when what it waited for has come. -/
def resumeDo (s : State) (cid i : Nat) (body : Do Unit) : State :=
  let ins := (s.slot cid i).ins
  let s0 := { s with curCid := cid, curSlot := i, lender := none, banks := [] }
  match body.run ((s0.wake cid i).modSlot cid i fun x => { x with ins := ins }) with
  | .ok p => p.2.issueDone
  | .error (.trap t) => s0.trapWaiting cid i t
  | .error (.miss va) => s0.walkForRows cid i va
  | .error _ => s0

/-- Work of an interlocked instruction that ends at a turn, with bytes to deliver (R23). -/
def postWork (s : State) (ins : Instr) (data : Word) (d : Dest) (locs : List Loc) (bs : List Byte) (due : Due) : Nat × State :=
  let f := s.fresh
  let m : Msg :=
    { id := f.1, kind := .instr, cid := s.curCid, slot := s.curSlot, serial := s.here.serial, region := s.here.region, va := data
      loc := { home := .scratch s.curCid, addr := 0 }, size := 0, units := locs, bytes := bs, dest := d, ins := ins
      performed := true }
  (f.1, { f.2 with net := f.2.net ++ [m] }.schedule due (rankOf s.curCid) .interlockedResult { a := f.1 })

end State
end Sys2Proof.Machine
end

