-- ==== Sys2Proof/Machine/Tile.lean ====
section
/-!
DEFINITION. What a task of the matrix engine computes (R136 to R138, R142): elements, passes (R41 to R45) and operands.
-/
namespace Sys2Proof.Machine

/-! ### Elements (R30, R31) -/

/-- Why an element cannot be read: the code that STATUS.ERR takes (R138, R143), and the ECC word of a memory error with its
physical address. -/
structure ReadErr where
  code : Nat
  key : Nat × Nat := (0, 0)
  pa : Nat := 0
  deriving DecidableEq, Repr

/-- An element as the engine reads it. -/
abbrev Elem := Except ReadErr FVal

/-- How the bytes of an operand become elements: the type, the format of MX elements, and the table of codes. -/
structure Coding where
  etype : Nat
  mx : Nat := 0
  codes : List (BitVec 16) := []
  deriving DecidableEq, Repr

namespace Coding

/-- The bits of an element of a plane or an operand (R130). -/
def bits (c : Coding) : Nat :=
  match c.etype with
  | 10 | 11 => 16
  | 14 => 4
  | _ => 8

/-- Integer elements: INT8 and MX-INT8. -/
def isInt (c : Coding) : Bool := c.etype == 1 || (c.etype == 15 && c.mx == 2)

/-- The value of an element from its bits. -/
def value (c : Coding) (v : Nat) : FVal :=
  if c.isInt then intVal (BitVec.ofNat 8 v).toInt
  else match c.etype with
    | 10 => decodeF f16 v
    | 11 => decodeF bf16 v
    | 12 => decodeF e4m3 v
    | 13 => decodeF e5m2 v
    | 14 => decodeF bf16 (c.codes.getD v 0).toNat
    | _ => decodeF (if c.mx = 0 then e4m3 else e5m2) v

/-- The bytes that element n of a row takes, and its bits within them. -/
def first (c : Coding) (n : Nat) : Nat := n * c.bits / 8
def count (c : Coding) : Nat := if c.bits = 16 then 2 else 1

/-- Element n of a row whose byte x is given. -/
def read (c : Coding) (byte : Nat → Except ReadErr Byte) (n : Nat) : Elem := do
  let lo ← byte (c.first n)
  if c.bits = 16 then do
    let hi ← byte (c.first n + 1)
    pure (c.value (lo.toNat + 256 * hi.toNat))
  else if c.bits = 4 then pure (c.value (lo.toNat / 16 ^ (n % 2) % 16))
  else pure (c.value lo.toNat)

end Coding

/-- The bytes of a row of n elements of a type. -/
def rowBytesOf (etype n : Nat) : Nat := n * ({ etype := etype : Coding }).bits / 8

/-! ### Passes (R41 to R45) -/

/-- The products of two rows of elements. -/
def products (xs ys : List Elem) : List Elem := (xs.zip ys).map fun p => do
  let x ← p.1
  let y ← p.2
  pure (FVal.mul x y)

/-- The integer of an element of an integer type. -/
def intOf : FVal → Int
  | .fin n m _ => FVal.signed n m
  | _ => 0

/-- One pass over an accumulator word C (R41, R42, R44): the new word, and whether an integer sum overflowed. -/
def pass (int : Bool) (c : BitVec 32) (terms : List FVal) : BitVec 32 × Bool :=
  if int then
    let v := terms.foldl (fun a t => a + intOf t) c.toInt
    (BitVec.ofInt 32 v, decide (v < -2147483648) || decide (2147483647 < v))
  else (BitVec.ofNat 32 (passSum (decodeF f32 c.toNat :: terms)), false)

/-- Accumulator words with the overflow and the error of the passes made so far, and how far into the words they came. -/
structure Sums where
  words : Tab (BitVec 32)
  second : Tab (BitVec 32) := []
  upto : Nat := 0
  upto2 : Nat := 0
  ovf : Bool := false
  err : Option ReadErr := none
  deriving DecidableEq, Repr

/-- The word of an accumulator; a word 0 is not listed. -/
def accWord (w : Tab (BitVec 32)) (i : Nat) : BitVec 32 := tget w i 0
def setAcc (w : Tab (BitVec 32)) (i : Nat) (v : BitVec 32) : Tab (BitVec 32) := if v = 0 then tdel w i else tset w i v

/-- The pass of one word: it reads C, or takes it as zero, and its products; a failure ends the task (R138). -/
def Sums.step (r : Sums) (int fresh second : Bool) (i : Nat) (c : Except ReadErr (BitVec 32)) (terms : List Elem) : Sums :=
  if r.err.isSome then r else
  match (if fresh then pure 0 else c), terms.mapM id with
  | .ok c, .ok ts =>
    let p := pass int c ts
    if second then { r with second := setAcc r.second i p.1, ovf := r.ovf || p.2, upto2 := Nat.max r.upto2 (i + 1) }
    else { r with words := setAcc r.words i p.1, ovf := r.ovf || p.2, upto := Nat.max r.upto (i + 1) }
  | .error e, _ => { r with err := some e }
  | _, .error e => { r with err := some e }

/-- The passes of every word of a block of rows and columns, in the order of the rows (R136). -/
def Sums.block (r : Sums) (int fresh : Bool) (bad : Nat → Option ReadErr) (left right : List (List Elem)) : Sums :=
  left.zipIdx.foldl (fun r a => right.zipIdx.foldl (fun r b =>
    let i := 32 * a.2 + b.2
    r.step int fresh false i (match bad i with | some e => .error e | none => .ok (accWord r.words i)) (products a.1 b.1)) r) r

/-- The passes of an MX task (R137): the two blocks of each word, unscaled and not accumulated. -/
def Sums.blockMx (r : Sums) (int : Bool) (left right : List (List Elem)) : Sums :=
  left.zipIdx.foldl (fun r a => right.zipIdx.foldl (fun r b =>
    let i := 32 * a.2 + b.2
    let r := r.step int true false i (.ok 0) (products (a.1.take 32) (b.1.take 32))
    r.step int true true i (.ok 0) (products (a.1.drop 32) (b.1.drop 32))) r) r

/-! ### Planes -/

/-- A byte of a row of a plane. -/
def Plane.byte (p : Plane) (k x : Nat) : Byte := (tget p.rows k 0).extractLsb' (8 * x) 8

/-- The rows of the elements W[k][n] of a plane, and its columns. -/
def Plane.elems (p : Plane) (c : Coding) (bad : Nat → Nat → Option ReadErr) : List (List Elem) :=
  (List.range 64).map fun k => (List.range 32).map fun n =>
    c.read (fun x => match bad k x with | some e => .error e | none => .ok (p.byte k x)) n
def columns (m : List (List Elem)) (n : Nat) : List (List Elem) := (List.range n).map fun j => m.map fun row => row.getD j (.ok (.fin false 0 0))

/-- The n numbers from lo. -/
def rangeFrom (lo n : Nat) : List Nat := (List.range n).map (lo + ·)

namespace State

/-! ### Errors of the engine's storage (R280) -/

/-- The address in storage 4 of a byte of an accumulator, of a plane (0 active, 1 shadow) and of a codebook slot. -/
def accPlace (cl acc i : Nat) : Nat := cl * 2 ^ 20 + acc * 8192 + 4 * i
def planePlace (cl e which k x : Nat) : Nat := cl * 2 ^ 20 + 2 ^ 18 + (2 * e + which) * 4096 + 64 * k + x
def codePlace (cl e slot : Nat) : Nat := cl * 2 ^ 20 + 2 ^ 19 + (8 * e + slot) * 32

def engineErr (s : State) (a : Nat) : Option ReadErr :=
  if s.lasting != [] && s.lasting.contains (4, a / 16 * 16) then some { code := 3, key := (4, a / 16 * 16) } else none
def engineBad (s : State) (a : Nat) : Bool := (s.engineErr a).isSome

/-- A write of whole ECC words of the engine's storage mends them. -/
def engineMend (s : State) (a n : Nat) : State :=
  if s.errorFree then s
  else
    let mended := mendOf (4, 16, a) (List.replicate n (0, true))
    { s with lasting := mended s.lasting, transient := mended s.transient, correctable := mended s.correctable }

/-- A task's write of accumulator words mends the ECC words of which it wrote every word: those up to a number, in a number
of columns (R138, R280). -/
def mendAcc (s : State) (cl acc : Nat) (reach : Nat × Nat) : State :=
  if s.lasting = [] then s
  else
    let lo := accPlace cl acc 0
    { s with lasting := s.lasting.filter fun k =>
        !(k.1 == 4 && decide (lo ≤ k.2) && decide (k.2 < lo + 8192)
          && decide ((k.2 - lo) / 4 % 32 + 3 < reach.2) && decide ((k.2 - lo) / 4 + 3 < reach.1)) }

/-- A correctable or transient error met in one ECC word: counted and logged, and a transient one is gone (R280, R282). -/
def meetWord (s : State) (k : Nat × Nat) (pa source : Nat) : State :=
  if s.transient.contains k then { (s.logError k pa source 2) with transient := s.transient.erase k }
  else if s.correctable.contains k then s.logError k pa source 1
  else s

/-- Those of a range of the engine's storage. -/
def meetEngine (s : State) (a n source : Nat) : State :=
  ((s.transient ++ s.correctable).filter fun k => k.1 == 4 && decide (a ≤ k.2) && decide (k.2 < a + n)).foldl
    (fun s k => s.meetWord k 0 source) s

/-- Those of the places that a unit reads, in its order, up to the first lasting error. -/
def meetPlaces (source : Nat) : List Loc → State → State
  | [], s => s
  | l :: ls, s =>
    let ks := eccOf l 16
    if ks.any s.lasting.contains then s else meetPlaces source ls (ks.foldl (fun s k => s.meetWord k (wordPa l k) source) s)

/-! ### Operands (R134, R136, R247) -/

/-- A translation for a unit that works for a region: of its core's or die's TLB, else of the tables (R270, R273). -/
def unitTranslation (s : State) (cid region va : Nat) : Option TlbEntry :=
  ((tlbLookup (s.core cid).tlb region va).orElse fun _ => tlbLookup (s.die (dieOf cid)).tlb region va).orElse
    fun _ => s.walk region va (dieOf cid)

/-- The place of a byte of a range of virtual addresses that a unit reads or writes. -/
def unitPlace (s : State) (cid region va : Nat) (write : Bool) : Except Cause Loc :=
  match windowOf (BitVec.ofNat 64 va) with
  | .global va =>
    match s.unitTranslation cid region va with
    | none => .error (s.walkCause region va (dieOf cid))
    | some e => if write && !e.w then .error .perm else .ok { s.paLoc (e.pa + va % e.size) (dieOf cid) with cls := e.cls }
  | _ => .error .xlate

/-- The place of a byte at an offset from the first row of an operand. -/
def operandPlace (s : State) (cid region : Nat) (o : Operand) (off : Nat) : Except ReadErr Loc :=
  match o.cid with
  | some c => .ok { home := .scratch c, addr := o.base + swizzlePlace o.swz o.len off }
  | none =>
    match s.unitPlace cid region (o.base + off) false with
    | .error .xlate => .error { code := 1 }
    | .error .memerr => .error { code := 3 }
    | .error _ => .error { code := 2 }
    | .ok l => if l.tier || l.home.isNode then .error { code := 2 } else .ok l

/-- The byte there. -/
def operandByte (s : State) (cid region : Nat) (o : Operand) (off : Nat) : Except ReadErr Byte := do
  let l ← s.operandPlace cid region o off
  match if s.lasting = [] then none else (eccOf l 1).find? s.lasting.contains with
  | some k => .error { code := 3, key := k, pa := wordPa l k }
  | none => pure ((s.readLoc l 1).headD 0)

/-- The places of the 16-byte parts of the rows of an operand. -/
def operandParts (s : State) (cid region : Nat) (o : Operand) (rows bytes : Nat) : List Loc :=
  (List.range rows).flatMap fun i => (List.range ((bytes + 15) / 16)).filterMap fun u =>
    match s.operandPlace cid region o (i * o.stride + 16 * u) with
    | .ok l => some l
    | .error _ => none

/-- Elements n of row i of an operand. -/
def operandRow (s : State) (cid region : Nat) (o : Operand) (c : Coding) (i : Nat) (ns : List Nat) : List Elem :=
  ns.map fun n => c.read (fun x => s.operandByte cid region o (i * o.stride + x)) n

/-! ### Tasks (R136 to R138) -/

/-- The elements of a row of the A operand (R136). -/
def rowElements (t : TaskRec) : Nat := if t.mode = 0 then 64 else if t.mode = 1 then 32 else t.klen

/-- The operands of a task on an engine whose plane has a type: rows of a handle without a norm table lie as close as that
type's elements (R247). -/
def operandsOn (t : TaskRec) (etype : Nat) : TaskRec :=
  if t.mode ≠ 2 ∧ t.a.dense then { t with a := { t.a with stride := rowBytesOf etype (rowElements t) } } else t

/-- The coding of the plane of an engine, or of a result-stationary task. -/
def taskCoding (t : TaskRec) (p : Plane) (codes : List (BitVec 16)) : Coding :=
  if t.mode = 2 then { etype := t.etype } else { etype := p.tag, mx := if p.tag = 15 then p.mx else 0, codes := codes }

/-- A codebook slot of an engine. -/
def codebook (e : Engine) (slot : Nat) : List (BitVec 16) := (List.range 16).map fun j => tget e.cb (16 * slot + j) 0

/-- The passes of a task that is not sampled, over the words of its accumulators at its start. -/
def taskSums (s : State) (cl cid region eng : Nat) (t : TaskRec) (acc acc2 : Nat) : Sums :=
  let k := s.cluster cl
  let en := tget k.engines eng {}
  let p := en.active
  let c := taskCoding t p (codebook en t.cbslot)
  let t := operandsOn t c.etype
  let r : Sums := { words := (tget k.accs acc {}).words, second := (tget k.accs acc2 {}).words }
  let bad := fun i => s.engineErr (accPlace cl acc i)
  let badW := fun row x => s.engineErr (planePlace cl eng 0 row x)
  if t.mode = 2 then
    (List.range ((t.klen + 63) / 64)).foldl (fun r j =>
      let ks := rangeFrom (64 * j) (Nat.min 64 (t.klen - 64 * j))
      let left := (List.range t.rows).map fun m => s.operandRow cid region t.a c m ks
      let rows := ks.map fun k => s.operandRow cid region t.b c k (List.range 32)
      r.block c.isInt false bad left (columns rows 32)) r
  else if c.etype = 14 && s.engineBad (codePlace cl eng t.cbslot) then { r with err := s.engineErr (codePlace cl eng t.cbslot) }
  else
    let w := p.elems c badW
    if t.mode = 1 then
      if c.etype = 15 then { r with err := some { code := 4 } }
      else r.block c.isInt false bad w ((List.range t.rows).map fun m => s.operandRow cid region t.a c m (List.range 32))
    else
      let left := (List.range t.rows).map fun m => s.operandRow cid region t.a c m (List.range 64)
      if c.etype ≠ 15 then r.block c.isInt false bad left (columns w 32)
      else if acc = acc2 then { r with err := some { code := 4 } }
      else r.blockMx c.isInt left (columns w 32)

/-- The correctable and transient errors that a task meets in what it reads (R280). -/
def meetTask (s : State) (cl cid region eng : Nat) (t : TaskRec) (acc : Nat) : State :=
  if s.errorFree then s
  else
    let source := engineSource cl eng
    let p := (tget (s.cluster cl).engines eng {}).active
    let et := if t.mode = 2 then t.etype else p.tag
    let t := operandsOn t et
    let s := s.meetEngine (accPlace cl acc 0) 8192 source
    let s := if t.mode = 2 then s
      else (s.meetEngine (planePlace cl eng 0 0 0) 4096 source).meetEngine (codePlace cl eng t.cbslot) 32 source
    let s := meetPlaces source (s.operandParts cid region t.a t.rows (rowBytesOf et (rowElements t))) s
    if t.mode = 2 then meetPlaces source (s.operandParts cid region t.b t.klen (rowBytesOf et 32)) s else s

/-- The lines of the L2 that the operands of a task lie in are used (R269). -/
def useOperands (s : State) (cl cid region eng : Nat) (t : TaskRec) : State :=
  let et := if t.mode = 2 then t.etype else (tget (s.cluster cl).engines eng {}).active.tag
  [(t.a, t.rows, rowBytesOf et (rowElements t)), (t.b, if t.mode = 2 then t.klen else 0, rowBytesOf et 32)].foldl (fun s o =>
    if o.1.cid.isSome then s else (s.operandParts cid region o.1 o.2.1 o.2.2).foldl useL2 s) s

/-- The lasting error that ended a task is logged (R282). -/
def logRead (s : State) (source : Nat) (e : Option ReadErr) : State :=
  match e with
  | some e => if e.code = 3 then s.logError e.key e.pa source 3 else s
  | none => s

end State

/-! ### SCACC (R142) -/

/-- One word of accD with the scaled word of accS added. -/
def scaleWord (fmt : Nat) (d x : BitVec 32) (ea eb : Nat) : BitVec 32 :=
  if ea = 0xFF ∨ eb = 0xFF then 0x7FC00000
  else
    let v := if fmt = 2 then (match intVal x.toInt with | .fin n m _ => .fin n m (-12) | v => v) else decodeF f32 x.toNat
    let v := match v with
      | .fin n m e => FVal.fin n m (e + ea - 127 + eb - 127)
      | v => v
    BitVec.ofNat 32 (roundF f32 .rne (FVal.add false (decodeF f32 d.toNat) v))

/-- The words of accD after a scale. -/
def scaleWords (fmt : Nat) (d x : Tab (BitVec 32)) (a b : List Byte) : Tab (BitVec 32) :=
  (List.range 2048).foldl (fun w i =>
    setAcc w i (scaleWord fmt (accWord d i) (accWord x i) (a.getD (i / 32) 0).toNat (b.getD (i % 32) 0).toNat)) d

end Sys2Proof.Machine
end

