-- ==== Sys2Proof/Machine/Norms.lean ====
section
/-!
DEFINITION. Norm tables: their shape (R146), the norms (R147), their recomputation (R149), NORMREF and NORMRD (R150, R151).
-/
namespace Sys2Proof.Machine

namespace NormShape

/-- Rows of the buffer and the element bytes of each (R146). -/
def rows (n : NormShape) : Nat := if n.orient then n.slices * n.width else n.nr
def rowBytes (n : NormShape) : Nat := if n.orient then 32 * n.elem else n.slices * n.width * n.elem

/-- The format of the elements. -/
def coding (n : NormShape) : Coding := { etype := n.etype }

/-- The first row and column of slice k, and its rows and columns. -/
def slice (n : NormShape) (k : Nat) : (Nat × Nat) × (Nat × Nat) :=
  if n.orient then ((k * n.width, n.width), (0, 32)) else ((0, n.nr), (k * n.width, n.width))

end NormShape

/-- A descriptor is valid for a handle of a length (R146). -/
def validNorm (d : Word) (len : Nat) : Bool :=
  let n := normShape d
  d &&& 0x00000F80FFF00000 == 0 && decide (0 < n.pitch) && decide (10 ≤ n.etype) && decide (n.etype ≤ 13)
    && (if n.orient then n.nr == 0 else decide (1 ≤ n.nr) && decide (n.nr ≤ 64))
    && decide (n.rowBytes ≤ n.pitch) && decide (n.pitch * (n.rows - 1) + n.rowBytes ≤ len)

/-- The norm of a list of elements (R147): the exact sum of exact squares rounded once.  Squares are counted in units of
2^-266. -/
def normOf (xs : List FVal) : BitVec 32 :=
  if xs.any FVal.isNan then 0x7FC00000
  else if xs.any (fun x => match x with | .inf _ => true | _ => false) then 0x7F800000
  else
    let t := xs.foldl (fun a x => match x with
      | .fin _ m e => a + (m * 2 ^ (e + 133).toNat) ^ 2
      | _ => a) 0
    BitVec.ofNat 32 (roundFin f32 .rne false t (-266) false)

namespace State

/-- The swizzle by which the elements of a handle are read: 0xFF names no order and is taken plainly (R147). -/
def readSwizzle (h : Handle) : Nat := if h.swz = 0xFF then 0 else h.swz

/-- The operand that a handle's range is, with its rows by its table. -/
def handleOperand (cid n : Nat) (h : Handle) (stride : Nat) : Operand :=
  { cid := some cid, base := h.base, stride := stride, len := h.len, handle := some n, swz := readSwizzle h }

/-- The elements of slice k of a handle. -/
def sliceElems (s : State) (cid n : Nat) (h : Handle) (t : NormTab) (k : Nat) : List Elem :=
  let sh := normShape t.desc
  let sl := sh.slice k
  (rangeFrom sl.1.1 sl.1.2).flatMap fun i =>
    s.operandRow cid 0 (handleOperand cid n h sh.pitch) sh.coding i (rangeFrom sl.2.1 sl.2.2)

/-- The norm of slice k of a handle (R147), or the error that its elements meet. -/
def sliceNorm (s : State) (cid n : Nat) (h : Handle) (t : NormTab) (k : Nat) : Except ReadErr (BitVec 32) := do
  let xs ← (s.sliceElems cid n h t k).mapM id
  pure (normOf xs)

/-- The norm of slice k computed anew, its stale bit cleared (R147, R149); elements of a lasting error count as zero (log 38). -/
def refreshNorm (s : State) (cid n : Nat) (k : Nat) : State :=
  let h := s.handle cid n
  match h.norm with
  | none => s
  | some t =>
    let v := match s.sliceNorm cid n h t k with
      | .ok v => v
      | .error _ => normOf ((s.sliceElems cid n h t k).map fun x => match x with | .ok v => v | .error _ => .fin false 0 0)
    s.setNorm cid (t.first + k) { used := true, norm := v, stale := false }

/-- The norms of the slices that a landing has written, by the logical offsets of its bytes in the handle (R149). -/
def landNorms (s : State) (cid n : Nat) (os : List Nat) : State :=
  match (s.handle cid n).norm with
  | none => s
  | some t => (slicesAt t os).foldl (fun s k => s.refreshNorm cid n k) s

/-- The lowest run of free entries of a norm store (R147). -/
def findNorms (used : Tab NormEntry) (count : Nat) : Option Nat :=
  (List.range (8193 - count)).find? fun i =>
    used.all fun p => decide (p.1 < i) || decide (i + count ≤ p.1)

/-- The table that NORMREF builds or refreshes: the state with its entries allocated, unless no run is free. -/
def attachNorms (s : State) (cid n : Nat) (d : Word) : Option State :=
  let h := s.handle cid n
  let s := match h.norm with
    | some t => s.freeNorms cid t
    | none => s
  let count := (normShape d).slices
  match findNorms (s.core cid).norms count with
  | none => none
  | some i => some (s.setHandle cid n { h with norm := some { desc := d, first := i, count := count } })

/-- Every entry of a handle's table written: +0 and stale while it fills, else computed (R150). -/
def fillNorms (s : State) (cid n : Nat) : State :=
  let h := s.handle cid n
  match h.norm with
  | none => s
  | some t =>
    (List.range t.count).foldl (fun s k =>
      if h.state = .filling then s.setNorm cid (t.first + k) { used := true, norm := 0, stale := true }
      else s.refreshNorm cid n k) s

/-- The offset of the first ECC word with a lasting error among those that hold elements of a handle with a norm table:
padding is not read (R146, R150). -/
def firstBad (s : State) (cid : Nat) (h : Handle) (d : Word) : Option Nat :=
  if s.lasting = [] then none
  else
    let n := normShape d
    let places := (List.range n.rows).flatMap fun i => (List.range ((n.rowBytes + 15) / 16)).map fun u =>
      h.base + swizzlePlace (readSwizzle h) h.len (i * n.pitch + 16 * u)
    (places.filter fun a => s.lastingAt { home := .scratch cid, addr := a } 16).min?

end State

/-- NORMREF (R150). -/
def execNormref (f : XF) (s : State) : Host.Outcome State Fault Refusal :=
  issue (.normref f) (do
    let a ← readS 1 f.a
    let n := (f.aux8.extractLsb' 0 6).toNat
    let s ← get
    let cid := s.curCid
    let h := s.handle cid n
    if h.state != .filling && h.state != .full then trapOf .handle (BitVec.ofNat 64 n)
    else if 0 < h.pins then trapOf .handle (BitVec.ofNat 64 n)
    else if 0x60000 < h.base + h.len then trapOf .shape (BitVec.ofNat 64 n)
    else do
      if a = 0 then (if h.norm.isNone then trapOf .handle (BitVec.ofNat 64 n) else pure ())
      else if !validNorm a h.len then trapOf .shape a
      else
        match s.attachNorms cid n a with
        | none => trapOf .shape a
        | some s' => set s'
      let d := if a = 0 then (match h.norm with | some t => t.desc | none => 0) else a
      match (if h.state = .full then s.firstBad cid h d else none) with
      | some off => trapOf .memerr (BitVec.ofNat 64 off)
      | none =>
        modify fun s => s.fillNorms cid n
        ownNext) s

/-- NORMRD (R151). -/
def execNormrd (f : XF) (s : State) : Host.Outcome State Fault Refusal :=
  issue (.normrd f) (do
    let a ← readS 1 f.a
    let n := (f.aux8.extractLsb' 0 6).toNat
    let s ← get
    match (s.handle s.curCid n).norm with
    | none => trapOf .handle (BitVec.ofNat 64 n)
    | some t =>
      if t.count ≤ a.toNat then trapOf .shape a
      else
        let e := s.normEntry s.curCid (t.first + a.toNat)
        let d ← destS 4 f.d
        modify fun s => s.deliver s.curCid d (BitVec.ofNat 64 (bitAt e.stale 32 + e.norm.toNat))
        ownNext) s

end Sys2Proof.Machine
end

