-- ==== Sys2Proof/Machine/Sampled.lean ====
section
/-!
DEFINITION. The sampled task at its start (R153 to R159): norms, weights, draws, estimate, variance, budget and audit.
FP32 values that are not negative are held as integers in units of 2^-149.
-/
namespace Sys2Proof.Machine

/-- Binary64 (R158). -/
def f64 : Fmt :=
  { expBits := 11, fracBits := 52, emin := -1074, maxFinite := 0x7FEFFFFFFFFFFFFF, inf := some 0x7FF0000000000000
    nan := 0x7FF8000000000000 }

/-- A finite FP32 word that is not negative, in units of 2^-149; and its square with any sign in units of 2^-298. -/
def fixed (w : BitVec 32) : Nat :=
  match decodeF f32 w.toNat with
  | .fin _ m e => m * 2 ^ (e + 149).toNat
  | _ => 0

/-- A word that is not finite. -/
def notFinite (w : BitVec 32) : Bool := match decodeF f32 w.toNat with | .fin _ _ _ => false | _ => true

/-- The quotient n / d rounded once to a format by RNE. -/
def roundRatio (f : Fmt) (n d : Nat) : Nat :=
  let k := d.log2 + 80
  let q := n * 2 ^ k / d
  roundFin f .rne false q (-(k : Int)) (n * 2 ^ k % d != 0)

/-- round(f32, sqrt(x · y)) of two finite FP32 words that are not negative (R153). -/
def sqrtProduct (x y : BitVec 32) : BitVec 32 :=
  let p := fixed x * fixed y * 2 ^ 128
  let r := Sys2Proof.Machine.Sfu.isqrtLoop p 0 (2 ^ (p.log2 / 2 + 1)) (p.log2 / 2 + 2)
  BitVec.ofNat 32 (roundFin f32 .rne false r (-213) (r * r != p))

/-- The integer weight of a slice (R153). -/
def weight (v total : BitVec 32) : Nat := if fixed v = 0 then 0 else Nat.max 1 (fixed v * 2 ^ 24 / fixed total)

/-- The slice that a remainder falls into: the first whose cumulative weight exceeds it (R154). -/
def pick (q : List Nat) (r : Nat) : Nat :=
  match q with
  | [] => 0
  | w :: ws => if r < w then 0 else 1 + pick ws (r - w)

/-- How often each slice is drawn (R154). -/
def drawSlices (seed tag : Word) (q : List Nat) (n : Nat) : Tab Nat :=
  let total := q.foldl (· + ·) 0
  (List.range n).foldl (fun t i =>
    let k := pick q ((draw seed tag i).toNat * total / 2 ^ 32)
    tset t k (tget t k 0 + 1)) []

/-- ρ of an estimate (R156): from the drawn counts, the weights, the norms and the estimate's words. -/
def rhoOf (drawn : Tab Nat) (q : List Nat) (na nb : List (BitVec 32)) (n : Nat) (est : List (BitVec 32)) : BitVec 32 :=
  if n = 1 ∨ est.any notFinite then 0x7F800000
  else
    let total := q.foldl (· + ·) 0
    let t1 := drawn.foldl (fun (a : Nat × Nat) p =>
      let w := q.getD p.1 1
      let num := p.2 * fixed (na.getD p.1 0) * fixed (nb.getD p.1 0) * total ^ 2
      (a.1 * w ^ 2 + num * a.2, a.2 * w ^ 2)) (0, 1)
    let sq := est.foldl (fun a w => a + fixed w ^ 2) 0
    if t1.1 = 0 ∧ sq = 0 then 0
    else if sq = 0 then 0x7F800000
    else BitVec.ofNat 32 (roundRatio f32 (t1.1 - n * sq * t1.2) (n * (n - 1) * sq * t1.2))

/-- The audit's error e = ‖Ĉ − C‖² / ‖C‖² in FP64 (R158): none when it is infinite; and whether it exceeds ρ. -/
def auditError (est exact : List (BitVec 32)) (rho : BitVec 32) : Option Word × Bool :=
  let signedFixed := fun (w : BitVec 32) => match decodeF f32 w.toNat with
    | .fin n m e => FVal.signed n (m * 2 ^ (e + 149).toNat)
    | _ => 0
  let den := exact.foldl (fun a w => a + fixed w ^ 2) 0
  let num := (est.zip exact).foldl (fun a p => a + (signedFixed p.1 - signedFixed p.2).natAbs ^ 2) 0
  if est.any notFinite || exact.any notFinite || (den == 0 && num != 0) then (none, true)
  else
    let e := if den = 0 then 0 else roundRatio f64 num den
    if e = 0x7FF0000000000000 then (none, true)
    else (some (BitVec.ofNat 64 e), FVal.cmp (decodeF f64 e) (decodeF f32 rho.toNat) == 1)

/-- What a sampled task writes: its words, the status word and its audit (R153, R159). -/
structure Sampled where
  words : Tab (BitVec 32)
  status : Word := 0
  audit : Option (Option Word × Bool) := none
  err : Option ReadErr := none
  /-- How far into the words its passes came. -/
  upto : Nat := 0
  deriving DecidableEq, Repr

/-- The status word of a sampled task (R159). -/
def sampledStatus (nrec err : Nat) (aud exact : Bool) (rho : BitVec 32) : Word :=
  BitVec.ofNat 64 (Nat.min nrec 255 * 2 ^ 56 + err * 2 ^ 48 + bitAt aud 36 + bitAt exact 35 + 2 ^ 32 + rho.toNat)

namespace State

/-- The group of a core runs on the governed budget axis (R9, R158). -/
def governed (s : State) (cid : Nat) : Bool := match s.groupOf cid with | some g => g.mode.gov | none => false

/-- The number of draws: fixed, or governed by G (R158, R9). -/
def drawsOf (s : State) (cid samples : Nat) : Nat :=
  if s.governed cid then Nat.max 2 (samples * s.budget / 8) else samples

/-- The norms of the slices of an operand. -/
def normsOf (s : State) (cid n : Nat) : List (BitVec 32) :=
  match (s.handle cid n).norm with
  | none => []
  | some t => (List.range t.count).map fun k => (s.normEntry cid (t.first + k)).norm

/-- The stale norms of an operand recomputed, how many they were, and the error that one meets, which ends the task (R138,
R153). -/
def refreshStale (s : State) (cid n : Nat) : Nat × Option ReadErr × State :=
  let h := s.handle cid n
  match h.norm with
  | none => (0, none, s)
  | some t => (List.range t.count).foldl (fun (a : Nat × Option ReadErr × State) k =>
      if a.2.1.isSome || !(a.2.2.normEntry cid (t.first + k)).stale then a
      else match a.2.2.sliceNorm cid n h t k with
        | .ok v => (a.1 + 1, none, a.2.2.setNorm cid (t.first + k) { used := true, norm := v, stale := false })
        | .error e => (a.1, some e, a.2.2)) (0, none, s)

/-- One term of a contraction: its index, and its slice's scale in an estimate. -/
abbrev Term := Nat × Option FVal

/-- The passes of 64 terms over the words of a tile; the first takes C = +0 (R153, R155). -/
def termPasses (s : State) (cid region : Nat) (t : TaskRec) (fresh : Bool) (terms : List Term) (r : Sums) : Nat → Sums
  | 0 => r
  | fuel + 1 =>
    if terms.isEmpty then r
    else
      let c : Coding := { etype := t.etype }
      let part := terms.take 64
      let left := (List.range t.rows).map fun m =>
        (part.zip (s.operandRow cid region t.a c m (part.map (·.1)))).map fun p => match p.1.2 with
          | none => p.2
          | some k => p.2.map (FVal.mul k)
      let rows := part.map fun p => s.operandRow cid region t.b c p.1 (List.range 32)
      s.termPasses cid region t false (terms.drop 64) (r.block false fresh (fun _ => none) left (columns rows 32)) fuel

/-- A whole contraction over a list of terms. -/
def contract (s : State) (cid region : Nat) (t : TaskRec) (terms : List Term) (words : Tab (BitVec 32)) (upto : Nat := 0) : Sums :=
  s.termPasses cid region t true terms { words := words, upto := upto } (terms.length / 64 + 1)

/-- The terms of the exact product, and of the estimate. -/
def exactTerms (t : TaskRec) : List Term := (List.range t.klen).map fun j => (j, none)
def estimateTerms (t : TaskRec) (drawn : Tab Nat) (q : List Nat) (n : Nat) : List Term :=
  let total := q.foldl (· + ·) 0
  drawn.flatMap fun p =>
    let c := decodeF f32 (roundRatio f32 (p.2 * total) (n * q.getD p.1 1))
    (rangeFrom (p.1 * 2 ^ t.wlog) (2 ^ t.wlog)).map fun j => (j, some c)

/-- The words of a tile. -/
def tileWords (t : TaskRec) (w : Tab (BitVec 32)) : List (BitVec 32) := (List.range (32 * t.rows)).map (accWord w)

/-- The words and the status of a contraction, or of its failure (R138, R159). -/
def sampledOut (nrec : Nat) (aud exact : Bool) (rho : BitVec 32) (audit : Option (Option Word × Bool)) (r : Sums) : Sampled :=
  match r.err with
  | none => { words := r.words, status := sampledStatus nrec 0 aud exact rho, audit := audit, upto := r.upto }
  | some e => { words := r.words, status := sampledStatus nrec e.code false false rho, err := some e, upto := r.upto }

/-- A sampled task from the draws onwards (R154 to R158). -/
def sampledDraw (s : State) (cid region : Nat) (t : TaskRec) (words : Tab (BitVec 32)) (nrec : Nat) (na nb : List (BitVec 32))
    (q : List Nat) (n : Nat) : Sampled :=
  let drawn := drawSlices t.seed t.tag q n
  let est := s.contract cid region t (estimateTerms t drawn q n) words
  if est.err.isSome then sampledOut nrec false false 0 none est
  else
    let e := tileWords t est.words
    let rho := rhoOf drawn q na nb n e
    if FVal.cmp (decodeF f32 rho.toNat) (decodeF f32 t.vlim.toNat) = 1 then
      sampledOut nrec false true rho none (s.contract cid region t (exactTerms t) est.words est.upto)
    else if s.governed cid && decide ((draw t.seed t.tag 0xFFFFFFFF).toNat < s.effAudthr region) then
      let c := s.contract cid region t (exactTerms t) est.words est.upto
      sampledOut nrec true false rho (some (auditError e (tileWords t c.words) rho)) c
    else sampledOut nrec false false rho none est

/-- A sampled task at its start (R153): the state with the norms recomputed, and what the task writes. -/
def sampledStart (s : State) (cid region : Nat) (t : TaskRec) (words : Tab (BitVec 32)) : State × Sampled :=
  let ha := t.a.handle.getD 0
  let hb := t.b.handle.getD 0
  let ra := s.refreshStale cid ha
  let rb := if ra.2.1.isSome then (0, ra.2.1, ra.2.2) else ra.2.2.refreshStale cid hb
  let s := rb.2.2
  let nrec := ra.1 + rb.1
  let na := s.normsOf cid ha
  let nb := s.normsOf cid hb
  let exact := fun (_ : Unit) => sampledOut nrec false true 0 none (s.contract cid region t (exactTerms t) words)
  if rb.2.1.isSome then (s, sampledOut nrec false false 0 none { words := words, err := rb.2.1 })
  else if na.any notFinite || nb.any notFinite then (s, exact ())
  else
    let v := (na.zip nb).map fun p => sqrtProduct p.1 p.2
    let total := v.foldl (fun a x => BitVec.ofNat 32 (addF f32 .rne a.toNat x.toNat)) 0
    if total = 0x7F800000 then (s, exact ())
    else
      let q := v.map fun x => weight x total
      let n := s.drawsOf cid t.samples
      if q.all (· == 0) then 
        (s, sampledOut nrec false false 0 none { words := words.filter fun p => decide (32 * t.rows ≤ p.1), upto := 32 * t.rows })
      else if (q.filter (· != 0)).length ≤ n then (s, exact ())
      else (s, s.sampledDraw cid region t words nrec na nb q n)

end State
end Sys2Proof.Machine
end

