-- ==== Sys2Proof/Machine/Engines.lean ====
section
/-!
DEFINITION. The cluster queue (R126 to R129, R131, R132, R140 to R142): entries accepted, started and completed.
-/
namespace Sys2Proof.Machine

/-- The outcome of a step that no instruction word names. -/
def stepTo (f : State → State) (s : State) : Host.Outcome State Fault Refusal := .next (f s)

namespace State

/-- The pitch of a group and its region. -/
def pitchOf (s : State) (gid : Nat) : List Nat := match s.group? gid with | some g => g.pitch | none => []
def regionOf (s : State) (gid : Nat) : Nat := match s.group? gid with | some g => g.region | none => 0

/-! ### Acceptance (R126, R135) -/

/-- The write lock of an operand (R135, R232). -/
def operandLock (s : State) (e : Entry) (o : Operand) : Lock :=
  { full := false, global := o.cid.isNone, core := coreField (o.cid.getD 0), region := s.regid (s.regionOf e.gid) % 2 ^ 16
    base := o.base, len := (o.len + 15) / 16 * 16, hkind := 3, hidx := e.place, holder := e.id
    since := s.cycle }

/-- The locks that an entry needs: one for each operand of its task. -/
def entryLocks (s : State) (e : Entry) : List Lock :=
  match e.kind with
  | .task t _ _ => s.operandLock e t.a :: (if t.mode = 2 then [s.operandLock e t.b] else [])
  | _ => []

/-- An entry put into the queue with its locks and pins, if there is a place and a lock entry for each. -/
def tryEnqueue (s : State) (cl : Nat) (e : Entry) : Option State :=
  let e := { e with place := freePlace ((s.cluster cl).queue.map (·.place)) }
  let ls := s.entryLocks e
  if 32 ≤ (s.cluster cl).queue.length ∨ s.freeLocks cl < ls.length then none
  else
    let s := ls.foldl (fun s l => s.takeLock cl l) s
    let s := e.handles.foldl (fun s n => let h := s.handle e.cid n; s.setHandle e.cid n { h with pins := h.pins + 1 }) s
    some ((s.modCluster cl fun c => { c with queue := c.queue ++ [e] }).kickQueue cl)

/-- An entry that the issuing context posts: accepted, or waiting behind those that wait already (R127). -/
def postEntry (s : State) (kind : EntryKind) (units : List (Word × Loc)) : Bool × Nat × State :=
  let cl := clusterOf s.curCid
  let f := s.fresh
  let s := f.2
  let e : Entry :=
    { id := f.1, cid := s.curCid, slot := s.curSlot, serial := s.here.serial, gid := s.here.gid, kind := kind, units := units }
  match if (s.cluster cl).waiting.isEmpty then s.tryEnqueue cl e else none with
  | some s => (true, f.1, s)
  | none => (false, f.1, s.modCluster cl fun c => { c with waiting := c.waiting ++ [e] })

/-- Waiting entries accepted in the order of their issue, as long as each can be. -/
def acceptWaiting (s : State) (cl : Nat) : Nat → State
  | 0 => s
  | fuel + 1 =>
    match (s.cluster cl).waiting with
    | [] => s
    | e :: rest =>
      match s.tryEnqueue cl e with
      | none => s
      | some s =>
        let s := s.modCluster cl fun c => { c with waiting := rest }
        let s := match s.ownerOf e.cid e.slot e.serial with
          | some (c, i) => if (s.slot c i).wait = Wait.enqueue then s.wake c i else s
          | none => s
        s.acceptWaiting cl fuel

/-! ### Start (R128) -/

/-- An accumulator is busy. -/
def accBusy (s : State) (cl acc : Nat) : Bool := (s.running cl).any fun e => e.acc?.contains acc

/-- An accumulator of a cluster. -/
def acc (s : State) (cl n : Nat) : Acc := tget (s.cluster cl).accs n {}
def setAccumulator (s : State) (cl n : Nat) (a : Acc) : State := s.modCluster cl fun c => { c with accs := tset c.accs n a }
def engine (s : State) (cl e : Nat) : Engine := tget (s.cluster cl).engines e {}
def setEngine (s : State) (cl e : Nat) (x : Engine) : State := s.modCluster cl fun c => { c with engines := tset c.engines e x }

/-- An entry of the queue changed. -/
def putEntry (s : State) (cl : Nat) (e : Entry) : State :=
  s.modCluster cl fun c => { c with queue := c.queue.map fun x => if x.id == e.id then e else x }

/-- An entry started: it completes after cycles that no rule promises (R138, log 5), before the accesses of that cycle, since
its locks end (R233); and the next one is tried. -/
def begun (s : State) (cl : Nat) (e : Entry) (kind work : Nat) : State :=
  let s := s.putEntry cl { e with started := true }
  (s.schedule (.cycle (s.cycle + 1 + Config.engineCycles kind work)) (releaseRank (e.source cl e.engine)) .entryCompletion
    { a := cl, b := e.id }).kickQueue cl

/-- The oldest entry that has not started, if the step is that of its kind. -/
def startable (s : State) (step : Instr) : Option Entry :=
  match s.headEntry s.obj.a with
  | some e => if e.kind.startStep = step then some e else none
  | none => none

/-- A task on an engine whose active plane is MX writes a second accumulator (R137). -/
def taskAcc2 (s : State) (cl eng : Nat) (t : TaskRec) (a b : Nat) : Nat :=
  if t.mode = 0 ∧ (s.engine cl eng).active.tag = 15 then b else a

/-- An accumulator is free and holds the expected version. -/
def accReady (s : State) (cl : Nat) (t : TaskRec) (n : Nat) : Bool := !s.accBusy cl n && (s.acc cl n).version == t.expver

/-- STATUS of a task that is not sampled (R143). -/
def taskStatus (s : State) (gid eng : Nat) (r : Sums) : Word :=
  BitVec.ofNat 64 ((match r.err with | some e => e.code | none => 0) * 2 ^ 48 + bitAt r.ovf 34 + bitAt (4 ≤ (s.pitchOf gid).length && eng == 1) 33 + 2 ^ 32)

/-- The passes of a task, or the figures that stand for its length. -/
def taskWork (t : TaskRec) : Nat := if t.mode = 2 then (t.klen + 63) / 64 * t.rows else t.rows

/-- A task starts: what it writes is computed from its operands as they stand (log 11). -/
def startTask (s : State) (cl : Nat) (e : Entry) (t : TaskRec) (a b eng : Nat) : State :=
  let region := s.regionOf e.gid
  let s := (s.meetTask cl e.cid region eng t a).useOperands cl e.cid region eng t
  let source := engineSource cl eng
  if t.samp then
    let p := s.sampledStart e.cid region t (s.acc cl a).words
    (p.1.logRead source p.2.err).begun cl
      { e with engine := eng, kind := .task t a a, words := [(a, p.2.words)], status := p.2.status, audit := p.2.audit
               reach := [(a, p.2.upto, 32)] } 1 (taskWork t)
  else
    let r := s.taskSums cl e.cid region eng t a b
    let words := if a = b then [(a, r.words)] else [(a, r.words), (b, r.second)]
    let cols := if t.mode = 1 then t.rows else 32
    (s.logRead source r.err).begun cl
      { e with engine := eng, kind := .task t a (s.taskAcc2 cl eng t a b), words := words, status := s.taskStatus e.gid eng r
               reach := if a = b then [(a, r.upto, cols)] else [(a, r.upto, cols), (b, r.upto2, cols)] } 0 (taskWork t)

/-- TASK_START (R128, R136, R153). -/
def tryTask (s : State) : State :=
  let cl := s.obj.a
  match s.startable .taskStart with
  | none => s
  | some e =>
    match e.kind with
    | .task t a b =>
      let waits := t.bar && (s.running cl).any fun x => match x.kind with | .task _ _ _ => true | _ => false
      match if waits then none else s.taskEngine cl t with
      | none => s
      | some eng =>
        let b' := s.taskAcc2 cl eng t a b
        if s.accReady cl t a && s.accReady cl t b' then
          s.startTask cl e t a (if t.mode = 0 ∧ (s.engine cl eng).active.tag = 15 then b else a) eng
        else s
    | _ => s

/-- A context whose entry has ended at once or in time goes on. -/
def wakeEntry (s : State) (e : Entry) : State :=
  match s.ownerOf e.cid e.slot e.serial with
  | some (c, i) => if (s.slot c i).wait = .engine e.id then s.wake c i else s
  | none => s

end State

/-! ### What waits for the units of a group (R144, R191, R199) -/

/-- The end of an entry, request or transfer of a group may let its pitch go, hand it off, or go on to save it. -/
def State.unitEnded (s : State) (gid : Nat) : State :=
  match s.group? gid with
  | none => s
  | some g =>
    match g.state with
    | .ending => s.tryRelease gid
    | .handOff => s.schedule (.cycle s.cycle) 1 .resoleScrub { a := gid }
    | _ => s

namespace State

/-- An entry that completes in the step in which it starts. -/
def finishNow (s : State) (cl : Nat) (e : Entry) : State :=
  (((s.removeEntry cl e).kickQueue cl).retryPosted).unitEnded e.gid

/-- SWAP_START (R131): the planes of an engine exchange roles. -/
def trySwap (s : State) : State :=
  let cl := s.obj.a
  match s.startable .swapStart with
  | none => s
  | some e =>
    match e.kind with
    | .swap n =>
      if s.engineBusy cl n then s
      else
        let x := s.engine cl n
        let swapKey := fun (k : Nat × Nat) =>
          let lo := cl * 2 ^ 20 + 2 ^ 18 + 2 * n * 4096
          if k.1 = 4 ∧ lo ≤ k.2 ∧ k.2 < lo + 4096 then (4, k.2 + 4096)
          else if k.1 = 4 ∧ lo + 4096 ≤ k.2 ∧ k.2 < lo + 8192 then (4, k.2 - 4096) else k
        let s := { s with lasting := s.lasting.map swapKey }
        (s.setEngine cl n { x with active := x.shadow, shadow := x.active }).finishNow cl e
    | _ => s

/-- CODEBOOK_LOAD_START (R132): no running task on the engine uses the slot. -/
def tryCodebook (s : State) : State :=
  let cl := s.obj.a
  match s.startable .codebookLoadStart with
  | none => s
  | some e =>
    match e.kind with
    | .codebook n slot entries =>
      let x := s.engine cl n
      let used := (s.running cl).any fun r => match r.kind with
        | .task t _ _ => r.engine == n && t.mode != 2 && x.active.tag == 14 && t.cbslot == slot
        | _ => false
      if used then s
      else
        let cb := entries.zipIdx.foldl (fun cb p => tset cb (16 * slot + p.2) p.1) x.cb
        ((s.setEngine cl n { x with cb := cb }).engineMend (codePlace cl n slot) 32).finishNow cl e
    | _ => s

/-- ZERO_START, FILL_START, SCALE_START (R128): the accumulators that the entry names are free. -/
def tryPort (s : State) (step : Instr) (kind : Nat) : State :=
  let cl := s.obj.a
  match s.startable step with
  | none => s
  | some e =>
    if e.acc?.any (s.accBusy cl) then s
    else
      let s := match e.kind with
        | .scale d x _ _ _ =>
          if s.errorFree then s else [d, x].foldl (fun s a => s.meetEngine (accPlace cl a 0) 8192 (engineSource cl 0)) s
        | _ => s
      s.begun cl e kind 64

/-! ### Drains (R140) -/

/-- The 16 bytes of unit i of the tile that a drain writes. -/
def drainUnit (s : State) (cl acc : Nat) (bf : Bool) (i : Nat) : List Byte :=
  let w := (s.acc cl acc).words
  if bf then (rangeFrom (8 * i) 8).flatMap fun k => leBytes 2 (roundF bf16 .rne (decodeF f32 (accWord w k).toNat))
  else (rangeFrom (4 * i) 4).flatMap fun k => leBytes 4 (accWord w k).toNat

/-- The words of a unit meet a lasting error. -/
def drainBad (s : State) (cl acc : Nat) (bf : Bool) (i : Nat) : Bool :=
  if bf then s.engineBad (accPlace cl acc (8 * i)) || s.engineBad (accPlace cl acc (8 * i + 4))
  else s.engineBad (accPlace cl acc (4 * i))

/-- The units of a drain written in their order, one that leaves the core a cycle after the other, up to one that fails: its
trap, and the state (R140, R236). -/
def drainFrom (s : State) (cl acc : Nat) (bf : Bool) (e : Entry) : List ((Word × Loc) × Nat) → Option TrapInfo × State
  | [] => (none, s)
  | ((va, loc), i) :: rest =>
    let trap := fun c => some { cause := c, tval := va, use := if c = .memerr then 0 else 1, write := true : TrapInfo }
    if s.drainBad cl acc bf i then (trap .memerr, s.logError (4, accPlace cl acc ((if bf then 8 else 4) * i)) 0 e.cid 3)
    else
      let locked := match loc.home with
        | .scratch h => h == e.cid && s.scratchLocked h loc.addr 16 true
        | _ => s.globalLocked e.cid (s.regionOf e.gid) va.toNat 16 true
      if locked then (trap .rangeLock, s)
      else
        let bs := s.drainUnit cl acc bf i
        let s := if loc.home = .scratch e.cid then s.storeChecked loc (allOn bs) e.cid
          else
            (s.post { id := 0, kind := .store, cid := e.cid, slot := e.slot, serial := e.serial, region := s.regionOf e.gid, va := va
                      loc := loc, size := 16, data := BitVec.ofNat 128 (leNat bs), mask := 0xFFFF, use := 1, ins := .storeAck } true i).2
        drainFrom s cl acc bf e rest

/-- A raw tile for the collective engine's plan slot (R140, R174). -/
def streamTile (s : State) (cid slot : Nat) (bs : List Byte) : State :=
  match tfind (s.die (dieOf cid)).plans slot with
  | none => s
  | some id => (s.modTransfer id fun t => { t with input := t.input ++ bs }).schedule (.cycle s.cycle) (rankOf (collectiveSource (dieOf cid)))
    .rscatCompletion { a := id }

/-- DRAIN_START (R140). -/
def tryDrain (s : State) : State :=
  let cl := s.obj.a
  match s.startable .drainStart with
  | none => s
  | some e =>
    if e.acc?.any (s.accBusy cl) then s
    else
    let s := if s.errorFree then s else e.acc?.foldl (fun s a => s.meetEngine (accPlace cl a 0) 8192 e.cid) s
    match e.kind with
      | .drain a bf =>
        let p := drainFrom s cl a bf e e.units.zipIdx
        p.2.begun cl { e with trap := p.1 } 2 64
      | .drainCe a slot =>
        match (List.range 512).find? (s.drainBad cl a false) with
        | some i => (s.logError (4, accPlace cl a (4 * i)) 0 e.cid 3).begun cl { e with trap := some { cause := .memerr, tval := BitVec.ofNat 64 slot } } 2 64
        | none => (s.streamTile e.cid slot ((List.range 512).flatMap (s.drainUnit cl a false))).begun cl e 2 64
      | _ => s

/-! ### Completion (R129) -/

/-- The contexts of a cluster that wait for a version, tested at its advance (R139). -/
def wakeVersions (s : State) (cl acc : Nat) : State :=
  (List.range 4).foldl (fun s c => s.eachSlot fun s i =>
    let x := s.slot (4 * cl + c) i
    match x.wait with
    | .version a v => if x.live && a == acc && (s.acc cl acc).version.toNat == v then s.wake (4 * cl + c) i else s
    | _ => s) s

/-- Words, status and version of an accumulator written in the completion step: the words up to a number, in a number of
columns. -/
def completeAcc (s : State) (cl acc : Nat) (words : Option (Tab (BitVec 32))) (status : Option Word)
    (reach : Nat × Nat := (2048, 32)) : State :=
  let a := s.acc cl acc
  let s := s.setAccumulator cl acc { words := words.getD a.words, version := a.version + 1, status := status.getD a.status }
  (if words.isSome then s.mendAcc cl acc reach else s).wakeVersions cl acc

/-- The region's audit counters after an audited task (R158). -/
def countAudit (s : State) (region : Nat) (a : Option Word × Bool) : State :=
  match tfind s.regions region with
  | none => s
  | some r =>
    let r := { r with audcnt := r.audcnt + 1
                      audsum := match a.1 with
                        | some e => BitVec.ofNat 64 (addF f64 .rne r.audsum.toNat e.toNat)
                        | none => r.audsum
                      audexc := if a.2 then r.audexc + 1 else r.audexc }
    let s := { s with regions := tset s.regions region r }
    s.writeHbm (region + 200) (leBytes 8 r.audcnt.toNat ++ leBytes 8 r.audsum.toNat ++ leBytes 8 r.audexc.toNat)

/-- A task's results (R129, R143): an entry of a killed group arrives nowhere (R279). -/
def completeTask (s : State) (cl : Nat) (e : Entry) (t : TaskRec) (a b : Nat) : State :=
  let wordsOf := fun n => if (tfind e.words n).isSome then tfind e.words n else none
  let s := s.completeAcc cl a (wordsOf a) (some e.status) (tget e.reach a (0, 0))
  let s := if a = b then s else s.completeAcc cl b (wordsOf b) (some e.status) (tget e.reach b (0, 0))
  let s := match e.audit with
    | some x => s.countAudit (s.regionOf e.gid) x
    | none => s
  match t.rdv with
  | some pt => if e.silent then s else s.unitArrival e.cid e.gid pt none
  | none => s

/-- The context of a drain goes on once all its writes have been sent, or traps (R140). -/
def completeDrain (s : State) (e : Entry) : State :=
  match s.ownerOf e.cid e.slot e.serial with
  | none => s
  | some (c, i) =>
    if (s.slot c i).wait ≠ .engine e.id then s
    else match e.trap with
      | some t => s.trapWaiting c i t
      | none =>
        if 64 < s.ustore e.serial then s.modSlot c i fun x => { x with wait := .ustore } else s.wake c i

/-- ENTRY_COMPLETION (R129). -/
def completeEntry (s : State) : State :=
  let cl := s.obj.a
  match (s.cluster cl).queue.find? fun e => e.id == s.obj.b with
  | none => s
  | some e =>
    let s := s.removeEntry cl e
    let s := match e.kind with
      | .task t a b => s.completeTask cl e t a b
      | .zero a => s.completeAcc cl a (some []) (some 0)
      | .fill a ws => s.completeAcc cl a (some (ws.zipIdx.foldl (fun (w : Tab (BitVec 32)) (p : BitVec 32 × Nat) => setAcc w p.2 p.1) [])) (some 0)
      | .scale d x fmt sa sb => s.completeAcc cl d (some (scaleWords fmt (s.acc cl d).words (s.acc cl x).words sa sb)) none
      | .drain _ _ | .drainCe _ _ => s.completeDrain e
      | .swap _ | .codebook _ _ _ => s
    ((s.kickQueue cl).retryPosted).unitEnded e.gid

end State

/-- ENGINE_QUEUE_ACCEPT (R126). -/
def execEngineQueueAccept (s : State) : Host.Outcome State Fault Refusal := stepTo (fun s => s.acceptWaiting s.obj.a 64) s
/-- TASK_START (R128). -/
def execTaskStart (s : State) : Host.Outcome State Fault Refusal := stepTo State.tryTask s
/-- SWAP_START (R131). -/
def execSwapStart (s : State) : Host.Outcome State Fault Refusal := stepTo State.trySwap s
/-- CODEBOOK_LOAD_START (R132). -/
def execCodebookLoadStart (s : State) : Host.Outcome State Fault Refusal := stepTo State.tryCodebook s
/-- DRAIN_START (R140). -/
def execDrainStart (s : State) : Host.Outcome State Fault Refusal := stepTo State.tryDrain s
/-- ZERO_START (R141). -/
def execZeroStart (s : State) : Host.Outcome State Fault Refusal := stepTo (fun s => s.tryPort .zeroStart 3) s
/-- FILL_START (R141). -/
def execFillStart (s : State) : Host.Outcome State Fault Refusal := stepTo (fun s => s.tryPort .fillStart 4) s
/-- SCALE_START (R142). -/
def execScaleStart (s : State) : Host.Outcome State Fault Refusal := stepTo (fun s => s.tryPort .scaleStart 5) s
/-- ENTRY_COMPLETION (R129). -/
def execEntryCompletion (s : State) : Host.Outcome State Fault Refusal := stepTo State.completeEntry s

end Sys2Proof.Machine
end

