-- ==== Sys2Proof/Machine/Transfers.lean ====
section
/-!
DEFINITION. The transfer units and the gates (R161, R167 to R171): acceptance, source reads, tokens, landings.
-/
namespace Sys2Proof.Machine

/-- The packets of a message of a length (R168), and the bytes of packet n: offset and size.  A chunk of no bytes has one. -/
def packetCount (len : Nat) : Nat := Nat.max 1 ((len + 4095) / 4096)
def packetPart (len n : Nat) : Nat × Nat := (4096 * n, Nat.min 4096 (len - 4096 * n))

/-- The 16-byte units of n bytes at an offset of a buffer with a swizzle, each with its place and its offset, in ascending
place (R169, R228, R237). -/
def landingUnits (swz len off n : Nat) : List (Nat × Nat) :=
  let first := off / 2048 * 2048
  ((List.range ((off + n - first + 2047) / 2048 * 128)).map fun i =>
    (first + 16 * i, swizzleLogical swz len (first + 16 * i))).filter fun p => decide (off ≤ p.2) && decide (p.2 < off + n)

namespace Transfer

/-- The length of a message. -/
def len (t : Transfer) : Nat :=
  match t.kind with
  | .send r => r.len
  | .chunk r => r.len
  | _ => 0

/-- The source number of what a transfer unit or an engine does for it (R4, R236). -/
def source (t : Transfer) : Nat :=
  match t.kind with
  | .chunk _ | .rscat _ => collectiveSource (dieOf t.cid)
  | .vdec r => decoderSource (dieOf t.cid) r.dec
  | _ => t.cid

/-- The packets that token k covers. -/
def tokenPackets (t : Transfer) (k : Nat) : List Nat :=
  (rangeFrom (t.prefixed + 4 * k) 4).filter fun n => decide (n < packetCount t.len)

/-- A packet has landed. -/
def landed (t : Transfer) (n : Nat) : Bool := t.packets.any fun p => p.n == n && p.landed

/-- Every packet has been read, and has landed. -/
def allRead (t : Transfer) : Bool := t.packets.length == packetCount t.len
def allLanded (t : Transfer) : Bool := t.allRead && t.packets.all (·.landed)

/-- A token is outstanding: granted, and not all of its packets landed (R168). -/
def outstanding (t : Transfer) (k : Token) : Bool := k.granted && !(t.tokenPackets k.k).all t.landed

/-- The plan of a transfer (R174). -/
def plan? (t : Transfer) : Option PlanRec := match t.kind with | .rscat r => some r | _ => none

end Transfer

namespace State

/-! ### Bytes of a range that a unit reads or writes -/

/-- The place of n bytes of one page that a unit of a core reads or writes by R82 (R172, R174); home is the core that a
home-core address names. -/
def unitLoc (s : State) (cid home region : Nat) (va : Word) (n : Nat) (write : Bool) : Option Loc :=
  let scratch := fun (h off : Nat) =>
    if 0x60000 < off + n ∨ s.scratchLocked h off n write ∨ (h ≠ cid ∧ !s.livePitch h region) then none
    else some ({ home := .scratch h, addr := off } : Loc)
  match windowOf va with
  | .malformed => none
  | .scratch off => scratch cid off
  | .peer f off => scratch (if f = 0xFFF then home else f) off
  | .global a =>
    match s.unitPlace cid region a write with
    | .ok l => if l.home.isNode || s.globalLocked cid region a n write then none else some l
    | .error _ => none

/-- The parts of a range that lie in one unit of 16 bytes each: the offset of each from the first byte, and its length. -/
def unitPieces (va : Word) (n : Nat) : List (Nat × Nat) :=
  let a := va.toNat % 16
  ((List.range ((a + n + 15) / 16)).map fun i =>
    let lo := Nat.max a (16 * i)
    (lo - a, Nat.min (a + n) (16 * i + 16) - lo))

/-- The walk that a unit of a core needs for an address that no TLB holds meets what errors its entries have (R270, R280). -/
def noteUnit (s : State) (source cid region : Nat) (va : Word) : State :=
  let d := dieOf cid
  match windowOf va with
  | .global a =>
    if ((tlbLookup (s.core cid).tlb region a).orElse fun _ => tlbLookup (s.die d).tlb region a).isSome then s
    else s.noteWalk region a d source
  | _ => s

/-- Part of a unit that a unit of a source reads: none where a check fails, the tier's link is down or it does not serve the
read (R274), or an error is lasting, which is logged (R91, R275, R282). -/
def unitFetch (s : State) (source cid home region : Nat) (tierOk : Bool) (va : Word) (n : Nat) : Option (List Byte) × State :=
  let s := s.noteUnit source cid region va
  match s.unitLoc cid home region va n false with
  | none => (none, s)
  | some l =>
    if l.tier && (!tierOk || s.tierLost l.pa) then (none, s)
    else
      let e := if s.errorFree then (false, s) else s.eccRead l n source
      if e.1 then (none, e.2) else (some (e.2.readLoc l n), e.2.useL2 l)

/-- The parts of a range read in ascending order, up to the first that fails: whether all could be read, and their bytes. -/
def unitRange (s : State) (source cid home region : Nat) (tierOk : Bool) (va : Word) : List (Nat × Nat) → (Bool × List Byte) × State
  | [] => ((true, []), s)
  | p :: ps =>
    match s.unitFetch source cid home region tierOk (va + BitVec.ofNat 64 p.1) p.2 with
    | (none, s) => ((false, []), s)
    | (some bs, s) =>
      let r := s.unitRange source cid home region tierOk va ps
      ((r.1.1, bs ++ r.1.2), r.2)

/-- The place of 16 bytes of the source or of the global destination of a SEND, which its issue has checked; a member of a
multicast entry that is this module performs the bytes at the remote address in its own HBM (R276, R287), and so do those of a
message from another module.  A failure says
whether it is the tier's (R170, R275). -/
def sendPlace (s : State) (t : Transfer) (va : Word) (write : Bool) : Except Bool Loc :=
  match windowOf va with
  | .scratch off => .ok { home := .scratch t.cid, addr := off }
  | .global a =>
    if t.sender.isSome then .ok (s.hbmLoc a)
    else match s.unitPlace t.cid t.region a write with
    | .error _ => .error false
    | .ok l =>
      match l.home with
      | .node n => if 1000 ≤ n ∧ l.addr < hbmTop then .ok (s.hbmLoc l.addr) else .error false
      | _ => if l.tier && s.tierLost l.pa then .error true else .ok l
  | _ => .error false

/-- Units of a source read in ascending order: their bytes, or the failure of one (R91, R170). -/
def readSource (s : State) (t : Transfer) (va : Word) : Nat → Except Bool (List Byte) × State
  | 0 => (.ok [], s)
  | n + 1 =>
    let s := s.noteUnit t.cid t.cid t.region va
    match s.sendPlace t va false with
    | .error tier => (.error tier, s)
    | .ok l =>
      let e := if s.errorFree then (false, s) else s.eccRead l 16 t.cid
      if e.1 then (.error false, e.2)
      else
        match (e.2.useL2 l).readSource t (va + 16) n with
        | (.ok bs, s) => (.ok (e.2.readLoc l 16 ++ bs), s)
        | r => r

/-- A step of a source at a home, due after a free delay in a cycle in which it presents no other access (R236). -/
def unclockedUnit (s : State) (source rank : Nat) (ins : Instr) (obj : Obj) : State :=
  let d := s.delay
  let used := s.agenda.filterMap fun e =>
    match e.due with
    | .cycle n => if e.rank = rankOf source ∨ e.rank = releaseRank source then some n else none
    | _ => none
  d.2.schedule (.cycle (firstFree used (s.cycle + d.1) used.length)) rank ins obj

/-! ### The end of messages (R169, R170) -/

/-- The receiver of a message holds a live pitch of the sender's region or of one of its ancestors (R166, R169). -/
def reaches (s : State) (t : Transfer) : Bool := s.livePitchUp t.receiver t.region

/-- A per-peer error bit of a sender on this module (R99). -/
def sendError (s : State) (t : Transfer) (node : Nat) : State :=
  if t.sender.isSome then s else s.setPeerError t.cid t.slot t.serial node false

/-- A failing tier ends a message, and an event says so (R170, R275); any other failure ends it alike. -/
def failMessage (s : State) (t : Transfer) (tier : Bool) (side : Nat) : State :=
  if tier then s.schedule (.cycle s.cycle) (rankOf t.source) .cxlTransferFailure { a := t.id, c := side }
  else s.abandonMessage t (s.reaches t)

/-- A message of which every packet has been read and has landed is done; DONE is told after the last acknowledgement.  A
chunk that has landed is for the engine of its receiver. -/
def finishSend (s : State) (id : Nat) : State :=
  match s.transfer? id with
  | none => s
  | some t =>
    let all := if t.orphaned then t.packets.all (·.landed)
      else (t.readDone || t.sender.isSome) && t.nodes.isEmpty && (!t.here || t.allLanded)
    if !all then s
    else match t.kind with
    | .send r =>
      match (if t.orphaned || t.abandoned then none else r.done) with
        | none => ((s.answerSender t (!t.orphaned)).dropTransfer id).unitEnded t.gid
        | some _ => s.unclocked (rankOf t.cid) .sendDone { a := id }
    | .chunk _ =>
      if t.orphaned || !t.here then (s.answerSender t false).dropTransfer id
      else s.schedule (.cycle s.cycle) (rankOf (collectiveSource (dieOf t.receiver))) .rscatCompletion { a := id, c := 4 }
    | _ => s

/-- The plan that a chunk is for: a plan of its identifier and rank on the core that it names (R174). -/
def planAt (s : State) (r : ChunkRec) : Option Transfer :=
  s.transfers.find? fun u =>
    match u.plan? with
    | some q => u.accepted && u.cid == r.core && q.planid == r.planid && q.rank == r.rank
    | none => false

/-- Packets may land: the lock message is through, every other module has answered (R167, R170), and the receiver of a chunk
has issued its RSCAT (R174). -/
def mayLand (s : State) (t : Transfer) : Bool :=
  t.locked && t.nodes.isEmpty && t.here && (match t.kind with | .chunk r => (s.planAt r).isSome | _ => true)

/-- Where a packet of a message lands, unit by unit: the places from the origin with the offsets in the message. -/
def packetUnits (s : State) (t : Transfer) (n : Nat) : List (Nat × Nat) :=
  let part := packetPart t.len n
  match t.kind with
  | .send r =>
    if r.toHandle then
      (landingUnits r.swz (s.handle t.receiver r.x).len (r.dst + part.1) part.2).map fun p => (p.1, p.2 - r.dst)
    else landingUnits r.swz r.len part.1 part.2
  | _ => []

/-- The landing of a unit of a packet is due; the last one comes first among the steps of its cycle, since it may release the
lock of the destination (R233). -/
def sendUnit (s : State) (t : Transfer) (n u : Nat) : State :=
  let last := decide ((s.packetUnits t n).length ≤ u + 1)
  s.unclockedUnit t.source (if last then releaseRank t.source else rankOf t.source) .packetLanding { a := t.id, b := n, c := u }

/-- The packets read so far go on their way once they may land. -/
def sendPackets (s : State) (id : Nat) : State :=
  match s.transfer? id with
  | none => s
  | some t => if s.mayLand t then (t.packets.filter (!·.landed)).foldl (fun s p => s.sendUnit t p.n 0) s else s

/-- A packet that has been read: it goes on its way, if it may. -/
def packetRead (s : State) (t : Transfer) (n : Nat) (bs : List Byte) : State :=
  let t := { t with packets := t.packets ++ [{ n := n, bytes := bs }] }
  let s := s.modTransfer t.id fun _ => t
  if s.mayLand t then s.sendUnit t n 0 else s

/-- Packets read from the source (R168, R171); after the last one the source is released at a time of its own.  The packets of
a message whose destination is on another module are read alike. -/
def readPackets (s : State) (id : Nat) : List Nat → State
  | [] =>
    match s.transfer? id with
    | some t => if t.allRead then s.unclocked (releaseRank t.source) .lastSourceRead { a := id } else s
    | none => s
  | n :: ns =>
    match s.transfer? id with
    | none => s
    | some t =>
      let p := packetPart t.len n
      match t.kind with
      | .send r =>
        match s.readSource t (r.src + BitVec.ofNat 64 p.1) (p.2 / 16) with
        | (.error tier, s) => s.failMessage t tier 0
        | (.ok bs, s) => (s.packetRead t n bs).readPackets id ns
      | _ => (s.packetRead t n ((t.input.drop p.1).take p.2)).readPackets id ns

/-! ### Acceptance (R161, R167) -/

/-- Transfers of a core that occupy its unit, of the kind of another. -/
def TransferKind.tag : TransferKind → Nat
  | .send _ => 0 | .gather _ => 1 | .rscat _ => 2 | .vdec _ => 3 | .chunk _ => 4
def unitSize : Nat → Nat
  | 0 => 16 | 1 => 4 | 2 => 2 | _ => 8
def unitHolds (s : State) (cid : Nat) (k : TransferKind) : List Nat :=
  (s.transfers.filter fun t => t.accepted && t.sender.isNone && t.cid == cid && TransferKind.tag t.kind == TransferKind.tag k
    && !(TransferKind.tag k == 0 && t.readDone)).map (·.place)

/-- The lock entries that a transfer takes at issue (R167, R172), in the issuing core's cluster. -/
def transferLocks (s : State) (t : Transfer) : List Lock :=
  let regid := s.regid t.region % 2 ^ 16
  let mk : Bool → Word → Nat → Nat → Lock := fun full va len kind =>
    match windowOf va with
    | .scratch off =>
      { full := full, global := false, core := coreField t.cid, region := 0, base := off, len := len, hkind := kind, hidx := t.place
        holder := t.id, since := s.cycle }
    | _ => { full := full, global := true, core := 0, region := regid, base := va.toNat, len := len, hkind := kind, hidx := t.place
             holder := t.id, since := s.cycle }
  match t.kind with
  | .send r =>
    (if r.srcHandle.isSome then [] else [mk false r.src r.len 0])
      ++ if r.scratch || r.toHandle then [] else [mk true (BitVec.ofNat 64 r.dst) r.len 1]
  | .gather r => if r.count = 0 then [] else [mk false (BitVec.ofNat 64 r.list) ((4 * r.count + 15) / 16 * 16) 2]
  | _ => []

/-- Fabric messages outstanding from a region and its descendants stay within FABTOK of each (R250, R251). -/
def fabricRoom (s : State) (region n : Nat) : Bool :=
  n == 0 || (s.ancestry region).all fun p =>
    let held := (s.transfers.filter fun t => t.accepted && s.isAncestor p.1 t.region).foldl (fun a t => a + t.nodes.length) 0
    decide (held + n ≤ s.effFabtok p.1)

/-- A message for another module (R286). -/
def fabricSend (s : State) (t : Transfer) (node : Nat) : State :=
  (s.inject { id := 0, node := node, kind := .transfer t.id, region := s.regid t.region, cid := t.cid, slot := t.slot
              det := (match s.group? t.gid with | some g => g.mode.det | none => false) }).2

/-- A message begins (R167, R168): its lock message and its prefix leave, and a request for the rest goes to the gate.  The
source is read in a step of its own, after the accesses of the cycle of the take (R233). -/
def startMessage (s : State) (t : Transfer) (scratch : Bool) : State :=
  let total := packetCount t.len
  let pre := Nat.min total t.prefixed
  let toks := (List.range ((total - pre + 3) / 4)).map fun k => ({ k := k } : Token)
  let t := { t with prefixed := pre, tokens := if t.here then toks else [], locked := !scratch }
  let s := s.modTransfer t.id fun _ => t
  let s := t.nodes.foldl (fun s n => s.fabricSend t n) s
  let s := if t.here && scratch then
      (s.post { id := 0, kind := .lockMsg t.id, cid := t.cid, slot := 16, serial := 0, region := t.region, va := 0
                loc := { home := .scratch t.receiver, addr := 0 }, size := 0, ins := .lockMessageArrival }).2
    else s
  let s := if t.tokens.isEmpty then s else s.unclocked (rankOf t.source) .gateRequest { a := t.id }
  s.schedule (.cycle s.cycle) (takeRank t.source) .transferAccept { a := t.cid, b := t.id }

/-- A SEND begins: its source handle drains. -/
def startSend (s : State) (t : Transfer) (r : SendRec) : State :=
  let s := match r.srcHandle with
    | some h => s.putHandle t.cid h { s.handle t.cid h with state := .draining }
    | none => s
  s.startMessage t (r.scratch || r.toHandle)

/-- A GATHER begins (R172): with no indices it is complete at once. -/
def startGather (s : State) (t : Transfer) (r : GatherRec) : State :=
  if r.count = 0 then s.schedule (.cycle s.cycle) (rankOf t.cid) .gatherCompletion { a := t.id }
  else s.schedule (.cycle s.cycle) (takeRank t.cid) .transferAccept { a := t.cid, b := t.id }

/-- The bytes of an element of a plan. -/
def planSize (r : PlanRec) : Nat := if r.etype = 9 then 4 else 2

/-- A plan begins (R174): a streaming one opens its slot, any other reads its input; chunks that have come for it may land. -/
def startPlan (s : State) (t : Transfer) (r : PlanRec) : State :=
  let s :=
    if r.stream then
      (s.modDie (dieOf t.cid) fun d => { d with plans := tset d.plans r.slot t.id }).schedule (.cycle s.cycle) (rankOf t.source)
        .rscatCompletion { a := t.id }
    else s.schedule (.cycle s.cycle) (rankOf t.source) .rscatCompletion { a := t.id, c := 1 }
  (s.transfers.filter fun u =>
    match u.kind with
    | .chunk c => c.core == t.cid && c.planid == r.planid && c.rank == r.rank
    | _ => false).foldl (fun s u => s.sendPackets u.id) s

/-- A decoder's command joins its queue (R175). -/
def startCommand (s : State) (t : Transfer) (r : VdecRec) : State :=
  let s := s.modDie (dieOf t.cid) fun d => { d with decoders := tset d.decoders r.dec (tget d.decoders r.dec [] ++ [t.id]) }
  s.unclocked (rankOf t.source) .vdecCommandStart { a := dieOf t.cid, b := r.dec }

/-- The plan slot that a streaming plan opens is open (R174). -/
def slotTaken (s : State) (t : Transfer) : Bool :=
  match t.kind with
  | .rscat r => r.stream && (tfind (s.die (dieOf t.cid)).plans r.slot).isSome
  | _ => false

/-- The members that a node field names: a node, or a multicast entry's (R287): while a commit is being distributed, the
nearest link die holds the old or the new bitmap. -/
def membersOf (s : State) (n : Nat) : List Nat :=
  if n < 1000 then [n]
  else
    let m := tget s.mcast (n - 1000) {}
    let b := if m.pending && Config.freeChoice s.free 2 == 0 then m.old else m.nodes
    (List.range 1024).filter b.getLsbD

/-- The first of other modules that a region may not send to (R166 step 6): fabric tokens, and the region's node map. -/
def deniedNode (s : State) (region : Nat) (nodes : List Nat) : Option Nat :=
  nodes.find? fun n => n != s.node && decide (s.effFabtok region = 0) || !(s.effNodemap region).getLsbD n

/-- The modules that a message goes to or whose core it tells, as they stand at its acceptance: one version of a multicast
entry (R166, R287). -/
def withMembers (s : State) (t : Transfer) : Transfer :=
  let dest := match t.far with | some n => s.membersOf n | none => []
  let recv := match t.recvNode with | some n => if n ∈ t.far.toList then [] else [n] | none => []
  let own := dest.contains s.node
  { t with
    nodes := ((dest ++ recv).eraseDups).filter fun n => n != s.node
    here := t.far.isNone || own
    recvHere := t.recvHere || (own && t.recvNode.isSome && t.recvNode == t.far) }

/-- A transfer taken by its unit: all its lock entries at once, or nothing (R161, R167). -/
def tryAccept (s : State) (t : Transfer) : Option State :=
  let t := s.withMembers t
  let used := s.unitHolds t.cid t.kind
  let t := { t with place := freePlace used, accepted := true }
  let ls := s.transferLocks t
  let cl := clusterOf t.cid
  if unitSize (TransferKind.tag t.kind) ≤ used.length ∨ s.freeLocks cl < ls.length
      ∨ !s.fabricRoom t.region t.nodes.length ∨ s.slotTaken t then none
  else
    let s := ls.foldl (fun s l => s.takeLock cl l) s
    let s := s.modTransfer t.id fun _ => t
    some (match t.kind with
      | .send r => s.startSend t r
      | .gather r => s.startGather t r
      | .rscat r => s.startPlan t r
      | .vdec r => s.startCommand t r
      | .chunk _ => s)

/-- What stops a transfer that has waited for its unit: the handle of a SEND.SH is no longer FULL, or has been pinned (R163);
a member of the multicast entry, in the version that it takes now, is denied (R287). -/
def lateStop (s : State) (t : Transfer) : Option TrapInfo :=
  match t.kind with
  | .send r =>
    let bad := match r.srcHandle with
      | some h => let x := s.handle t.cid h
                  if x.state != HState.full || decide (0 < x.pins) then some h else none
      | none => none
    match bad, t.far.bind fun n => s.deniedNode t.region (s.membersOf n) with
    | some h, _ => some { cause := .handle, tval := BitVec.ofNat 64 h }
    | none, some n => some { cause := .sendDenied, tval := BitVec.ofNat 64 n }
    | none, none => none
  | _ => none

/-- The context of a transfer that has waited for its unit goes on, or traps. -/
def acceptOne (s : State) (t : Transfer) : State :=
  match s.ownerOf t.cid t.slot t.serial with
  | none => s.dropTransfer t.id
  | some (c, i) =>
    match s.lateStop t with
    | some e => (s.dropTransfer t.id).trapWaiting c i e
    | none =>
      match s.tryAccept t with
      | none => s
      | some s => if (s.slot c i).wait = Wait.accept then s.wake c i else s

/-- The source lock of a resumed group's message is taken again, and its request placed, once there is a free entry (R171). -/
def relockOne (s : State) (t : Transfer) : State :=
  let ls := (s.transferLocks t).filter fun l => l.hkind == 0
  let cl := clusterOf t.cid
  if s.freeLocks cl < ls.length then s
  else
    ((ls.foldl (fun s l => s.takeLock cl l) s).modTransfer t.id fun t => { t with relock := false }).unclocked (rankOf t.source)
      .gateRequest { a := t.id }

/-- The prefix of a message leaves its source; of a message to another module alone, all of it (R168). -/
def readPrefix (s : State) (t : Transfer) : State :=
  s.readPackets t.id (List.range (if t.here then t.prefixed else packetCount t.len))

/-- The index list of a GATHER is read (R172), each word by the rules of R91 (R280); a lasting error fails its rows. -/
def readIndices (s : State) (t : Transfer) (r : GatherRec) : State :=
  let p := (List.range ((4 * r.count + 15) / 16)).foldl (fun (a : List Nat × State) i =>
    let l : Loc := { home := .scratch t.cid, addr := r.list + 16 * i }
    let e := if a.2.errorFree then (false, a.2) else a.2.eccRead l 16 t.cid
    (a.1 ++ (List.range 4).map fun k => if e.1 then 2 ^ 32 else leNat ((e.2.readLoc l 16).drop (4 * k) |>.take 4), e.2)) ([], s)
  let s := p.2.modTransfer t.id fun t => { t with indices := p.1.take r.count }
  let s := s.unclocked (releaseRank t.cid) .lastSourceRead { a := t.id }
  (List.range r.count).foldl (fun s i => s.unclockedUnit t.cid (rankOf t.cid) .gatherRowFetch { a := t.id, b := i }) s

/-- TRANSFER_ACCEPT (R161): the postings of a core tried in the order of their issue; or the first reads of a transfer that its
unit has taken (R233). -/
def acceptTransfers (s : State) (cid id : Nat) : State :=
  if id = 0 then
    (s.transfers.filter fun t => (!t.accepted || t.relock) && t.cid == cid && t.sender.isNone).foldl
      (fun s t => if t.accepted then s.relockOne t else s.acceptOne t) s
  else
    match s.transfer? id with
    | none => s
    | some t =>
      match t.kind with
      | .gather r => s.readIndices t r
      | .send _ | .chunk _ => s.readPrefix t
      | _ => s

/-! ### The lock message (R167) -/

/-- The destination range of a SEND in a scratchpad: core, offset and length. -/
def scratchRange (s : State) (t : Transfer) (r : SendRec) : Nat :=
  if r.toHandle then (s.handle t.receiver r.x).base + r.dst else r.dst

/-- The full lock of a scratchpad destination is taken, waits for a free entry, or is not taken (R167, R170). -/
def lockDest (s : State) (t : Transfer) (r : SendRec) : State :=
  let cl := clusterOf t.receiver
  let through := fun (s : State) => (s.modTransfer t.id fun t => { t with locked := true, lockWaits := false }).sendPackets t.id
  if t.locked then s
  else if !s.reaches t || (r.toHandle && (s.handle t.receiver r.x).state == .free) then through s
  else if s.freeLocks cl = 0 then s.modTransfer t.id fun t => { t with lockWaits := true }
  else through (s.takeLock cl
    { full := true, global := false, core := coreField t.receiver, region := 0, base := s.scratchRange t r, len := r.len
      hkind := 1, hidx := t.place, holder := t.id, since := s.cycle })

/-- LOCK_MESSAGE_ARRIVAL (R167): the message arrives in the order of its class (R238), and the lock is taken after the accesses
of the cycle (R233). -/
def lockArrives (s : State) : State :=
  if s.obj.ok then
    match s.transfer? s.obj.a with
    | some t => (match t.kind with | .send r => s.lockDest t r | _ => s)
    | none => s
  else
    match s.msg? s.obj.a with
    | some m =>
      match m.kind with
      | .lockMsg id => (s.dropMsg m.id).schedule (.cycle s.cycle) (takeRank m.cid) .lockMessageArrival { a := id, ok := true }
      | _ => s
    | none => s

/-! ### The gate (R168) -/

/-- Tokens outstanding at a gate. -/
def tokensOut (s : State) (die : Nat) : Nat :=
  s.transfers.foldl (fun n t => if t.gate = die then n + (t.tokens.filter t.outstanding).length else n) 0

/-- The requests of a gate that need a token, in arrival order. -/
def liveRequests (s : State) (die : Nat) : List Transfer :=
  ((s.die die).requests.filterMap s.transfer?).filter fun t => Transfer.waits t && !t.dying && !t.orphaned

/-- The highest priority among requests. -/
def topPrio (ts : List Transfer) : Nat := ts.foldl (fun p t => Nat.max p t.prio) 0

/-- The requests among which the gate chooses (R168): those of the receiving region below its minimum share whose
highest request has the highest priority, ties to the lower REGID, if there is one; else all. -/
def gatePool (s : State) (die : Nat) (live : List Transfer) : List Transfer :=
  let under := live.filter fun t =>
    decide (tget (s.die die).windowBy (s.regid t.recvRegion) 0 < s.effMinshare t.recvRegion)
  let p := topPrio under
  match ((under.filter fun t => t.prio == p).map fun t => s.regid t.recvRegion).min? with
  | some r => under.filter fun t => s.regid t.recvRegion == r
  | none => live

/-- The sender of a message in the order of the gates: node, then core or engine (R168). -/
def senderKey (s : State) (t : Transfer) : Nat := t.sender.getD s.node * 4096 + t.source

/-- The source served next at a priority: the next one in ascending order after the one served last, wrapping round. -/
def nextSource (s : State) (die p : Nat) (pool : List Transfer) : Option Nat :=
  let keys := pool.map s.senderKey
  match tfind (s.die die).served p with
  | some (n, c) => ((keys.filter fun k => decide (n * 4096 + c < k)).min?).orElse fun _ => keys.min?
  | none => keys.min?

/-- A token granted: it is on its way to the sender, and it expires. -/
def grantToken (s : State) (die : Nat) (t : Transfer) (k : Token) : State :=
  let k' := { k with granted := true, grants := k.grants + 1, used := false }
  let s := s.modTransfer t.id fun t => { t with tokens := t.tokens.map fun x => if x.k == k.k then k' else x }
  let obj : Obj := { a := t.id, b := k.k, c := k'.grants }
  let s := if t.sender.isSome then s else s.unclockedUnit t.source (rankOf t.source) .tokenArrival obj
  s.schedule (.gtc (s.gtc.toNat + (s.die die).tokexp)) (rankOf (gateSource die)) .tokenExpiry obj

/-- One grant of a gate: priority, source, and the counts of the window. -/
def grantOne (s : State) (die : Nat) : Option State :=
  let pool := s.gatePool die (s.liveRequests die)
  let p := topPrio pool
  let top := pool.filter fun t => t.prio == p
  match s.nextSource die p top with
  | none => none
  | some key =>
    match top.find? fun t => s.senderKey t == key with
    | none => none
    | some t =>
      match t.tokens.find? fun k => !k.granted with
      | none => none
      | some k =>
        let regid := s.regid t.recvRegion
        let s := s.modDie die fun d =>
          let w := d.window + 1
          { d with served := tset d.served p (key / 4096, key % 4096)
                   window := if 1024 ≤ w then 0 else w
                   windowBy := if 1024 ≤ w then [] else tset d.windowBy regid (tget d.windowBy regid 0 + 1) }
        some (s.grantToken die t k)

/-- TOKEN_GRANT (R168): grants while fewer than TOKMAX tokens are outstanding. -/
def grantTokens (s : State) (die : Nat) : Nat → State
  | 0 => s
  | fuel + 1 =>
    if (s.die die).tokmax ≤ s.tokensOut die then s
    else match s.grantOne die with
      | none => s
      | some s => s.grantTokens die fuel

def kickGate (s : State) (die : Nat) : State := s.schedule (.cycle s.cycle) (rankOf (gateSource die)) .tokenGrant { a := die }

/-- GATE_REQUEST (R168); a request of an ended group is orphaned (R170). -/
def placeRequest (s : State) : State :=
  match s.transfer? s.obj.a with
  | none => s
  | some t =>
    if t.orphaned || (s.die t.gate).requests.contains t.id || ((s.group? t.gid).bind (·.saved)).isSome then s
    else (s.modDie t.gate fun d => { d with requests := d.requests ++ [t.id] }).kickGate t.gate

/-- The token of an object, if that grant is still in force. -/
def tokenOf (t : Transfer) (o : Obj) : Option Token := t.tokens.find? fun k => k.k == o.b && k.granted && k.grants == o.c

/-- A token changed. -/
def setToken (s : State) (id k : Nat) (f : Token → Token) : State :=
  s.modTransfer id fun t => { t with tokens := t.tokens.map fun x => if x.k == k then f x else x }

/-- A killed group's message that holds no unread token is orphaned if it still waits, and its group's pitch may go (R279). -/
def dyingDone (s : State) (id : Nat) : State :=
  match s.transfer? id with
  | some t =>
    if t.dying && !Transfer.holds t then
      let s := s.modTransfer id fun t => { t with dying := false }
      let s := if Transfer.waits t then s.orphanMessage { t with dying := false } (s.reaches t) else s
      s.unitEnded t.gid
    else s
  | none => s

/-- TOKEN_ARRIVAL (R168): the packets that the token covers are read. -/
def tokenArrives (s : State) : State :=
  match s.transfer? s.obj.a with
  | none => s
  | some t =>
    match tokenOf t s.obj with
    | some k =>
      if k.used || t.orphaned then s
      else ((s.setToken t.id k.k fun x => { x with used := true }).readPackets t.id (t.tokenPackets k.k)).dyingDone t.id
    | none => s

/-- TOKEN_EXPIRY (R168): an unused token returns to its gate, and its request is granted again later. -/
def tokenExpires (s : State) : State :=
  match s.transfer? s.obj.a with
  | none => s
  | some t =>
    match tokenOf t s.obj with
    | some k => if k.used then s else ((s.setToken t.id k.k fun x => { x with granted := false }).kickGate t.gate).dyingDone t.id
    | none => s

/-! ### Landings (R169, R170) -/

/-- Bytes that the spec leaves undefined put into a place of 16 bytes (R170, R174, R275). -/
def spoilUnit (s : State) (l : Loc) (source : Nat) : State :=
  let bs := (List.range 16).map fun i => Config.freeByte (s.free + i)
  { s with free := s.free + 16 }.storeChecked l (allOn bs) source

/-- The place of a unit of a packet of a SEND, by its place from the origin of the destination. -/
def unitDest (s : State) (t : Transfer) (r : SendRec) (at_ : Nat) : Except Bool Loc :=
  if r.toHandle then .ok { home := .scratch t.receiver, addr := (s.handle t.receiver r.x).base + at_ }
  else if r.scratch then .ok { home := .scratch t.receiver, addr := r.dst + at_ }
  else s.sendPlace t (BitVec.ofNat 64 (r.dst + at_)) true

/-- The slices of a handle that the bytes of a landing reach become stale until the landing has ended (R148, R149). -/
def landingStale (s : State) (cid x off n : Nat) : State :=
  match (s.handle cid x).norm with
  | some t => s.makeStale cid t (slicesAt t (rangeFrom off n))
  | none => s

/-- One unit of a packet performed at its home (R169 step 1, R237). -/
def performUnit (s : State) (t : Transfer) (r : SendRec) (p : Packet) (u : Nat × Nat) : Except Bool State :=
  match s.unitDest t r u.1 with
  | .error tier => .error tier
  | .ok l =>
    let s := s.storeChecked l (allOn ((p.bytes.drop (u.2 - 4096 * p.n)).take 16)) t.source (marks := !r.toHandle)
    .ok (if r.toHandle then s.landingStale t.receiver r.x (r.dst + u.2) 16 else s)

/-- The landing of bytes into a handle counted: LANDED, SWZ, FULL, and the norms (R165, R169). -/
def countLanding (s : State) (cid x swz off n : Nat) : State :=
  let h := s.handle cid x
  let h := { h.record swz with landed := h.landed + n / 16 }
  let s := s.setHandle cid x h
  let s := if h.len ≤ 16 * h.landed then s.fillHandle cid x h else s
  s.landNorms cid x (rangeFrom off n)

/-- What the landing of a packet does after its bytes (R169 steps 2 to 4). -/
def packetLands (s : State) (t : Transfer) (r : SendRec) (n : Nat) : State :=
  let part := packetPart r.len n
  let t := { t with packets := t.packets.map fun q => if q.n == n then { q with landed := true, bytes := [] } else q }
  let s := s.modTransfer t.id fun _ => t
  let s := if t.allLanded && t.nodes.isEmpty then (s.unlock 1 t.id).retryPosted else s
  let s := if s.reaches t then (match s.countedTag t with
    | some (c, tag) => s.mbCount c tag
    | none => s) else s
  let s := if r.toHandle then s.countLanding t.receiver r.x r.swz (r.dst + part.1) part.2 else s
  (s.kickGate t.gate).finishSend t.id

/-- What refuses a packet of a SEND where it lands (R169, R170), if anything does. -/
def refusedPacket (s : State) (t : Transfer) (r : SendRec) (n : Nat) : Option State :=
  let part := packetPart r.len n
  let h := s.handle t.receiver r.x
  if (r.scratch || r.toHandle) && !s.reaches t then some ((s.sendError t s.node).dropMessage t)
  else if r.toHandle && (h.state != .filling || decide (h.len < r.dst + part.1 + part.2)) then
    some (if t.orphaned then s.dropMessage t
      else
        let s := if h.state = .filling then s.setHandle t.receiver r.x { h with refused := true } else s
        (s.sendError t s.node).abandonMessage t (h.state == .filling))
  else none

/-- A packet of a chunk comes to the engine of its receiver (R174); where that holds no live pitch the message is refused. -/
def landChunk (s : State) (t : Transfer) (n : Nat) : State :=
  if !s.reaches t then (s.sendError t s.node).dropMessage t
  else
    let t := { t with packets := t.packets.map fun q => if q.n == n then { q with landed := true } else q }
    ((s.modTransfer t.id fun _ => t).kickGate t.gate).finishSend t.id

/-- PACKET_LANDING (R169): one unit of a packet, and with its last one the landing.  The packet that releases the lock lands at
the beginning of its cycle, any other in the order of its source (R233, R236). -/
def landPacket (s : State) : State :=
  match s.transfer? s.obj.a with
  | none => s
  | some t =>
    match t.kind, t.packets.find? (fun p => p.n == s.obj.b && !p.landed) with
    | .chunk _, some p => s.landChunk t p.n
    | .send r, some p =>
      let us := s.packetUnits t p.n
      let u := s.obj.c
      let last := decide (us.length ≤ u + 1)
      let frees := t.allRead && t.packets.all fun q => q.landed || q.n == p.n
      if last && !s.obj.ok && !frees then s.schedule (.cycle s.cycle) (rankOf t.source) .packetLanding { s.obj with ok := true }
      else
        match s.refusedPacket t r p.n with
        | some s => s
        | none =>
          match (match us[u]? with | some x => s.performUnit t r p x | none => .ok s) with
          | .error tier => s.failMessage t tier 1
          | .ok s => if last then s.packetLands t r p.n else s.sendUnit t p.n (u + 1)
    | _, _ => s

/-- LAST_SOURCE_READ (R163, R167): the source, or an index list, is released. -/
def sourceRead (s : State) : State :=
  match s.transfer? s.obj.a with
  | none => s
  | some t =>
    if t.readDone then s
    else
      let s := match t.kind with
        | .send _ => (s.unlock 0 t.id).sourceFree t
        | .gather _ => s.unlock 2 t.id
        | _ => s
      (((s.modTransfer t.id fun t => { t with readDone := true }).retryPosted).finishSend t.id).unitEnded t.gid

/-- SEND_DONE (R169). -/
def sendDone (s : State) : State :=
  match s.transfer? s.obj.a with
  | none => s
  | some t =>
    let s := match t.kind with
      | .send r => (match r.done with
        | some m => if t.abandoned then s else s.tagFor t.gid t.cid m false
        | none => s)
      | _ => s
    (s.dropTransfer t.id).unitEnded t.gid

/-- The destination bytes of a message whose tier has failed that have not landed, and those already written in the tier, are
undefined (R170, R275). -/
def spoilMessage (s : State) (t : Transfer) (r : SendRec) : State :=
  if (r.scratch || r.toHandle) && !s.reaches t then s
  else (List.range (packetCount r.len)).foldl (fun s n =>
    (s.packetUnits t n).foldl (fun s u =>
      match s.unitDest t r u.1 with
      | .ok l => if t.landed n && !l.tier then s else s.spoilUnit l t.source
      | .error _ => s) s) s

/-- CXL_TRANSFER_FAILURE (R170, R275): the message is abandoned and an event of kind 4 is logged. -/
def cxlFailure (s : State) : State :=
  match s.transfer? s.obj.a with
  | none => s
  | some t =>
    match t.kind with
    | .send r =>
      let at_ := if s.obj.c = 0 then r.src else BitVec.ofNat 64 r.dst
      ((s.spoilMessage t r).eventRecord t.source t.region t.gid 4 0 at_ 0).abandonMessage t (s.reaches t)
    | _ => s

end State

/-- TRANSFER_ACCEPT (R161). -/
def execTransferAccept (s : State) : Host.Outcome State Fault Refusal := stepTo (fun s => s.acceptTransfers s.obj.a s.obj.b) s
/-- LOCK_MESSAGE_ARRIVAL (R167). -/
def execLockMessageArrival (s : State) : Host.Outcome State Fault Refusal := stepTo State.lockArrives s
/-- GATE_REQUEST (R168). -/
def execGateRequest (s : State) : Host.Outcome State Fault Refusal := stepTo State.placeRequest s
/-- TOKEN_GRANT (R168). -/
def execTokenGrant (s : State) : Host.Outcome State Fault Refusal := stepTo (fun s => s.grantTokens s.obj.a 257) s
/-- TOKEN_ARRIVAL (R168). -/
def execTokenArrival (s : State) : Host.Outcome State Fault Refusal := stepTo State.tokenArrives s
/-- TOKEN_EXPIRY (R168). -/
def execTokenExpiry (s : State) : Host.Outcome State Fault Refusal := stepTo State.tokenExpires s
/-- PACKET_LANDING (R169). -/
def execPacketLanding (s : State) : Host.Outcome State Fault Refusal := stepTo State.landPacket s
/-- LAST_SOURCE_READ (R167). -/
def execLastSourceRead (s : State) : Host.Outcome State Fault Refusal := stepTo State.sourceRead s
/-- SEND_DONE (R169). -/
def execSendDone (s : State) : Host.Outcome State Fault Refusal := stepTo State.sendDone s
/-- CXL_TRANSFER_FAILURE (R275). -/
def execCxlTransferFailure (s : State) : Host.Outcome State Fault Refusal := stepTo State.cxlFailure s

end Sys2Proof.Machine
end

