-- ==== Sys2Proof/Machine/Gather.lean ====
section
/-!
DEFINITION. Posting a transfer (R161), GATHER (R172) and NZSCAN (R173).
-/
namespace Sys2Proof.Machine

/-- A transfer posted by the issuing context: taken by its unit now, or its context waits (R161). -/
def postTransfer (t : Transfer) (ins : Instr) : Do Unit := do
  let s ← get
  let f := s.fresh
  let t := { t with id := f.1 }
  let s := { f.2 with transfers := f.2.transfers ++ [t] }
  match s.tryAccept t with
  | some s => set s
  | none => do
    set s
    wait .accept ins

/-- A transfer of the issuing context. -/
def State.ownTransfer (s : State) (kind : TransferKind) : Transfer :=
  { id := 0, cid := s.curCid, slot := s.curSlot, serial := s.here.serial, gid := s.here.gid, region := s.here.region, kind := kind }

/-! ### GATHER (R172) -/

/-- GATHER: its checks in order, then its acceptance. -/
def execGather (f : XF) (s : State) : Host.Outcome State Fault Refusal :=
  issue (.gather f) (do
    let a ← readS 1 f.a
    let b ← readS 2 f.b
    let c ← readS 3 f.c
    let n := XF.object f
    let k := (f.aux32.extractLsb' 0 6).toNat
    if 65536 ≤ c.toNat then trapOf .shape c
    else
      let l ← readLast k
      let base := if a = 0 then l.base else a
      let size := l.rowBytes
      let s ← get
      let h := s.handle s.curCid n
      if l.hnd ∨ l.extent 0 * elementBits l.etype % 128 ≠ 0 ∨ (l.stride 1).toNat % 16 ≠ 0 ∨ base.toNat % 16 ≠ 0 then
        trapOf .shape (BitVec.ofNat 64 k)
      else if h.state != .filling then trapOf .handle (BitVec.ofNat 64 n)
      else if h.len < c.toNat * size then trapOf .shape c
      else if b.toNat % 16 ≠ 0 ∨ b.toNat < 0x5000 ∨ 0x60000 < b.toNat + 4 * c.toNat then trapOf .shape b
      else
        let r : GatherRec :=
          { home := s.here.home, h := n, claim := h.claim, mb := h.mb, base := base, stride := l.stride 1
            rows := Nat.max (l.extent 1) 1, rowBytes := size, list := b.toNat, count := c.toNat, swz := l.swz }
        postTransfer (s.ownTransfer (.gather r)) (.gather f)) s

namespace State

/-- The claim of a gather is in force: its core is its group's, and the handle has not been freed (R172). -/
def claimHolds (s : State) (t : Transfer) (r : GatherRec) : Bool :=
  let h := s.handle t.cid r.h
  (s.core t.cid).gid == t.gid && h.claim == r.claim && h.state != .free

/-- The bytes of a row, and what is wrong with it: an index beyond the rows, or a fetch that failed. -/
def gatherRow (s : State) (t : Transfer) (r : GatherRec) (x : Nat) : (List Byte × Bool × Bool) × State :=
  let zeros := List.replicate r.rowBytes 0
  if 2 ^ 32 ≤ x then ((zeros, false, true), s)
  else if x = 0xFFFFFFFF then ((zeros, false, false), s)
  else if r.rows ≤ x then ((zeros, true, false), s)
  else
    let va := r.base + BitVec.ofNat 64 x * r.stride
    match s.unitRange t.cid t.cid r.home t.region true va (unitPieces va r.rowBytes) with
    | ((true, bs), s) => ((bs, false, false), s)
    | (_, s) => ((zeros, false, true), s)

/-- Row i is fetched: its index counts in OOR and its failure in ERR. -/
def takeRow (s : State) (t : Transfer) (r : GatherRec) (i : Nat) : State :=
  let p := s.gatherRow t r (t.indices.getD i 0)
  let h := p.2.handle t.cid r.h
  let s := p.2.setHandle t.cid r.h
    { h with oor := if p.1.2.1 then Nat.min (h.oor + 1) 255 else h.oor, err := h.err || p.1.2.2 }
  s.modTransfer t.id fun t => { t with packets := t.packets ++ [{ n := i, bytes := p.1.1 }] }

/-- Unit u of a row performed in the handle; its slices are stale until the row has landed (R149, R237). -/
def landRowUnit (s : State) (t : Transfer) (r : GatherRec) (i u : Nat) (bs : List Byte) : State :=
  let h := s.handle t.cid r.h
  let off := h.base + i * r.rowBytes + 16 * u
  let s := s.storeChecked { home := .scratch t.cid, addr := off } (allOn ((bs.drop (16 * u)).take 16)) t.cid (marks := false)
  match h.norm with
  | some n => s.makeStale t.cid n (slicesAt n (handleOffsets h (rangeFrom off 16)))
  | none => s

/-- A row has landed, or has been discarded; with the last one the completion is due. -/
def rowDone (s : State) (t : Transfer) (r : GatherRec) (i : Nat) (lost : Bool) : State :=
  let ps := (t.packets.filter fun p => p.n != i) ++ [{ n := i, landed := true }]
  let s := s.modTransfer t.id fun t => { t with packets := ps, discarded := t.discarded || lost }
  if (ps.filter (·.landed)).length = r.count then s.schedule (.cycle s.cycle) (rankOf t.cid) .gatherCompletion { a := t.id } else s

/-- GATHER_ROW_FETCH (R172): a row is fetched, and lands unit by unit while its claim lasts and the handle fills. -/
def fetchRow (s : State) : State :=
  match s.transfer? s.obj.a with
  | none => s
  | some t =>
    match t.kind with
    | .gather r =>
      let i := s.obj.b
      let u := s.obj.c
      if !(s.claimHolds t r && (s.handle t.cid r.h).state == .filling) then s.rowDone t r i true
      else
        let s := if u = 0 then s.takeRow t r i else s
        match (s.transfer? t.id).bind fun t => (t.packets.find? fun p => p.n == i).map fun p => (t, p) with
        | none => s
        | some (t, p) =>
          let s := if p.bytes.isEmpty then s else s.landRowUnit t r i u p.bytes
          if 16 * (u + 1) < p.bytes.length then s.unclockedUnit t.cid (rankOf t.cid) .gatherRowFetch { a := t.id, b := i, c := u + 1 }
          else
            let h := s.handle t.cid r.h
            (s.landNorms t.cid r.h (handleOffsets h (rangeFrom (h.base + i * r.rowBytes) r.rowBytes))).rowDone t r i false
    | _ => s

/-- The outcome of a gather at its handle and tag: count and FULL in one step, or ABANDON after a discard. -/
def endGather (s : State) (t : Transfer) (r : GatherRec) : State :=
  let h := s.handle t.cid r.h
  if (s.core t.cid).gid ≠ t.gid then s
  else if t.discarded || !(s.claimHolds t r && h.state == .filling) then
    let s := if s.claimHolds t r then s.setHandle t.cid r.h { h with refused := true } else s
    s.mbAbandon t.cid r.mb
  else
    let h := { h with swz := r.swz, landed := r.count * r.rowBytes / 16 }
    let s := (s.setHandle t.cid r.h h).landNorms t.cid r.h (handleOffsets h (rangeFrom h.base (r.count * r.rowBytes)))
    let s := s.mbCount t.cid r.mb
    s.fillHandle t.cid r.h (s.handle t.cid r.h)

/-- GATHER_COMPLETION (R172). -/
def completeGather (s : State) : State :=
  match s.transfer? s.obj.a with
  | none => s
  | some t =>
    match t.kind with
    | .gather r => ((((s.endGather t r).unlock 2 t.id).dropTransfer t.id).retryPosted).unitEnded t.gid
    | _ => s

end State

/-- GATHER_ROW_FETCH (R172). -/
def execGatherRowFetch (s : State) : Host.Outcome State Fault Refusal := stepTo State.fetchRow s
/-- GATHER_COMPLETION (R172). -/
def execGatherCompletion (s : State) : Host.Outcome State Fault Refusal := stepTo State.completeGather s

/-! ### NZSCAN (R173) -/

/-- A range of the own scratchpad that starts at a multiple of 16. -/
def scanRange (a : Word) (n use : Nat) (write : Bool) : Do Unit := do
  if a.toNat % 16 ≠ 0 then trapOf .align a use write
  else if 0x60000 < a.toNat + n then trapOf .shape a use write
  else pure ()

/-- A lock that refuses a range of the own scratchpad (R86). -/
def scanLock (a : Word) (n use : Nat) (write : Bool) : Do Unit := do
  let s ← get
  if n ≠ 0 ∧ s.scratchLocked s.curCid a.toNat n write then trapOf .rangeLock a use write else pure ()

/-- Units of the own scratchpad read at issue, each with its errors (R91). -/
def readUnits (use : Nat) (a : Word) : Nat → Do Unit
  | 0 => pure ()
  | n + 1 => do
    let s ← get
    let _ ← readOwn use a { home := .scratch s.curCid, addr := a.toNat } 16
    readUnits use (a + 16) n

/-- The element of a type at an index of a list of bytes is not zero: an integer, or a floating-point number of either sign. -/
def nonZero (et : Nat) (bs : List Byte) (i : Nat) : Bool :=
  let n := elementBits et / 8
  let v := leNat ((bs.drop (i * n)).take n)
  (if 9 ≤ et then v % 2 ^ (8 * n - 1) else v) != 0

/-- NZSCAN (R173): every input is read at issue; the list follows at the end of the scan. -/
def execNzscan (f : XF) (s : State) : Host.Outcome State Fault Refusal :=
  issue (.nzscan f) (do
    let a ← readS 1 f.a
    let b ← readS 2 f.b
    let c ← readS 3 f.c
    let et := f.et.toNat
    let units := (c.toNat * (elementBits et / 8) + 15) / 16
    if 65535 < c.toNat then trapOf .shape c
    else do
      scanRange a (16 * units) 1 false
      scanRange b (4 * c.toNat) 2 true
      scanLock a (16 * units) 1 false
      scanLock b (4 * c.toNat) 2 true
      readUnits 1 a units
      let d ← destS 4 f.d
      let s ← get
      let bs := (s.core s.curCid).sp.bytes a.toNat (16 * units)
      let found := (List.range c.toNat).filter (nonZero et bs)
      let p := s.postWork (.nzscan f) (BitVec.ofNat 64 found.length) d [{ home := .scratch s.curCid, addr := b.toNat }]
        (found.flatMap fun i => leBytes 4 i) (.cycle (s.cycle + units))
      set p.2
      wait (.engine p.1) (.nzscan f)) s

namespace State

/-- A list of bytes stored in units of 16 from an aligned place of a scratchpad. -/
def storeUnits (s : State) (cid off : Nat) (bs : List Byte) : Nat → State
  | 0 => s
  | n + 1 =>
    (s.storeChecked { home := .scratch cid, addr := off } (allOn (bs.take 16)) cid).storeUnits cid (off + 16) (bs.drop 16) n

/-- The next own turn of a slot (R15). -/
def nextOwn (s : State) (cid i : Nat) : Nat := let n := (s.core cid).turn; n + (i + 16 - n % 16) % 16

/-- The end of a scan: the list is performed and d is readable at the context's next own turn (R173). -/
def finishScan (s : State) (m : Msg) (c i : Nat) : State :=
  if s.obj.c = 0 then s.schedule (.turn c (s.nextOwn c i)) (rankOf c) .interlockedResult { a := m.id, c := 1 }
  else
    let off := match m.units with | l :: _ => l.addr | [] => 0
    let s := s.storeUnits c off m.bytes ((m.bytes.length + 15) / 16)
    ((s.deliver c m.dest m.va).dropMsg m.id).wake c i

end State
end Sys2Proof.Machine
end

