-- ==== Sys2Proof/Machine/Matrix.lean ====
section
/-!
DEFINITION. The matrix engine instructions (R125, R126, R130 to R135, R139 to R143).
-/
namespace Sys2Proof.Machine

/-- The pitch of the issuing context. -/
def myPitch : Do (List Nat) := do
  let s ← get
  pure (s.pitchOf s.here.gid)

/-- The accumulator, and the engine, that an index field names: PERM outside the share (R125). -/
def myAcc (n : Nat) : Do Nat := do
  let p ← myPitch
  match accOf p n with
  | some a => pure a
  | none => trapOf .perm (BitVec.ofNat 64 n)
def myEngine (n : Nat) : Do Nat := do
  let p ← myPitch
  match engineOf p n with
  | some e => pure e
  | none => trapOf .perm (BitVec.ofNat 64 n)

/-- A posted entry: its context waits while it cannot be accepted (R126). -/
def post (kind : EntryKind) (ins : Instr) : Do Unit := do
  let s ← get
  let p := s.postEntry kind []
  set p.2.2
  if p.1 then pure () else wait .enqueue ins

/-! ### MXLDW, MXSWAP, MXCB (R130 to R132) -/

/-- The bytes of a weight row (R130). -/
def rowSize (et : Nat) : Nat :=
  match et with
  | 10 | 11 => 64
  | 14 => 16
  | _ => 32

/-- The loads of the 64 rows in ascending k. -/
def weightParts (a stride : Word) (n : Nat) : List Part :=
  (List.range 64).flatMap fun k =>
    let row := a + BitVec.ofNat 64 k * stride
    (List.range (n / 16)).map fun u => { tval := row, va := row + BitVec.ofNat 64 (16 * u), size := 16 }

/-- The shadow plane and its tag replaced together (R130). -/
def State.stagePlane (s : State) (cl e : Nat) (f : XF) (bs : List Byte) : State :=
  let n := rowSize f.et.toNat
  let rows := (List.range 64).map fun k => (k, BitVec.ofNat 512 (leNat ((bs.drop (n * k)).take n)))
  let x := s.engine cl e
  let mx := if f.et.toNat = 15 then f.aux8.toNat else 0
  (s.setEngine cl e { x with shadow := { tag := f.et.toNat, mx := mx, rows := rows.filter fun r => r.2 != 0 } }).engineMend
    (planePlace cl e 1 0 0) 4096

/-- MXLDW (R130): from the own scratchpad it ends 72 turns later; else with its last row. -/
def execMxldw (f : XF) (s : State) : Host.Outcome State Fault Refusal :=
  issue (.mxldw f) (do
    let _ ← myEngine f.d.toNat
    let n := rowSize f.et.toNat
    let a ← readS 1 f.a
    let b ← readS 2 f.b
    let stride := if f.b = 0 then BitVec.ofNat 64 n else b
    if a.toNat % 16 ≠ 0 then trapOf .align a 1
    else if stride.toNat % 16 ≠ 0 then trapOf .align (a + stride) 1
    else
      let bs ← readRange 1 .engineRead (weightParts a stride n) (.mxldw f)
      match bs with
      | none => pure ()
      | some bs => do
        let s ← get
        let p := s.postWork (.mxldw f) 0 .none [] bs (.turn s.curCid (s.hereCore.turn + 72))
        set p.2
        wait (.engine p.1) (.mxldw f)) s

/-- MXSWAP (R131). -/
def execMxswap (f : XF) (s : State) : Host.Outcome State Fault Refusal :=
  issue (.mxswap f) (do
    let e ← myEngine f.d.toNat
    post (.swap e) (.mxswap f)) s

/-- The halves of a list of bytes. -/
def halves (bs : List Byte) (n : Nat) : List (BitVec 16) := (List.range n).map fun j => BitVec.ofNat 16 (leNat ((bs.drop (2 * j)).take 2))

/-- The entry that MXCB posts once its bytes are there. -/
def codebookEntry (f : XF) (bs : List Byte) : Do Unit := do
  let e ← myEngine f.d.toNat
  post (.codebook e f.c.toNat (halves bs 16)) (.mxcb f)

/-- MXCB (R132). -/
def execMxcb (f : XF) (s : State) : Host.Outcome State Fault Refusal :=
  issue (.mxcb f) (do
    let _ ← myEngine f.d.toNat
    let a ← readS 1 f.a
    if a.toNat % 16 ≠ 0 then trapOf .align a 1
    else
      let bs ← readRange 1 .bulkLoad (unitParts a 2) (.mxcb f)
      match bs with
      | some bs => codebookEntry f bs
      | none => pure ()) s

/-! ### MXQ (R133 to R135, R145, R152, R247) -/

/-- A field of a record. -/
def fieldOf (bs : List Byte) (off n : Nat) : Nat := leNat ((bs.drop off).take n)

/-- The first offset at which a record lies outside the limits of R133 and R145, given the share of the pitch: its fields
in ascending offset, each with its limit, a field that must be zero byte by byte. -/
def recordFault (pitch : List Nat) (bs : List Byte) : Option Nat :=
  let g := fieldOf bs
  let mode := g 0 1
  let fl := g 1 1
  let m2 := mode == 2
  let samp := fl / 2 % 2 == 1
  let ah := fl / 4 % 2 == 1
  let bh := fl / 8 % 2 == 1
  let rdv := fl / 16 % 2 == 1
  let within := fun n => decide (n < 16) && (accOf pitch n).isSome
  let zero := fun off n => (rangeFrom off n).map fun o => (o, g o 1 == 0)
  let limits : List (Nat × Bool) :=
    [ (0, decide (mode ≤ 2)),
      (1, decide (fl < 32) && (m2 || !bh) && (!samp || (m2 && ah && bh))),
      (2, if m2 then g 2 1 == 0 else g 2 1 == 0 || g 2 1 == 0xFF || (g 2 1 == 1 && decide (4 ≤ pitch.length))),
      (3, within (g 3 1)),
      (6, decide (1 ≤ g 6 2) && decide (g 6 2 ≤ if mode = 1 then 32 else 64)),
      (8, !ah || decide (g 8 8 < 64)) ]
    ++ (if ah then zero 16 8 else [])
    ++ (if m2 then [(24, !bh || decide (g 24 8 < 64))] ++ (if bh then zero 32 8 else [])
          ++ [(40, decide (1 ≤ g 40 4) && decide (g 40 4 ≤ 262144) && (!samp || g 40 4 == g 80 2 * 2 ^ g 84 1))]
        else zero 24 20)
    ++
    [ (44, if m2 then (decide (10 ≤ g 44 1) && decide (g 44 1 ≤ 13)) || (g 44 1 == 1 && !samp) else g 44 1 == 0),
      (45, if m2 then g 45 1 == 0 else decide (g 45 1 < 8)),
      (46, decide (g 46 1 ≤ 4)), (47, if m2 then decide (g 47 1 ≤ 4) else g 47 1 == 0),
      (48, if rdv then decide (g 48 1 < 24) else g 48 1 == 0),
      (49, if mode = 0 then within (g 49 1) else g 49 1 == 0) ]
    ++ zero 50 14
    ++ (if samp then [(80, decide (1 ≤ g 80 2) && decide (g 80 2 ≤ 4096)), (82, decide (1 ≤ g 82 2)), (84, decide (g 84 1 ≤ 6))]
        else zero 64 21)
    ++ zero 85 43
  (limits.find? fun p => !p.2).map (·.1)

/-- The type of the plane that an engine will hold once every swap queued for it has run (R134). -/
def State.tagAhead (s : State) (cl e : Nat) : Nat :=
  let x := s.engine cl e
  let n := (((s.cluster cl).queue ++ (s.cluster cl).waiting).filter fun q => q.kind == .swap e && !q.started).length
  if n % 2 = 0 then x.active.tag else x.shadow.tag

/-- An operand of a task checked (R134 step 3, R152, R247): which operand, its handle flag, address or index, stride,
swizzle, the offsets for TVAL, its rows and their bytes, and the norm table that a sampled task asks of it. -/
def taskOperand (samp hnd : Bool) (addr : Word) (stride : Word) (swz off swzOff rows bytes : Nat)
    (needs : NormShape → Bool) : Do Operand := do
  let s ← get
  if hnd then
    let h := s.handle s.curCid addr.toNat
    if h.state != .full then trapOf .handle addr
    else if h.swz ≠ swz then trapOf .swizzle addr
    else if samp && !(match h.norm with | some t => needs (normShape t.desc) | none => false) then
      trapOf .shape (BitVec.ofNat 64 off)
    else
      let step := match h.norm with
        | some t => (normShape t.desc).pitch
        | none => bytes
      let n := (rows - 1) * step + bytes
      if step % 16 ≠ 0 ∨ step < bytes then trapOf .align (BitVec.ofNat 64 step)
      else if h.len < n then trapOf .shape (BitVec.ofNat 64 off)
      else
        let _ ← checkedHere (BitVec.ofNat 64 h.base) n 0 .engineRead
        pure { cid := some s.curCid, base := h.base, stride := step, len := h.len, handle := some addr.toNat, swz := swz
               dense := h.norm.isNone }
  else if swz ≠ 0 then trapOf .shape (BitVec.ofNat 64 swzOff)
  else if addr.toNat % 16 ≠ 0 then trapOf .align addr
  else if stride.toNat % 16 ≠ 0 ∨ stride.toNat < bytes then trapOf .align stride
  else
    let n := (rows - 1) * stride.toNat + bytes
    let _ ← checkedHere addr n 0 .engineRead
    let mk := fun cid base => ({ cid := cid, base := base, stride := stride.toNat, len := n } : Operand)
    match windowOf addr with
    | .scratch o => pure (mk (some s.curCid) o)
    | .peer field o =>
      let c := if field = 0xFFF then s.here.home else field
      if clusterOf c ≠ clusterOf s.curCid then trapOf .shape (BitVec.ofNat 64 off) else pure (mk (some c) o)
    | _ => pure (mk none addr.toNat)

/-- The rest of MXQ, once the record is read. -/
def taskEntry (f : XF) (bs : List Byte) : Do Unit := do
  let s ← get
  let pitch := s.pitchOf s.here.gid
  let g := fieldOf bs
  let w := fun off => BitVec.ofNat 64 (g off 8)
  match recordFault pitch bs with
  | some off => trapOf .shape (BitVec.ofNat 64 off)
  | none =>
    let mode := g 0 1
    let fl := g 1 1
    let samp := fl / 2 % 2 == 1
    if samp && !s.hereCore.feat.getLsbD 4 then trapOf .feature 4
    else
      let cl := clusterOf s.curCid
      let either := g 2 1 == 0xFF && decide (4 ≤ pitch.length)
      let eng := if either then 0xFF else (engineOf pitch (if g 2 1 = 0xFF then 0 else g 2 1)).getD 0
      let sizeOf := fun n =>
        if mode = 2 then rowBytesOf (g 44 1) n
        else if either then Nat.max (rowBytesOf (s.tagAhead cl 0) n) (rowBytesOf (s.tagAhead cl 1) n)
        else rowBytesOf (s.tagAhead cl eng) n
      let klen := g 40 4
      let same := fun (n : NormShape) => n.slices == g 80 2 && n.width == 2 ^ g 84 1 && n.etype == g 44 1
      let a ← taskOperand samp (fl / 4 % 2 == 1) (w 8) (w 16) (g 46 1) 8 46 (g 6 2)
        (sizeOf (if mode = 0 then 64 else if mode = 1 then 32 else klen)) fun n => same n && !n.orient && n.nr == g 6 2
      let b ← if mode = 2 then
          taskOperand samp (fl / 8 % 2 == 1) (w 24) (w 32) (g 47 1) 24 47 klen (sizeOf 32) fun n => same n && n.orient
        else pure {}
      let t : TaskRec :=
        { mode := mode, bar := fl % 2 == 1, samp := samp, rdv := if fl / 16 % 2 = 1 then some (g 48 1) else none, engine := eng
          expver := BitVec.ofNat 16 (g 4 2), rows := g 6 2, a := a, b := b, klen := klen, etype := g 44 1, cbslot := g 45 1
          seed := w 64, tag := w 72, slices := g 80 2, samples := g 82 2, wlog := g 84 1
          vlim := s.here.vlim }
      let acc := (accOf pitch (g 3 1)).getD 0
      let acc2 := if mode = 0 then (accOf pitch (g 49 1)).getD 0 else acc
      post (.task t acc acc2) (.mxq f)

/-- MXQ (R134): the record is one 128-byte load; VLIM is read at issue (R77). -/
def execMxq (f : XF) (s : State) : Host.Outcome State Fault Refusal :=
  issue (.mxq f) (do
    let a ← readS 1 f.a
    modify fun s => s.modHere fun x => { x with vlim := s.hereCore.vlim.setWidth 32 }
    if a.toNat % 128 ≠ 0 then trapOf .align a 1
    else
      let bs ← readRange 1 .bulkLoad ((unitParts a 8).map fun p => { p with tval := a }) (.mxq f)
      match bs with
      | some bs => taskEntry f bs
      | none => pure ()) s

/-! ### MXWAITV (R139) -/

/-- The version compared at issue, and then at each advance. -/
def waitVersion (n : Nat) (v : Nat) (ins : Instr) : Do Unit := do
  let a ← myAcc n
  let s ← get
  if (s.acc (clusterOf s.curCid) a).version.toNat = v then ownNext else wait (.version a v) ins

/-- MXWAITV with an immediate version (R139). -/
def execMxwaitv (f : XF) (s : State) : Host.Outcome State Fault Refusal :=
  issue (.mxwaitv f) (waitVersion f.d.toNat (f.aux32.toNat % 2 ^ 16) (.mxwaitv f)) s

/-- MXWAITV with the version in a (R139). -/
def execMxwaitvReg (f : XF) (s : State) : Host.Outcome State Fault Refusal :=
  issue (.mxwaitvReg f) (do
    let a ← readS 1 f.a
    waitVersion f.d.toNat (a.toNat % 2 ^ 16) (.mxwaitvReg f)) s

/-! ### MXDRAIN (R140) -/

/-- The places of the units of a drain, checked as stores. -/
def drainPlaces : List Word → Do (List (Word × Loc))
  | [] => pure []
  | va :: vs => do
    let l ← checked va 16 1 .store
    let s ← get
    match s.refusedAt s.curCid s.here.region l 16 true with
    | some c => trapOf c va 1 true
    | none =>
      let r ← drainPlaces vs
      pure ((va, l) :: r)

/-- An entry for whose completion the context waits. -/
def postAndWait (kind : EntryKind) (units : List (Word × Loc)) (ins : Instr) : Do Unit := do
  let s ← get
  let p := s.postEntry kind units
  set p.2.2
  wait (.engine p.2.1) ins

/-- MXDRAIN (R140). -/
def execMxdrain (f : XF) (s : State) : Host.Outcome State Fault Refusal :=
  issue (.mxdrain f) (do
    let acc ← myAcc f.d.toNat
    let bf := f.et == 11
    let n := if bf then 64 else 128
    let a ← readS 1 f.a
    let b ← readS 2 f.b
    let stride := if f.b = 0 then BitVec.ofNat 64 n else b
    if a.toNat % 16 ≠ 0 then trapOf .align a 1 true
    else if stride.toNat % 16 ≠ 0 then trapOf .align (a + stride) 1 true
    else
      let units ← drainPlaces ((List.range 64).flatMap fun m =>
        (List.range (n / 16)).map fun u => a + BitVec.ofNat 64 m * stride + BitVec.ofNat 64 (16 * u))
      postAndWait (.drain acc bf) units (.mxdrain f)) s

/-- MXDRAIN.CE (R140): the plan slot is open for this group's streamed input. -/
def execMxdrainCe (f : XF) (s : State) : Host.Outcome State Fault Refusal :=
  issue (.mxdrainCe f) (do
    let acc ← myAcc f.d.toNat
    let a ← readS 1 f.a
    let s ← get
    let open_ := match tfind (s.die (dieOf s.curCid)).plans a.toNat with
      | some id => (match s.transfer? id with
        | some t => t.gid == s.here.gid && (match t.kind with | .rscat r => r.stream | _ => false)
        | none => false)
      | none => false
    if 256 ≤ a.toNat ∨ !open_ then trapOf .shape a
    else postAndWait (.drainCe acc a.toNat) [] (.mxdrainCe f)) s

/-! ### MXZERO, SCACC, MXSTAT (R141 to R143) -/

/-- MXZERO (R141). -/
def execMxzero (f : XF) (s : State) : Host.Outcome State Fault Refusal :=
  issue (.mxzero f) (do
    let acc ← myAcc f.d.toNat
    post (.zero acc) (.mxzero f)) s

/-- The entry that MXZERO.LD posts once its bytes are there. -/
def fillEntry (f : XF) (bs : List Byte) : Do Unit := do
  let acc ← myAcc f.d.toNat
  post (.fill acc ((List.range 2048).map fun i => BitVec.ofNat 32 (leNat ((bs.drop (4 * i)).take 4)))) (.mxzeroLd f)

/-- MXZERO.LD (R141). -/
def execMxzeroLd (f : XF) (s : State) : Host.Outcome State Fault Refusal :=
  issue (.mxzeroLd f) (do
    let _ ← myAcc f.d.toNat
    let a ← readS 1 f.a
    if a.toNat % 16 ≠ 0 then trapOf .align a 1
    else
      let bs ← readRange 1 .bulkLoad (unitParts a 512) (.mxzeroLd f)
      match bs with
      | some bs => fillEntry f bs
      | none => pure ()) s

/-- The entry that SCACC posts once its scales are there. -/
def scaleEntry (f : XF) (bs : List Byte) : Do Unit := do
  let d ← myAcc f.d.toNat
  let x ← myAcc f.c.toNat
  post (.scale d x f.aux8.toNat (bs.take 64) (bs.drop 64)) (.scacc f)

/-- One-byte loads at a stride. -/
def byteParts (va : Word) (stride n : Nat) : List Part :=
  (List.range n).map fun i => { tval := va + BitVec.ofNat 64 (i * stride), va := va + BitVec.ofNat 64 (i * stride), size := 1 }

/-- SCACC (R142): the A scales are use a, the B scales use b. -/
def execScacc (f : XF) (s : State) : Host.Outcome State Fault Refusal :=
  issue (.scacc f) (do
    let _ ← myAcc f.d.toNat
    let _ ← myAcc f.c.toNat
    let a ← readS 1 f.a
    let la ← checkedParts 1 .bulkLoad (byteParts a (f.aux32.toNat % 2 ^ 16) 64)
    let s ← get
    let ownA := la.all fun p => decide (p.2.home = .scratch s.curCid)
    let ba ← if ownA then readParts 1 la else pure []
    let b ← readS 2 f.b
    let lb ← checkedParts 2 .bulkLoad (byteParts b (f.aux32.toNat / 2 ^ 16) 32)
    let s ← get
    if ownA && lb.all fun p => decide (p.2.home = .scratch s.curCid) then do
      let bb ← readParts 2 lb
      scaleEntry f (ba ++ bb)
    else do
      let p := s.postParts 1 (.scacc f) la
      let q := p.2.postParts 2 (.scacc f) lb
      set q.2
      wait (.rows (p.1 ++ q.1)) (.scacc f)) s

/-- MXSTAT (R143). -/
def execMxstat (f : XF) (s : State) : Host.Outcome State Fault Refusal :=
  issue (.mxstat f) (do
    let acc ← myAcc f.c.toNat
    let d ← destS 4 f.d
    modify fun s => s.deliver s.curCid d (s.acc (clusterOf s.curCid) acc).status
    ownNext) s

end Sys2Proof.Machine
end

