-- ==== Sys2Proof/Machine/Collective.lean ====
section
/-!
DEFINITION. RSCAT and the collective engine (R174).
-/
namespace Sys2Proof.Machine

/-- The first offset at which a plan record lies outside the limits of R174. -/
def planFault (bs : List Byte) : Option Nat :=
  let g := fieldOf bs
  let zero := fun off n => (rangeFrom off n).map fun o => (o, g o 1 == 0)
  let stream := g 1 1 % 2 == 1
  let n := g 4 2
  let limits : List (Nat × Bool) :=
    [ (0, g 0 1 == 11 && !stream || g 0 1 == 9), (1, decide (g 1 1 < 4)), (2, decide (g 2 1 < 8)), (3, decide (g 3 1 < 24))
    , (4, decide (2 ≤ n) && decide (n ≤ 1024)), (6, decide (g 6 2 < n))
    , (8, g 8 8 % (if stream then 2048 * n else n) == 0)
    , (32, g 32 8 / 2 ^ 26 == 0 && g 32 8 / 2 ^ 11 % 2 ^ 5 == 0), (48, decide (g 48 1 < 64)) ] ++ zero 49 79
  (limits.find? fun p => !p.2).map (·.1)

/-- The rest of RSCAT, once the record is read: an open slot traps (R174). -/
def planEntry (f : XF) (bs : List Byte) : Do Unit := do
  let s ← get
  match planFault bs with
  | some off => trapOf .shape (BitVec.ofNat 64 off)
  | none =>
    let g := fieldOf bs
    if (tfind (s.die (dieOf s.curCid)).plans (g 2 1)).isSome then trapOf .shape 2
    else
      let w := fun off => BitVec.ofNat 64 (g off 8)
      let r : PlanRec :=
        { home := s.here.home, etype := g 0 1, stream := g 1 1 % 2 == 1, rdv := if g 1 1 / 2 % 2 = 1 then some (g 3 1) else none
          slot := g 2 1, n := g 4 2, rank := g 6 2, elems := g 8 8, src := w 16, dst := w 24, next := w 32, planid := w 40
          mb := g 48 1 }
      postTransfer (s.ownTransfer (.rscat r)) (.rscat f)

/-- RSCAT (R174): the record is one 128-byte load. -/
def execRscat (f : XF) (s : State) : Host.Outcome State Fault Refusal :=
  issue (.rscat f) (do
    let a ← readS 1 f.a
    if a.toNat % 128 ≠ 0 then trapOf .align a 1
    else
      let bs ← readRange 1 .bulkLoad ((unitParts a 8).map fun p => { p with tval := a }) (.rscat f)
      match bs with
      | some bs => planEntry f bs
      | none => pure ()) s

/-! ### The ring -/

/-- Node and core of the member that a plan names as its next one (R166). -/
def PlanRec.nextNode (r : PlanRec) : Nat := r.next.toNat / 2 ^ 16 % 2 ^ 10
def PlanRec.nextCore (r : PlanRec) : Nat := r.next.toNat % 2 ^ 11

/-- All the input of a plan is there. -/
def Transfer.inputReady (t : Transfer) (r : PlanRec) : Bool :=
  if r.stream then decide (r.elems * 4 ≤ t.input.length) else t.readDone

/-- The value of element i of an input: FP32, or BF16 widened exactly. -/
def planElement (r : PlanRec) (bs : List Byte) (i : Nat) : Nat :=
  if r.etype = 9 then leNat ((bs.drop (4 * i)).take 4) else leNat ((bs.drop (2 * i)).take 2) * 2 ^ 16

/-- The chunk that is the k-th that a member sends, and that it receives. -/
def PlanRec.sent (r : PlanRec) (k : Nat) : Nat := (r.rank + r.n - k) % r.n
def PlanRec.received (r : PlanRec) (k : Nat) : Nat := (r.rank + r.n - 1 - k) % r.n

/-- The FP32 words of a chunk of a member's own input. -/
def ownChunk (r : PlanRec) (input : List Byte) (j : Nat) : List Byte :=
  let e := r.elems / r.n
  (List.range e).flatMap fun i => leBytes 4 (planElement r input (j * e + i))

/-- The sum of a chunk that has come so far with the member's own chunk added, element by element (R174). -/
def addChunk (r : PlanRec) (input p : List Byte) (j : Nat) : List Byte :=
  let e := r.elems / r.n
  (List.range e).flatMap fun i =>
    leBytes 4 (addF f32 .rne (leNat ((p.drop (4 * i)).take 4)) (planElement r input (j * e + i)))

/-- The bytes of DST: the sum of the member's chunk in the type of the plan. -/
def chunkResult (r : PlanRec) (p : List Byte) : List Byte :=
  if r.etype = 9 then p
  else (List.range (r.elems / r.n)).flatMap fun i => leBytes 2 (roundF bf16 .rne (decodeF f32 (leNat ((p.drop (4 * i)).take 4))))

namespace State

/-- Undefined bytes put into a destination where they can be (R174). -/
def unitSpoil (s : State) (source cid home region : Nat) (va : Word) (n : Nat) : State :=
  (unitPieces va n).foldl (fun s p =>
    let bs := (List.range p.2).map fun i => Config.freeByte (s.free + i)
    let s := { s with free := s.free + p.2 }
    match s.unitLoc cid home region (va + BitVec.ofNat 64 p.1) p.2 true with
    | some l => if l.tier then s else s.storeChecked l (allOn bs) source
    | none => s) s

/-- A plan ends: its slot closes, its unit's place is free, and the chunks for it are refused. -/
def closePlan (s : State) (t : Transfer) (r : PlanRec) : State :=
  let s := if r.stream then s.modDie (dieOf t.cid) fun d => { d with plans := tdel d.plans r.slot } else s
  ((s.dropTransfer t.id).retryPosted).unitEnded t.gid

/-- The failure of a member (R174): ABANDON, an undefined DST, and the failure of its neighbours in the ring. -/
def failPlan (s : State) (t : Transfer) (r : PlanRec) : State :=
  let near := s.transfers.filter fun u =>
    match u.plan? with
    | some q => u.id != t.id && u.packets.isEmpty && q.planid == r.planid && (u.cid == r.nextCore || q.nextCore == t.cid)
    | none => false
  let s := near.foldl (fun s u => s.schedule (.cycle s.cycle) (rankOf u.source) .rscatCompletion { a := u.id, c := 2 }) s
  let s := (s.transfers.filter fun u => match u.kind with
    | .chunk c => c.plan == t.id && u.sender.isNone || c.core == t.cid && c.planid == r.planid && c.rank == r.rank
    | _ => false).foldl dropMessage s
  let s := if (s.core t.cid).gid = t.gid then s.unitSpoil t.source t.cid r.home t.region r.dst (r.elems / r.n * planSize r) else s
  (s.abandonFor t.gid t.cid r.mb).closePlan t r

/-- The k-th chunk that a member sends goes to the next one as a message between their engines (R168, R174). -/
def sendChunk (s : State) (t : Transfer) (r : PlanRec) (k : Nat) (bs : List Byte) : State :=
  let f := s.fresh
  let own := r.nextNode == s.node
  let recvRegion := if own then (s.liveRegion r.nextCore).getD t.region else t.region
  let u : Transfer :=
    { id := f.1, cid := t.cid, slot := t.slot, serial := t.serial, gid := t.gid, region := t.region, accepted := true
      kind := .chunk { plan := t.id, k := k, len := bs.length, core := r.nextCore, planid := r.planid, rank := (r.rank + 1) % r.n
                       n := r.n, etype := r.etype, elems := r.elems }
      nodes := if own then [] else [r.nextNode], here := own, recvHere := own, receiver := r.nextCore, recvRegion := recvRegion
      prio := Nat.min (s.effPrio t.region) (s.effCeil recvRegion), gate := dieOf r.nextCore, prefixed := s.effUnsched recvRegion
      input := bs }
  { f.2 with transfers := f.2.transfers ++ [u] }.startMessage u false

/-- The sum is formed: DST is written from now on, and nothing of the ring concerns the plan any more. -/
def startResult (s : State) (t : Transfer) (r : PlanRec) (p : List Byte) : State :=
  (s.modTransfer t.id fun t => { t with packets := [{ n := 0, bytes := chunkResult r p }] }).unclockedUnit t.source (rankOf t.source)
    .rscatCompletion { a := t.id, c := 3 }

/-- A plan goes on: once its input is there it sends its first chunk; to each chunk that comes, in their order, it adds its own
and sends the sum on, but for the last, which is its own (R174). -/
def advancePlan (s : State) (t : Transfer) (r : PlanRec) : State :=
  if !t.readDone then
    if t.inputReady r then
      let s := s.modTransfer t.id fun t => { t with readDone := true }
      let s := s.sendChunk t r 1 (ownChunk r t.input (r.sent 1))
      s.schedule (.cycle s.cycle) (rankOf t.source) .rscatCompletion { a := t.id }
    else s
  else
    match s.transfers.find? (fun u => match u.kind with
      | .chunk c => c.core == t.cid && c.planid == r.planid && c.rank == r.rank && c.k == t.step + 1 && u.allLanded
      | _ => false) with
    | none => s
    | some u =>
      match u.kind with
      | .chunk c =>
        if c.n ≠ r.n ∨ c.etype ≠ r.etype ∨ c.elems ≠ r.elems then s.failPlan t r
        else
          let p := addChunk r t.input u.input (r.received c.k)
          let s := ((s.answerSender u true).dropTransfer u.id).modTransfer t.id fun t => { t with step := c.k }
          if c.k + 1 = r.n then s.startResult t r p
          else (s.sendChunk t r (c.k + 1) p).schedule (.cycle s.cycle) (rankOf t.source) .rscatCompletion { a := t.id }
      | _ => s

/-- The input of a plan that does not stream is read by its engine (R174, R236); the tier does not serve it (R274). -/
def readPlan (s : State) (t : Transfer) (r : PlanRec) : State :=
  let n := r.elems * planSize r
  let p := s.unitRange t.source t.cid r.home t.region false r.src (unitPieces r.src n)
  if p.1.1 then
    let t := { t with input := p.1.2, readDone := true }
    let s := (p.2.modTransfer t.id fun _ => t).sendChunk t r 1 (ownChunk r t.input (r.sent 1))
    s.schedule (.cycle s.cycle) (rankOf t.source) .rscatCompletion { a := t.id }
  else p.2.failPlan t r

/-- The completion of a member (R174): the count and the arrival. -/
def finishPlan (s : State) (t : Transfer) (r : PlanRec) : State :=
  let s := s.mbCount t.cid r.mb
  let s := match r.rdv with
    | some pt => s.unitArrival t.cid t.gid pt (some t.source)
    | none => s
  s.closePlan t r

/-- Part i of DST performed; with the last one the plan is complete. -/
def writePlan (s : State) (t : Transfer) (r : PlanRec) (bs : List Byte) (i : Nat) : State :=
  if (s.core t.cid).gid ≠ t.gid then s.closePlan t r
  else
    match (unitPieces r.dst bs.length)[i]? with
    | none => s.finishPlan t r
    | some p =>
      match s.unitLoc t.cid r.home t.region (r.dst + BitVec.ofNat 64 p.1) p.2 true with
      | none => s.failPlan t r
      | some l =>
        if l.tier then s.failPlan t r
        else
          let s := s.storeChecked l (allOn ((bs.drop p.1).take p.2)) t.source
          if i + 1 < (unitPieces r.dst bs.length).length then
            s.unclockedUnit t.source (rankOf t.source) .rscatCompletion { a := t.id, c := 3, b := i + 1 }
          else s.finishPlan t r

/-- A chunk has come to its receiver's engine: its plan goes on; with none left there the message is refused. -/
def chunkCame (s : State) (u : Transfer) : State :=
  match u.kind with
  | .chunk c =>
    match s.planAt c with
    | some t => (match t.plan? with | some r => s.advancePlan t r | none => s)
    | none => s.dropMessage u
  | _ => s

/-- RSCAT_COMPLETION (R174): a plan reads its input (1), fails (2), writes its result (3), or goes on (0); a chunk has come (4). -/
def completePlan (s : State) : State :=
  match s.transfer? s.obj.a with
  | none => s
  | some t =>
    match t.plan? with
    | none => if s.obj.c = 4 then s.chunkCame t else s
    | some r =>
      match s.obj.c with
      | 1 => s.readPlan t r
      | 2 => if t.packets.isEmpty then s.failPlan t r else s
      | 3 => (match t.packets with | p :: _ => s.writePlan t r p.bytes s.obj.b | [] => s)
      | _ => if t.packets.isEmpty then s.advancePlan t r else s

end State

/-- RSCAT_COMPLETION (R174). -/
def execRscatCompletion (s : State) : Host.Outcome State Fault Refusal := stepTo State.completePlan s

end Sys2Proof.Machine
end

