-- ==== Sys2Proof/Machine/Decoder.lean ====
section
/-!
DEFINITION. VDEC and the AV1 decoders (R175, R176).
-/
namespace Sys2Proof.Machine

/-- The first offset at which a command record lies outside the limits of R175. -/
def commandFault (bs : List Byte) : Option Nat :=
  let g := fieldOf bs
  let zero := fun off n => (rangeFrom off n).map fun o => (o, g o 1 == 0)
  let bsa := BitVec.ofNat 64 (g 8 8)
  let global := match windowOf bsa with | .global _ => true | _ => false
  let size := fun n => decide (16 ≤ n) && decide (n ≤ 4096) && n % 16 == 0
  let limits : List (Nat × Bool) :=
    [ (0, decide (g 0 1 ≤ 1)), (1, decide (g 1 1 ≤ 1)), (2, decide (g 2 1 ≤ 3)), (3, decide (g 3 1 < 24))
    , (4, decide (1 ≤ g 4 2) && decide (g 4 2 ≤ 4096)) ] ++ zero 6 2 ++
    [ (8, global && g 8 8 % 16 == 0), (16, decide (1 ≤ g 16 8) && decide (g 16 8 < 2 ^ 32))
    , (24, g 24 8 % 8 == 0 && decide (g 24 8 + 8 * g 4 2 ≤ 0x60000))
    , (32, g 32 2 % 2 == 0), (34, g 34 2 % 2 == 0), (36, size (g 36 2)), (38, size (g 38 2)), (40, decide (g 40 1 < 64)) ]
    ++ zero 41 23
  (limits.find? fun p => !p.2).map (·.1)

/-- The core and handle that an entry of the list names; its other bits are 0. -/
def frameTarget (v : Nat) : Option (Nat × Nat) :=
  if v = v % 2 ^ 11 + v / 2 ^ 16 % 2 ^ 6 * 2 ^ 16 then some (v % 2 ^ 11, v / 2 ^ 16 % 2 ^ 6) else none

/-- The rest of VDEC, once the record is read: the list of handles is a load of the own scratchpad. -/
def commandEntry (f : XF) (bs : List Byte) : Do Unit := do
  match commandFault bs with
  | some off => trapOf .shape (BitVec.ofNat 64 off)
  | none =>
    let g := fieldOf bs
    let n := g 4 2
    let list := BitVec.ofNat 64 (g 24 8)
    scanLock list (8 * n) 1 false
    readUnits 1 (BitVec.ofNat 64 (g 24 8 / 16 * 16)) ((g 24 8 % 16 + 8 * n + 15) / 16)
    let s ← get
    let entries := (List.range n).map fun i => leNat ((s.hereCore.sp.bytes (list.toNat + 8 * i)) 8)
    match entries.mapM frameTarget with
    | none => trapOf .shape 24
    | some ts =>
      let r : VdecRec :=
        { dec := g 0 1, rdv := if g 1 1 = 1 then some (g 3 1) else none, outfmt := g 2 1, frames := n
          bs := BitVec.ofNat 64 (g 8 8), bslen := g 16 8, x := g 32 2, y := g 34 2, w := g 36 2, h := g 38 2, errmb := g 40 1
          targets := ts }
      postTransfer (s.ownTransfer (.vdec r)) (.vdec f)

/-- VDEC (R175): the record is one 64-byte load. -/
def execVdec (f : XF) (s : State) : Host.Outcome State Fault Refusal :=
  issue (.vdec f) (do
    let a ← readS 1 f.a
    if a.toNat % 64 ≠ 0 then trapOf .align a 1
    else
      let bs ← readRange 1 .bulkLoad ((unitParts a 4).map fun p => { p with tval := a }) (.vdec f)
      match bs with
      | some bs => commandEntry f bs
      | none => pure ()) s

/-! ### Frames (R175) -/

/-- An integer, and a decimal of ten-thousandths or hundred-thousandths, in FP32. -/
def intF (i : Int) : Nat := roundF f32 .rne (intVal i)
def decimalF (n d : Int) : Nat := divF f32 .rne (intF n) (intF d)

/-- y', cb or cr: a sample less its offset, over its range, at a depth. -/
def signal (depth sample off range_ : Nat) : Nat :=
  let o := 2 ^ (depth - 8)
  divF f32 .rne (subF f32 .rne (intF sample) (intF (off * o))) (mulF f32 .rne (intF range_) (intF o))

/-- R, G and B of a pixel (plane 0, 1, 2). -/
def colour (p y cb cr : Nat) : Nat :=
  let mul := mulF f32 .rne
  match p with
  | 0 => addF f32 .rne y (mul (decimalF 15748 10000) cr)
  | 1 => subF f32 .rne (subF f32 .rne y (mul (decimalF 18732 100000) cb)) (mul (decimalF 46812 100000) cr)
  | _ => addF f32 .rne y (mul (decimalF 18556 10000) cb)

/-- A value clamped to the interval from 0 to 1. -/
def clampF (x : Nat) : Nat := if ltF f32 x 0x3F800000 then (if ltF f32 0 x then x else 0) else 0x3F800000

/-- The format of an OUTFMT, with the bytes of an element (R175). -/
def outFormat (o : Nat) : Fmt × Nat :=
  match o with
  | 0 => (bf16, 2)
  | 1 => (f16, 2)
  | _ => (e4m3, 1)

/-- The bytes of the samples of the raw planes. -/
def sampleBytes (depth : Nat) : Nat := if depth ≤ 8 then 1 else 2

/-- The length of a frame (R175). -/
def frameLen (r : VdecRec) (depth : Nat) : Nat :=
  if r.outfmt = 3 then (r.w * r.h + 2 * (r.w / 2 * (r.h / 2))) * sampleBytes depth else 3 * r.w * r.h * (outFormat r.outfmt).2

/-- The bytes of a decoded frame in its crop window. -/
def frameBytes (r : VdecRec) (fr : Config.Frame) : List Byte :=
  let cw := (fr.width + 1) / 2
  let lum := fun x y => fr.y.getD ((r.y + y) * fr.width + r.x + x) 0
  let chr := fun (pl : List Nat) x y => pl.getD ((r.y / 2 + y) * cw + r.x / 2 + x) 0
  if r.outfmt = 3 then
    let n := sampleBytes fr.depth
    ((List.range r.h).flatMap fun y => (List.range r.w).flatMap fun x => leBytes n (lum x y))
      ++ ((List.range (r.h / 2)).flatMap fun y => (List.range (r.w / 2)).flatMap fun x => leBytes n (chr fr.u x y))
      ++ ((List.range (r.h / 2)).flatMap fun y => (List.range (r.w / 2)).flatMap fun x => leBytes n (chr fr.v x y))
  else
    let fm := outFormat r.outfmt
    (List.range 3).flatMap fun p => (List.range r.h).flatMap fun y => (List.range r.w).flatMap fun x =>
      let y' := signal fr.depth (lum x y) 16 219
      let cb := signal fr.depth (chr fr.u (x / 2) (y / 2)) 128 224
      let cr := signal fr.depth (chr fr.v (x / 2) (y / 2)) 128 224
      leBytes fm.2 (convertF fm.1 .rne (decodeF f32 (clampF (colour p y' cb cr))))

/-- A frame that cannot be decoded, or does not cover the crop window (R176). -/
def frameBad (r : VdecRec) (fr : Config.Frame) : Bool :=
  fr.corrupt || decide (fr.width < r.x + r.w) || decide (fr.height < r.y + r.h)

namespace State

/-- The command of a transfer. -/
def command? (s : State) (id : Nat) : Option (Transfer × VdecRec) :=
  match s.transfer? id with
  | some t => (match t.kind with | .vdec r => some (t, r) | _ => none)
  | none => none

/-- VDEC_COMMAND_START (R175): the oldest command of a decoder starts, unless it runs. -/
def startDecode (s : State) : State :=
  match tget (s.die s.obj.a).decoders s.obj.b [] with
  | [] => s
  | id :: _ =>
    match s.command? id with
    | none => s
    | some (t, r) =>
      if t.locked then s
      else
        let p := s.unitRange t.source t.cid t.cid t.region false r.bs (unitPieces r.bs r.bslen)
        (p.2.modTransfer id fun t => { t with locked := true, input := p.1.2 }).unclockedUnit t.source (rankOf t.source) .frameLanding
          { a := id }

/-- A frame has landed or has been dropped: the next one follows, or the batch ends. -/
def frameDone (s : State) (t : Transfer) (r : VdecRec) (f : Nat) : State :=
  let s := s.modTransfer t.id fun t => { t with packets := [] }
  if f + 1 < r.frames then s.unclockedUnit t.source (rankOf t.source) .frameLanding { a := t.id, b := f + 1 }
  else s.schedule (.cycle s.cycle) (rankOf t.source) .decodeBatchEnd { a := t.id }

/-- A frame that its handle cannot take: REFUSED, FULL if it was FILLING, and ABANDON of ERRMB (R175). -/
def refuseFrame (s : State) (t : Transfer) (r : VdecRec) (f cid x : Nat) : State :=
  let h := s.handle cid x
  let s :=
    if !s.livePitchUp cid t.region then s
    else if h.state = .filling then s.fillHandle cid x { h with refused := true } else s.putHandle cid x { h with refused := true }
  (s.abandonFor t.gid t.cid r.errmb).frameDone t r f

/-- Frame f of a command is decoded (R175, R176): against zeros where it references a corrupt or dependent frame, which marks
it DEPENDENT; what cannot be decoded is zeros and marks it CORRUPT. -/
def decodeFrame (s : State) (t : Transfer) (r : VdecRec) (f cid x : Nat) : State :=
  let fr := Config.av1Frame t.input t.indices f
  let bad := frameBad r fr
  let dep := !bad && (fr.outside || fr.refs.any t.indices.contains)
  let len := frameLen r fr.depth
  let bs := if bad then List.replicate len 0 else frameBytes r fr
  let s := s.modTransfer t.id fun t =>
    { t with packets := [{ n := f, bytes := bs }], indices := if bad || dep then t.indices ++ [f] else t.indices }
  let h := s.handle cid x
  if h.state = .filling ∧ len ≤ h.len then
    s.setHandle cid x { h with corrupt := h.corrupt || bad, dependent := h.dependent || dep }
  else s

/-- A unit of a frame performed in its handle; one that a range lock refuses fails, and sets ERR (R83, R86, R176). -/
def frameUnit (s : State) (t : Transfer) (cid x off : Nat) (bs : List Byte) : State :=
  let h := s.handle cid x
  if s.scratchLocked cid (h.base + off) 16 true then s.setHandle cid x { h with err := true }
  else (s.storeChecked { home := .scratch cid, addr := h.base + off } (allOn bs) t.source (marks := false)).landingStale cid x off 16

/-- A packet of a frame has landed (R169, R175): counted; with the last one the handle is FULL (R163). -/
def framePacket (s : State) (t : Transfer) (r : VdecRec) (f cid x len n : Nat) : State :=
  let part := packetPart len n
  let s := (s.mbCount cid (s.handle cid x).mb).countLanding cid x 0 part.1 part.2
  if n + 1 < packetCount len then
    s.unclockedUnit t.source (rankOf t.source) .frameLanding { a := t.id, b := f, c := 256 * (n + 1) }
  else
    let h := s.handle cid x
    (if h.state = .filling then s.fillHandle cid x h else s).frameDone t r f

/-- FRAME_LANDING (R175): a frame is decoded with its first unit, and lands unit by unit in packets. -/
def frameLands (s : State) : State :=
  match s.command? s.obj.a with
  | none => s
  | some (t, r) =>
    let f := s.obj.b
    let u := s.obj.c
    let (cid, x) := r.targets.getD f (0, 0)
    let s := if u = 0 then s.decodeFrame t r f cid x else s
    match (s.command? t.id).bind fun p => p.1.packets.head?.map fun q => (p.1, q.bytes) with
    | none => s
    | some (t, bs) =>
      let h := s.handle cid x
      if !s.livePitchUp cid t.region || h.state != .filling || decide (h.len < bs.length) then s.refuseFrame t r f cid x
      else
        let s := if bs.isEmpty then s else s.frameUnit t cid x (16 * u) ((bs.drop (16 * u)).take 16)
        if 16 * (u + 1) < bs.length ∧ (u + 1) % 256 ≠ 0 then
          s.unclockedUnit t.source (rankOf t.source) .frameLanding { a := t.id, b := f, c := u + 1 }
        else s.framePacket t r f cid x bs.length (u / 256)

/-- DECODE_BATCH_END (R176): the decoder arrives and turns to its next command. -/
def endBatch (s : State) : State :=
  match s.command? s.obj.a with
  | none => s
  | some (t, r) =>
    let s := match r.rdv with
      | some pt => if (s.core t.cid).gid = t.gid then s.unitArrival t.cid t.gid pt (some t.source) else s
      | none => s
    let s := s.modDie (dieOf t.cid) fun d =>
      { d with decoders := tset d.decoders r.dec ((tget d.decoders r.dec []).filter fun x => x != t.id) }
    let s := s.unclocked (rankOf t.source) .vdecCommandStart { a := dieOf t.cid, b := r.dec }
    ((s.dropTransfer t.id).retryPosted).unitEnded t.gid

end State

/-- VDEC_COMMAND_START (R175). -/
def execVdecCommandStart (s : State) : Host.Outcome State Fault Refusal := stepTo State.startDecode s
/-- FRAME_LANDING (R175). -/
def execFrameLanding (s : State) : Host.Outcome State Fault Refusal := stepTo State.frameLands s
/-- DECODE_BATCH_END (R176). -/
def execDecodeBatchEnd (s : State) : Host.Outcome State Fault Refusal := stepTo State.endBatch s

end Sys2Proof.Machine
end

