-- ==== Sys2Proof/Machine/Group.lean ====
section
/-!
DEFINITION. Helpers (R188 to R192), the end of a core's part (R191), and rendezvous points (R202 to R205).
-/
namespace Sys2Proof.Machine

/-- ILLEGAL at use of an instruction that only context 0 may issue (R188). -/
def controlOnly (ins : Instr) (s : State) : Option Word := if s.here.idx ≠ 0 then some ((word0 ins).setWidth 64) else none

namespace State

/-! ### Helpers (R189, R190) -/

/-- The number of contexts of the group of a core. -/
def contexts (s : State) (cid : Nat) : Nat := match s.groupOf cid with | some g => g.header.contexts | none => 0

/-- Context i of a core is live: in its home slot, or elsewhere while that slot stays reserved (R193, R215). -/
def contextLive (s : State) (cid i : Nat) : Bool :=
  let x := s.slot cid i
  x.reserved || (x.live && !x.guest && x.home == cid && x.idx == i)

/-- A slot is taken by a context that is not the core's own context of that index: a migrant, a guest, or a context on
its way (R189, R214). -/
def slotTakenByOther (s : State) (cid i : Nat) : Bool :=
  let x := s.slot cid i
  (x.live && !(x.home == cid && x.idx == i && !x.guest)) || s.moves.any fun m => m.target == cid && m.toSlot == some i

/-- Context i of a core made live at an address; its workspace is left as it is (R189). -/
def makeLive (s : State) (cid i : Nat) (target : Word) : State :=
  let c := s.slot cid 0
  let f := s.fresh
  f.2.modSlot cid i fun x =>
    { live := true, serial := f.1, home := cid, idx := i, gid := c.gid, region := c.region, mode := c.mode, pc := target
      perr := x.perr }

/-- The control context of a core tests the wait of its START or REAP (R189, R190). -/
def testControl (s : State) (cid : Nat) : State :=
  match (s.slot cid 0).wait with
  | .start i target => if s.slotTakenByOther cid i then s else (s.makeLive cid i target).wake cid 0
  | .reap i => if s.contextLive cid i then s else s.wake cid 0
  | _ => s

/-- A parked context stops where it is, and issues its instruction again when it goes on (R206). -/
def freeze (s : State) (cid i : Nat) : State :=
  s.modSlot cid i fun x =>
    { x with stopped := some none, wait := .ready, own := true, ins := none
             pc := x.pc - BitVec.ofNat 64 (match x.ins with | some ins => instrBytes ins | none => 0) }

end State

/-- A context parks in REAP or RDVWAIT; with a pre-emption pending it stops there (R206). -/
def park (w : Wait) (ins : Instr) : Do Unit := do
  wait w ins
  modify fun s =>
    match s.group? s.here.gid with
    | some g => if g.preempt && s.here.routine.isNone then s.freeze s.curCid s.curSlot else s
    | none => s

/-- The index that START and REAP name: a helper's. -/
def helperIndex (a : Word) : Do Nat := do
  let s ← get
  if a.toNat = 0 ∨ s.contexts s.curCid ≤ a.toNat then trapOf .shape a else pure a.toNat

/-- The effect of START (R189). -/
def startHelper (a target : Word) (ins : Instr) : Do Unit := do
  let i ← helperIndex a
  let s ← get
  if s.contextLive s.curCid i then trapOf .shape a
  else if s.slotTakenByOther s.curCid i then wait (.start i target) ins
  else set (s.makeLive s.curCid i target)

/-- START (R189): its target lies a number of words from its own address. -/
def execStart (f : XF) (s : State) : Host.Outcome State Fault Refusal :=
  issueChecked (.start f) (controlOnly (.start f)) (do
    let a ← readS 1 f.a
    let pc := (← get).here.pc
    startHelper a (pc - 12 + 4 * f.aux32.signExtend 64) (.start f)) s

/-- START.R (R189). -/
def execStartR (f : XF) (s : State) : Host.Outcome State Fault Refusal :=
  issueChecked (.startR f) (controlOnly (.startR f)) (do
    let a ← readS 1 f.a
    let b ← readS 2 f.b
    if b.toNat % 4 ≠ 0 then trapOf .align b else startHelper a b (.startR f)) s

/-- REAP (R190). -/
def execReap (f : XF) (s : State) : Host.Outcome State Fault Refusal :=
  issueChecked (.reap f) (controlOnly (.reap f)) (do
    let a ← readS 1 f.a
    let i ← helperIndex a
    let s ← get
    if s.contextLive s.curCid i then park (.reap i) (.reap f) else ownNext) s

/-! ### EXIT (R191, R257, R258) -/

namespace State

/-- A helper becomes not live: its slot is free, and so is its home slot, which keeps the error bits of the context (R99). -/
def endHelper (s : State) (cid i : Nat) : State :=
  let x := s.slot cid i
  let s := s.clearSlot cid i
  let s := if x.home = cid ∧ x.idx = i then s else s.modSlot x.home x.idx fun y => { serial := y.serial, perr := x.perr }
  (s.testControl x.home).testControl cid

/-- The helpers whose home is a core become not live, wherever they are (R191, R218). -/
def endHelpersOf (s : State) (gid cid : Nat) : State :=
  let s := s.recallGuests true fun c x => c == cid && x.gid == gid
  let s := { s with moves := s.moves.filter fun m => !(m.ctx.gid == gid && m.ctx.home == cid) }
  let s := s.cores.foldl (fun s p =>
    (p.2.slots.filter fun q => q.2.live && !q.2.guest && q.2.gid == gid && q.2.home == cid).foldl
      (fun s q => s.clearSlot p.1 q.1) s) s
  s.modCore cid fun c => { c with slots := c.slots.map fun q => if q.2.reserved then (q.1, { serial := q.2.serial }) else q }

/-- Every RESOLE parked in a pitch traps (R198). -/
def trapResoles (s : State) (g : Group) (v : Nat) : State :=
  let s := s.modGroup g.gid fun g => { g with heirs := [] }
  g.heirs.foldl (fun s h => s.trapWaiting h.cid h.slot { cause := .shape, tval := BitVec.ofNat 64 v }) s

/-- The end of a core's part in its group; with the last one the group ends (R191). -/
def endPart (s : State) (cid : Nat) : State :=
  match s.groupOf cid with
  | none => s
  | some g =>
    let s := s.endHelpersOf g.gid cid
    let s := s.modGroup g.gid fun g => { g with exited := g.exited ++ [cid] }
    let s := s.trapResoles g 9
    let s := g.pitch.foldl (fun s c => s.testControl c) s
    if g.pitch.all (fun c => c == cid || g.exited.contains c) then s.endPlaced g.gid false else s

/-- The end of a save or restore routine: the context waits where it stopped (R257, R258). -/
def endRoutine (s : State) (cid i : Nat) : State := s.modSlot cid i fun x => { x with routine := none, pc := x.resume }

/-- EXIT of a context. -/
def exitContext (s : State) (cid i : Nat) : State :=
  let x := s.slot cid i
  if x.routine.isSome then s.endRoutine cid i
  else if x.idx = 0 then s.endPart cid
  else s.endHelper cid i

end State

/-- EXIT (R191). -/
def execExit (f : XF) (s : State) : Host.Outcome State Fault Refusal :=
  issue (.exit f) (modify fun s => s.exitContext s.curCid s.curSlot) s

/-! ### YIELD (R192) -/

/-- YIELD: the next instruction issues 16·(n + 1) turns later at the earliest. -/
def execYield (f : XF) (s : State) : Host.Outcome State Fault Refusal :=
  issue (.yield f) (do
    let n := f.aux8.toNat
    if n = 0 then pure ()
    else modify fun s =>
      let due := s.hereCore.turn + 16 * (n + 1)
      let obj : Obj := { a := s.curCid, b := s.curSlot }
      (s.modHere fun x => { x with yield := some due }).schedule (.turn s.curCid due) (rankOf s.curCid) .yieldEnd obj) s

/-- YIELD_END (R192). -/
def execYieldEnd (s : State) : Host.Outcome State Fault Refusal :=
  stepTo (fun s => s.modSlot s.obj.a s.obj.b fun x =>
    match x.yield with
    | some t => if t ≤ (s.core s.obj.a).turn then { x with yield := none } else x
    | none => x) s

/-- STALL_DISTANCE_END (R21). -/
def execStallDistanceEnd (s : State) : Host.Outcome State Fault Refusal :=
  stepTo (fun s => s.modSlot s.obj.a s.obj.b fun x =>
    match x.stall with
    | some t => if t ≤ (s.core s.obj.a).turn then { x with stall := none } else x
    | none => x) s

/-! ### Rendezvous points (R202 to R205) -/

/-- The rendezvous point that an instruction names. -/
def XF.point (f : XF) : Nat := (f.aux8.extractLsb' 0 5).toNat

/-- A message to the home of a rendezvous point: its region field names the group. -/
def pointMessage (s : State) (g : Group) (kind : MsgKind) (ins : Instr) : Msg :=
  { message s kind 0 0 { home := .scratch g.home, addr := 0 } 0 ins with region := g.gid }

/-- The group of the issuing context. -/
def myGroup : Do (Option Group) := do
  let s ← get
  pure (s.group? s.here.gid)

/-- RDVINIT (R203): performed at issue where the home is the issuing core. -/
def execRdvinit (f : XF) (s : State) : Host.Outcome State Fault Refusal :=
  issue (.rdvinit f) (do
    let a ← readS 1 f.a
    if a = 0 ∨ 65536 ≤ a.toNat then trapOf .shape a
    else
      match ← myGroup with
      | none => pure ()
      | some g => do
        let s ← get
        if g.home = s.curCid then set (s.setExpect g.gid (XF.point f) a.toNat)
        else set (s.post (pointMessage s g (.rdvinit (XF.point f) a.toNat) (.rdvinit f))).2) s

/-- RDVINIT_AT_HOME (R203). -/
def execRdvinitAtHome (s : State) : Host.Outcome State Fault Refusal :=
  stepTo (fun s =>
    match s.msg? s.obj.a with
    | none => s
    | some m =>
      match m.kind with
      | .rdvinit pt n => (s.setExpect m.region pt n).dropMsg m.id
      | _ => s) s

/-- The target phase of a context after its arrival, and the wait that this ends. -/
def State.setTarget (s : State) (cid i pt : Nat) (p : BitVec 16) : State :=
  State.testRendezvous pt cid (s.modSlot cid i fun x => { x with phases := tset x.phases pt (p + 1) }) i

/-- ARRIVE (R204): a release of scope P, then one arrival at the home; with the home on the issuing core it is counted at
issue. -/
def execArrive (f : XF) (s : State) : Host.Outcome State Fault Refusal :=
  issue (.arrive f) (do
    match ← myGroup with
    | none => pure ()
    | some g => do
      let s ← get
      let pt := XF.point f
      if s.unackedIn s.here.serial 2 ≠ 0 then do
        let p := s.post (pointMessage s g (.arrive pt) (.arrive f)) false
        set p.2
        wait (.release 2 p.1) (.arrive f)
      else if g.home = s.curCid then
        let p := s.countArrival g.gid pt
        set (p.2.setTarget s.curCid s.curSlot pt p.1)
      else set (s.post (pointMessage s g (.arrive pt) (.arrive f))).2) s

namespace State

/-- An arrival counted at its home, unless its group has been killed (R204, R279). -/
def countOf (s : State) (gid pt : Nat) : BitVec 16 × State :=
  match s.group? gid with
  | some g => if g.killed then ((g.point pt).phase, s) else s.countArrival gid pt
  | none => (0, s)

/-- The target phase of the context of an arrival that has been answered. -/
def answerArrival (s : State) (m : Msg) (pt : Nat) (p : BitVec 16) : State :=
  let s := s.dropMsg m.id
  match s.ownerOf m.cid m.slot m.serial with
  | none => s
  | some (c, i) => (s.setTarget c i pt p).settle c i

/-- RENDEZVOUS_ARRIVAL (R204): a unit's arrival has no response. -/
def pointArrives (s : State) : State :=
  match s.msg? s.obj.a with
  | none => s
  | some m =>
    match m.kind with
    | .arrive pt =>
      let p := s.countOf m.region pt
      if 16 ≤ m.slot then p.2.dropMsg m.id
      else if m.loc.home = .scratch m.cid then p.2.answerArrival m pt p.1
      else (p.2.modMsg m.id fun m => { m with performed := true, resp := some (.value (p.1.setWidth 128)) }).respond m.id
    | _ => s

/-- ARRIVE_RESPONSE (R204). -/
def arrivalAnswered (s : State) : State :=
  match s.msg? s.obj.a with
  | none => s
  | some m =>
    match m.kind, m.resp with
    | .arrive pt, some (.value v) => s.answerArrival m pt (v.setWidth 16)
    | _, _ => s

end State

/-- RENDEZVOUS_ARRIVAL (R204). -/
def execRendezvousArrival (s : State) : Host.Outcome State Fault Refusal := stepTo State.pointArrives s
/-- ARRIVE_RESPONSE (R204). -/
def execArriveResponse (s : State) : Host.Outcome State Fault Refusal := stepTo State.arrivalAnswered s

/-- PHASE_UPDATE (R202): received while the core still belongs to the group. -/
def execPhaseUpdate (s : State) : Host.Outcome State Fault Refusal :=
  stepTo (fun s => if (s.core s.obj.a).gid = s.obj.c then s.receivePhase s.obj.a s.obj.b (s.obj.v.setWidth 16) else s) s

/-- Whether a phase has been reached on a core (R202). -/
def State.phaseReached (s : State) (cid pt : Nat) (p : BitVec 16) : Bool :=
  decide ((tget (s.core cid).phase pt 0 - p).toNat < 2 ^ 15)

/-- The wait of RDVWAIT (R205): tested at issue. -/
def waitPhase (pt : Nat) (p : Option (BitVec 16)) (ins : Instr) : Do Unit := do
  let s ← get
  let goal := p.getD (tget s.here.phases pt 0)
  if s.phaseReached s.curCid pt goal && !s.arrivesAt s.here.serial pt then do
    modify fun s => s.l1Clear s.curCid
    ownNext
  else park (.rendezvous pt p) ins

/-- RDVWAIT (R205). -/
def execRdvwait (f : XF) (s : State) : Host.Outcome State Fault Refusal := issue (.rdvwait f) (waitPhase (XF.point f) none (.rdvwait f)) s
/-- RDVWAIT with the phase in a register (R205). -/
def execRdvwaitPhase (f : XF) (s : State) : Host.Outcome State Fault Refusal :=
  issue (.rdvwaitPhase f) (do
    let a ← readS 1 f.a
    if 65536 ≤ a.toNat then trapOf .shape a
    else waitPhase (XF.point f) (some (a.setWidth 16)) (.rdvwaitPhase f)) s

end Sys2Proof.Machine
end

