-- ==== Sys2Proof/Machine/Launch.lean ====
section
/-!
DEFINITION. Kernel headers (R252), requests for a new group (R194, R253, R259), and LAUNCH (R194).
-/
namespace Sys2Proof.Machine

/-! ### The kernel header (R252) -/

/-- A core count that a header may hold: 1, 2, 4, or four times the clusters of a rectangle. -/
def coreCounts : List Nat :=
  [1, 2] ++ (List.range 16).flatMap fun c => (List.range 4).map fun r => 4 * (c + 1) * (r + 1)

/-- The fields of a header that was read at an address. -/
def parseHeader (va : Word) (bs : List Byte) : Header :=
  let g := fieldOf bs
  let w := fun off => BitVec.ofNat 64 (g off 8)
  { va := va.toNat, features := w 0, cores := g 8 2, contexts := g 10 1, cls := g 11 1, detreq := g 12 1, nsafe := g 13 1
    scratch := g 16 4, savesz := g 20 4, entry := w 24, handler := w 32, safetab := w 40, data := w 48, datalen := g 56 4
    nlast := g 60 1, lasts := w 64 }

/-- An address of the global window (R81). -/
def isGlobal (a : Word) : Bool := match windowOf a with | .global _ => true | _ => false

/-- Every field of a header lies within its limits; HANDLER is 0 in a kernel without a handler (R278), and an address of something
that is empty may be any. -/
def headerWithin (h : Header) (bs : List Byte) : Bool :=
  h.features.toNat < 2 ^ 9 && coreCounts.contains h.cores && decide (1 ≤ h.contexts) && decide (h.contexts ≤ 16)
    && decide (h.cls ≤ 1) && decide (h.detreq ≤ 2) && decide (h.scratch ≤ 372736)
    && h.savesz % 64 == 0 && decide (h.savesz ≤ 2 ^ 24) && h.entry.toNat % 4 == 0 && isGlobal h.entry
    && h.handler.toNat % 4 == 0 && (h.handler == 0 || isGlobal h.handler)
    && h.safetab.toNat % 16 == 0 && (h.nsafe != 0 || h.safetab == 0) && decide (h.datalen ≤ h.scratch)
    && decide (h.nlast ≤ 64) && h.lasts.toNat % 64 == 0 && (h.nlast != 0 || h.lasts == 0)
    && ([14, 15, 61, 62, 63] ++ rangeFrom 72 184).all fun o => fieldOf bs o 1 == 0

namespace State

/-- Bytes of one page, given by their address and number, that the scheduler reads through a region's tables, with the errors that it
meets: whether this and the reads before it succeed (R82, R91, R275). -/
def deviceUnit (region : Nat) (acc : Bool × State) (p : Nat × Nat) : Bool × State :=
  match windowOf (BitVec.ofNat 64 p.1) with
  | .global v =>
    let s := if acc.2.errorFree then acc.2 else acc.2.noteWalk region v 0 deviceSource
    match s.walk region v with
    | none => (false, s)
    | some e =>
      let l := s.paLoc (e.pa + v % e.size)
      if l.home.isNode || (l.tier && s.tierLost l.pa) then (false, s)
      else if s.errorFree then (acc.1, s)
      else
        let r := s.eccRead l p.2 deviceSource
        (acc.1 && !r.1, r.2)
  | _ => (false, acc.2)

/-- A range of the global window read by the scheduler: page by page where no ECC word has an error, else word by word. -/
def deviceRead (s : State) (region va n : Nat) : Bool × State :=
  let step := if s.errorFree then 65536 else 32
  if n = 0 then (true, s)
  else
    (List.range ((va + n - 1) / step - va / step + 1)).foldl (fun acc i =>
      let a := Nat.max va ((va / step + i) * step)
      deviceUnit region acc (a, Nat.min (va + n) ((va / step + i + 1) * step) - a)) (true, s)

/-- A valid header: its fields within their limits, and what it points to readable in the target region. -/
def headerValid (s : State) (region : Nat) (h : Header) (bs : List Byte) : Bool × State :=
  if !headerWithin h bs then (false, s)
  else
    [(h.data, h.datalen), (h.lasts, 64 * h.nlast), (h.safetab, 16 * h.nsafe)].foldl (fun (acc : Bool × State) p =>
      let r := acc.2.deviceRead region p.1.toNat p.2
      (acc.1 && r.1, r.2)) (true, s)

/-- A byte that the scheduler reads through a region's tables.  The spec says nothing of an image byte that turns out unreadable once
its header has been found valid; the model takes one without a translation, on another module or in a lost part of the tier as 0, and one of
an ECC word of HBM with a lasting error as the word holds it (R12, log 25). -/
def regionByte (s : State) (region : Nat) (va : Word) : Byte :=
  match windowOf va with
  | .global a =>
    match s.walk region a with
    | some e =>
      let l := s.paLoc (e.pa + a % e.size)
      if l.home.isNode || (l.tier && s.tierLost l.pa) then 0 else s.mem.get l.addr
    | none => 0
  | _ => 0

/-- n bytes of a region's address space. -/
def regionBytes (s : State) (region : Nat) (va : Word) (n : Nat) : List Byte :=
  (List.range n).map fun i => s.regionByte region (va + BitVec.ofNat 64 i)

/-! ### Requests (R80, R253) -/

/-- The identifier of a new group: rising, and neither 0 nor in use (R80). -/
def newGid (s : State) : Nat → Nat × State
  | 0 => (s.nextGid, s)
  | fuel + 1 =>
    let g := s.nextGid % 2 ^ 32
    let s' := { s with nextGid := g + 1 }
    if g = 0 ∨ (tfind s.groups g).isSome then s'.newGid fuel else (g, s')

/-- Most cores that a region's groups may hold (R250, R251). -/
def effCores (s : State) (rcb : Nat) : Nat := inherit_ (s.ancestry rcb) (·.cores) 0xFFFF 2048

/-- The budgets that a request of a region is held to: its own and its ancestors' (R251). -/
def budgetsOf (s : State) (region : Nat) : List (Nat × Nat) := (s.ancestry region).map fun p => (p.1, s.effCores p.1)

/-- A request put into the queue; it is placed at a time of its own. -/
def enqueueGroup (s : State) (g : Group) : Nat × State :=
  let p := s.newGid (s.groups.length + 2)
  let g :=
    { g with gid := p.1, launchGtc := s.gtc.toNat, state := .queued, mode := s.modeBits g.region (g.header.cls == 1)
             prio := s.effPrio g.region, budgets := s.budgetsOf g.region }
  let s := { p.2 with groups := tset p.2.groups p.1 g, queue := p.2.queue ++ [p.1] }
  (p.1, s.unclocked 0 .placement)

/-- Whether the determinism requirement of a header is met (R252). -/
def detMet (h : Header) (det : Bool) : Bool := h.detreq == 0 || (h.detreq == 1) == det

/-- The outcome of a request with a header: the group's identifier, or 0 for a refusal, which is logged (R252, R259). -/
def requestGroup (s : State) (g : Group) (bs : List Byte) : Nat × State :=
  let v := s.headerValid g.region g.header bs
  let s := v.2
  if v.1 && detMet g.header ((s.effModeb g.region).getLsbD 0) then s.enqueueGroup g
  else (0, s.eventRecord g.source g.region 0 3 0 (BitVec.ofNat 64 g.header.va) 0)

end State

/-! ### The launch record (R194) -/

/-- The cores of a shape. -/
def shapeCores (shape cols rows : Nat) : Nat :=
  match shape with
  | 0 => 1
  | 1 => 2
  | 2 => 4
  | _ => 4 * cols * rows

/-- The first byte at which a launch record lies outside its limits. -/
def launchFault (bs : List Byte) : Option Nat :=
  let g := fun o => fieldOf bs o 1
  let rect := g 16 == 3
  let en := decide (128 ≤ g 23)
  let bound := fun o hi => if rect then decide (1 ≤ g o) && decide (g o ≤ hi) else g o == 0
  let limits : List (Nat × Bool) :=
    [ (16, decide (g 16 ≤ 3)), (17, bound 17 16), (18, bound 18 4), (19, decide (g 19 < 8) || g 19 == 255)
    , (20, en || g 20 == 0), (21, decide (g 21 < 8) && (en || g 21 == 0)), (22, decide (g 22 < 64) && (en || g 22 == 0))
    , (23, g 23 % 128 == 0), (24, if g 32 = 0 then g 24 == 0 else g 24 % 64 == 0) ]
    ++ (rangeFrom 25 7).map (fun o => (o, g 32 != 0 || g o == 0))
    ++ [(32, decide (g 32 ≤ 64))]
    ++ (rangeFrom 33 31).map fun o => (o, g o == 0)
  (limits.find? fun p => !p.2).map (·.1)

/-- The group that a record and a header ask for. -/
def groupOfRecord (region : Nat) (h : Header) (bs lasts : List Byte) (source : Nat) (notify : Option (Nat × Nat × Nat)) : Group :=
  { gid := 0, region := region, header := h, shape := fieldOf bs 16 1, cols := fieldOf bs 17 1, rows := fieldOf bs 18 1
    die := fieldOf bs 19 1, source := source, lasts := lasts, notify := notify }

/-- The region that RCB names, by its physical address (R194); the issuing region for 0. -/
def launchRegion (rcb : Word) : Do Nat := do
  let s ← get
  let own := s.here.region
  if rcb = 0 then pure own
  else
    match windowOf rcb with
    | .malformed => trapOf .xlate rcb
    | .global a =>
      match s.translation s.curCid s.here a with
      | none => if s.here.walkFailed a || s.here.walkedTogether then trapOf (s.walkCause s.here.region a (dieOf s.curCid)) rcb else throw (.miss rcb)
      | some e =>
        let pa := e.pa + a % e.size
        if s.isAncestor own pa then pure pa else trapOf .perm rcb
    | _ => trapOf .perm rcb

/-- Loads of a range added to those that the context waits for. -/
def loadMore (use : Nat) (va : Word) (n : Nat) (ins : Instr) (ids : List Nat) : Do (List Nat) := do
  let ls ← checkedParts use .bulkLoad ((unitParts va n).map fun p => { p with tval := va })
  let s ← get
  let p := s.postParts use ins ls
  set p.2
  wait (.rows (ids ++ p.1)) ins
  pure (ids ++ p.1)

/-- The end of an instruction that has waited for its loads. -/
def endRows (ids : List Nat) : Do Unit :=
  modify fun s => { s with net := s.net.filter fun m => !ids.contains m.id }.modHere fun x => { x with wait := .ready, own := true }

/-- The request made, and its identifier delivered. -/
def finishLaunch (rec_ hdr lasts : List Byte) (ids : List Nat) : Do Unit := do
  let region ← launchRegion (BitVec.ofNat 64 (fieldOf rec_ 8 8))
  let s ← get
  let nt := fieldOf rec_ 20 4
  let notify := if nt / 2 ^ 31 = 1 then some (s.here.gid, nt % 2 ^ 11, nt / 2 ^ 16 % 64) else none
  let g := groupOfRecord region (parseHeader (BitVec.ofNat 64 (fieldOf rec_ 0 8)) hdr) rec_ lasts s.curCid notify
  let p := s.requestGroup g hdr
  set (p.2.deliver s.curCid s.here.dest (BitVec.ofNat 64 p.1))
  endRows ids

/-- LAUNCH once its loads so far have come: the record, then the header, then the lasts (R194). -/
def launchStep (ins : Instr) (ids : List Nat) : Nat → Do Unit
  | 0 => pure ()
  | fuel + 1 => do
    let s ← get
    match s.rowsBytes ids with
    | none => pure ()
    | some (.error t) => throw (.trap t)
    | some (.ok bs) =>
      let rec_ := bs.take 64
      let hva := BitVec.ofNat 64 (fieldOf rec_ 0 8)
      if ids.length = 4 then
        match launchFault rec_ with
        | some off => trapOf .shape (BitVec.ofNat 64 off)
        | none =>
          if hva.toNat % 256 ≠ 0 then trapOf .align hva
          else
            let ids ← loadMore 0 hva 16 ins ids
            launchStep ins ids fuel
      else
        let hdr := (bs.drop 64).take 256
        let n := fieldOf rec_ 32 1
        if ids.length = 20 then
          if shapeCores (fieldOf rec_ 16 1) (fieldOf rec_ 17 1) (fieldOf rec_ 18 1) ≠ fieldOf hdr 8 2 then trapOf .shape 16
          else
            let _ ← launchRegion (BitVec.ofNat 64 (fieldOf rec_ 8 8))
            let nt := fieldOf rec_ 20 4
            if nt / 2 ^ 31 = 1 ∧ !((s.pitchOf s.here.gid).contains (nt % 2 ^ 11)) then trapOf .shape 20
            else if n = 0 then finishLaunch rec_ hdr [] ids
            else
              let ids ← loadMore 0 (BitVec.ofNat 64 (fieldOf rec_ 24 8)) (4 * n) ins ids
              launchStep ins ids fuel
        else finishLaunch rec_ hdr (bs.drop 320) ids

/-- LAUNCH (R194): the record is a load of the issuing context. -/
def execLaunch (f : XF) (s : State) : Host.Outcome State Fault Refusal :=
  issue (.launch f) (do
    let a ← readS 1 f.a
    if a.toNat % 64 ≠ 0 then trapOf .align a 1
    else
      let d ← destS 4 f.d
      modify fun s => s.modHere fun x => { x with dest := d }
      let ids ← loadMore 1 a 4 (.launch f) []
      launchStep (.launch f) ids 3) s

end Sys2Proof.Machine
end

