-- ==== Sys2Proof/Machine/Turn.lean ====
section
/-!
DEFINITION. One turn of a core up to the issue of its instruction: readiness (R16), the fetch (R59, R307), lending
(R210, R211), and which step comes next (R15, R236).
-/
namespace Sys2Proof.Machine

/-- What the fetch at PC gives (R59). -/
inductive Fetched where
  | ins (i : Instr)
  /-- A fetch fault, with the word 0 that has been fetched, or 0. -/
  | trap (t : TrapInfo) (w0 : BitVec 32)
  /-- A guest goes home first (R217). -/
  | home
  deriving DecidableEq, Repr

/-- The step that comes next. -/
inductive Plan where
  /-- The module is stopped (R285, R293). -/
  | stopped
  /-- Nothing but the state given: an idle turn, a fetch fault, or a cycle in which nothing is due. -/
  | done (s : State)
  /-- A step that no instruction word names. -/
  | event (i : Instr) (s : State)
  /-- An instruction of the current context; the turn of the core then ends. -/
  | issue (cid : Nat) (i : Instr) (s : State)
  deriving DecidableEq, Repr

namespace State

/-! ### Readiness (R16, R21, R192, R210) -/

/-- Results of a slot that are not yet written. -/
def pendingOf (s : State) (cid i : Nat) : Bool := (s.core cid).pend.any fun p => p.slot == i

/-- A context is ready but for its next instruction. -/
def ready (s : State) (cid i : Nat) : Bool :=
  let x := s.slot cid i
  let n := (s.core cid).turn
  x.live && (x.wait == .ready) && (match x.stall with | none => true | some t => decide (t ≤ n))
    && x.yield.isNone && (x.stopped.isNone || x.routine.isSome) && !(x.lent && s.pendingOf cid i)

/-! ### The fetch (R59, R307) -/

/-- The physical address of a code word: the instruction TLB, else the tables; then X, and HBM only (R59, R274).  A page homed on another
module is refused as the tier is (log 61). -/
def fetchPlace (s : State) (cid region va : Nat) : Except Cause Loc :=
  match (tlbLookup (s.core cid).itlb region va).orElse fun _ => s.walk region va (dieOf cid) with
  | none => .error (s.walkCause region va (dieOf cid))
  | some e =>
    let l : Loc := { s.paLoc (e.pa + va % e.size) (dieOf cid) with cls := e.cls }
    if !e.x || l.tier || l.home.isNode then .error .perm else .ok l

/-- One word of code. -/
def fetchWord (s : State) (cid region : Nat) (a : Word) : Except Cause (BitVec 32) × State :=
  match windowOf a with
  | .malformed => (.error .xlate, s)
  | .scratch _ | .peer _ _ => (.error .perm, s)
  | .global va =>
    match s.fetchPlace cid region va with
    | .error c => (.error c, s)
    | .ok l =>
      if s.lastingAt l 4 then (.error .memerr, (s.eccRead l 4 cid).2)
      else
        let s := ((s.eccRead l 4 cid).2).useL2 l
        (.ok (BitVec.ofNat 32 (leNat (s.readLoc l 4))), s)

/-- The index of the word at an address in the loaded code of a core, if it lies there (R307). -/
def codeIndex (s : State) (cid : Nat) (a : Word) : Option Nat :=
  match (s.core cid).code with
  | none => none
  | some c => if c.first ≤ a.toNat ∧ a.toNat < c.first + 4 * c.words.length then some ((a.toNat - c.first) / 4) else none

/-- One word of code for a context: a deterministic group's from its loaded code where it lies there (R307). -/
def codeWord (s : State) (cid region : Nat) (a : Word) (det : Bool) : Except Cause (BitVec 32) × State :=
  match if det then s.codeIndex cid a else none with
  | none => s.fetchWord cid region a
  | some i =>
    match (s.core cid).code.bind fun c => c.words[i]? with
    | some (.word w) => (.ok w, s)
    | some (.fault c) => (.error c, s)
    | none => s.fetchWord cid region a

/-- n further words of code, up to the first that fails. -/
def fetchMore (s : State) (cid region : Nat) (det : Bool) (a : Word) : Nat → Except TrapInfo (List (BitVec 32)) × State
  | 0 => (.ok [], s)
  | n + 1 =>
    match s.codeWord cid region a det with
    | (.error c, s) => (.error { cause := c, tval := a }, s)
    | (.ok w, s) =>
      match s.fetchMore cid region det (a + 4) n with
      | (.ok ws, s) => (.ok (w :: ws), s)
      | (.error t, s) => (.error t, s)

/-- The instruction that words decode to, or the step of a word that is no instruction (R58). -/
def instrOf (w0 : BitVec 32) (ws : List (BitVec 32)) : Instr :=
  match decode (w0 :: ws) with
  | some i => i
  | none => .illegalEncoding w0

/-- The fetch of a context on a core of its pitch. -/
def fetchCode (s : State) (cid region : Nat) (det : Bool) (pc : Word) : Fetched × State :=
  match s.codeWord cid region pc det with
  | (.error c, s) => (.trap { cause := c, tval := pc } 0, s)
  | (.ok w0, s) =>
    match s.fetchMore cid region det (pc + 4) (wordCount w0 - 1) with
    | (.ok ws, s) => (.ins (instrOf w0 ws), s)
    | (.error t, s) => (.trap t w0, s)

/-- The words of a code window from an address, if all are there (R215). -/
def windowWords (w : CodeWindow) (a : Word) : Nat → Option (List (BitVec 32))
  | 0 => some []
  | n + 1 =>
    match (if (a - w.base).toNat < 1024 ∧ a.toNat % 4 = 0 then tfind w.words ((a - w.base).toNat / 4) else none), windowWords w (a + 4) n with
    | some v, some vs => some (v :: vs)
    | _, _ => none

/-- The fetch of a guest: a word outside its window, or absent there, sends it home (R217). -/
def fetchWindow (w : CodeWindow) (pc : Word) : Fetched :=
  match windowWords w pc 1 with
  | some (w0 :: _) =>
    match windowWords w (pc + 4) (wordCount w0 - 1) with
    | some ws => .ins (instrOf w0 ws)
    | none => .home
  | _ => .home

/-- The words of the instruction at PC that have come. -/
def Slot.come (x : Slot) : Nat :=
  match x.fetched with
  | some (a, n) => if a = x.pc then n else 0
  | none => 0

/-- The first word of the instruction at PC that the context of a deterministic group has still to fetch: one that lies outside
the loaded code, up to the first that faults (R307). -/
def missingWord (s : State) (cid : Nat) (x : Slot) : Option Nat :=
  let here := fun k => (s.codeIndex cid (x.pc + BitVec.ofNat 64 (4 * k))).isSome || decide (k < Slot.come x)
  if !here 0 then some 0
  else match (s.codeWord cid x.region x.pc true).1 with
    | .error _ => none
    | .ok w0 =>
      let fails := fun k => match (s.codeWord cid x.region (x.pc + BitVec.ofNat 64 (4 * k)) true).1 with | .error _ => true | .ok _ => false
      match (List.range (wordCount w0)).find? fun k => !here k || fails k with
      | some k => if here k then none else some k
      | none => none

/-- The instruction at PC can be taken in this turn: a guest's from its window, a deterministic group's once every word has come
that lies outside its loaded code, any other once its fetch has completed (R307).  An address in no global window needs no fetch. -/
def fetchReady (s : State) (cid i : Nat) : Bool :=
  let x := s.slot cid i
  x.guest || (match windowOf x.pc with | .global _ => false | _ => true)
    || (if x.mode.det then (s.missingWord cid x).isNone else decide (0 < Slot.come x))

/-- The fetch of the context in a slot. -/
def fetchHere (s : State) (cid i : Nat) : Fetched × State :=
  let x := s.slot cid i
  if x.guest then
    match x.window with
    | some w => (if x.leave then .home else fetchWindow w x.pc, s)
    | none => (.home, s)
  else s.fetchCode cid x.region x.mode.det x.pc

/-- A fetch has ended: its page enters the instruction TLB, and the instruction can be taken, or faults, once all its words have
come (R59, R307). -/
def fetchCame (s : State) (cid i : Nat) : State :=
  let x := s.slot cid i
  let k := if x.mode.det then (s.missingWord cid x).getD 0 else 0
  let va := (x.pc + BitVec.ofNat 64 (4 * k)).toNat
  let s :=
    match tlbLookup (s.core cid).itlb x.region va, s.walk x.region va (dieOf cid) with
    | some e, _ => s.modCore cid fun c => { c with itlb := tlbInsert c.itlb 64 e }
    | none, some e => (s.noteWalk x.region va (dieOf cid) cid).modCore cid fun c => { c with itlb := tlbInsert c.itlb 64 e }
    | none, none => s.noteWalk x.region va (dieOf cid) cid
  s.modSlot cid i fun x => { x with wait := .ready, fetched := some (x.pc, k + 1) }

/-- A fetch begins: of one word in 6,144 turns in a deterministic region; elsewhere no time is promised, and it may take none
(R307). -/
def startFetch (s : State) (cid i : Nat) : State :=
  if !(s.ready cid i) || s.fetchReady cid i then s
  else
    let obj : Obj := { a := cid, b := i, v := BitVec.ofNat 64 (s.slot cid i).serial }
    let waiting := fun (s : State) => s.modSlot cid i fun x => { x with wait := .fetch }
    if (s.slot cid i).mode.det then
      (waiting s).schedule (.turn cid ((s.core cid).turn + 6144)) (rankOf cid) .instructionFetchDone obj
    else
      let d := Config.freeDelay s.free
      let s := { s with free := s.free + 1 }
      if d = 0 then s.fetchCame cid i else (waiting s).schedule (.cycle (s.cycle + d)) (rankOf cid) .instructionFetchDone obj

/-- The fetches that begin at a turn: that of its slot and, where turns may be lent, those of every context of the core. -/
def startFetches (s : State) (cid i : Nat) : State :=
  let s := s.startFetch cid i
  match s.groupOf cid with
  | some g => if g.mode.det || g.mode.task then s else (List.range 16).foldl (fun s j => s.startFetch cid j) s
  | none => s

/-! ### Whose instruction (R210) -/

/-- An instruction whose operands hold its context (R19, R204); one for which a guest goes home is not held. -/
def blocked (s : State) (cid i : Nat) (ins : Instr) : Bool :=
  !((s.slot cid i).guest && atHomeOnly ins) && s.heldFor cid i ins

/-- What the context of a slot would issue in this turn, if it is ready. -/
def offer (s : State) (cid i : Nat) : Option (Fetched × State) :=
  if s.ready cid i && s.fetchReady cid i then
    match s.fetchHere cid i with
    | (.ins ins, s') => if s.blocked cid i ins then none else some (.ins ins, s')
    | r => some r
  else none

/-- The turn of a slot may be lent (R210). -/
def lends (s : State) (cid i : Nat) : Bool :=
  match s.groupOf cid with
  | none => false
  | some g =>
    !g.mode.det && !g.mode.task && !(s.slot cid i).guest

/-- A context may use a lent turn: of the group, no guest, its next instruction bound to no own turn, and no register
result pending (R23, R210). -/
def borrows (s : State) (cid j : Nat) : Bool :=
  let x := s.slot cid j
  !x.guest && x.gid == (s.core cid).gid && !x.own
    && !(s.core cid).pend.any fun p => p.slot == j && match p.dest with | .reg _ _ => true | _ => false

/-- The borrower of a turn among the slots of a list: the first that qualifies. -/
def borrower (s : State) (cid : Nat) : List Nat → Option (Nat × Fetched × State)
  | [] => none
  | j :: js =>
    if s.borrows cid j then
      match s.offer cid j with
      | some (f, s') => some (j, f, s')
      | none => s.borrower cid js
    else s.borrower cid js

/-- The slots after slot i in rotation. -/
def slotsAfter (i : Nat) : List Nat := (List.range 15).map fun k => (i + 1 + k) % 16

/-! ### The turn (R15, R24) -/

/-- The physical address of a line of the L1 (by its address), or of an entry of the core's or die's TLB (by its place in it): kinds
0, 1 and 2 (R280, log 49). -/
def cachedPa (s : State) (cid o : Nat) : Nat :=
  match o % 128 with
  | 0 => o
  | 1 => match (s.core cid).tlb[o / 128]? with | some e => e.pa | none => 0
  | _ => match (s.die (dieOf cid)).tlb[o / 128]? with | some e => e.pa | none => 0

/-- Such a line or entry dropped, to be fetched or walked again. -/
def dropCached (s : State) (cid o : Nat) : State :=
  match o % 128 with
  | 0 => s.l1Drop cid o
  | 1 => s.modCore cid fun c => { c with tlb := c.tlb.eraseIdx (o / 128) }
  | _ => s.modDie (dieOf cid) fun d => { d with tlb := d.tlb.eraseIdx (o / 128) }

/-- One error in what a core keeps beside its memories (R280), of a kind of R282: an uncorrectable one drops a line of the L1 or an
entry of a TLB; a lasting one in an entry of its queues and tables kills the group. -/
def entryError (cid kind : Nat) (s : State) (k : Nat × Nat) : State :=
  if k.1 = 3 then
    let s' := s.logError k (s.cachedPa cid (k.2 % 2 ^ 52)) cid (Nat.min kind 2)
    if kind = 1 then s' else s'.dropCached cid (k.2 % 2 ^ 52)
  else
    let s := s.logError k 0 cid kind
    if kind = 3 then s.killGroup cid (s.core cid).gid Cause.memerr.code 0 else s

/-- The errors of these storages that a core meets. -/
def entryErrors (s : State) (cid : Nat) : State :=
  if s.errorFree then s
  else
    let mine := fun (k : Nat × Nat) => (k.1 == 3 && k.2 / 2 ^ 52 == cid) || (k.1 == 5 && k.2 / 2 ^ 19 == cid)
    let rest := fun (l : List (Nat × Nat)) => l.filter fun k => !mine k
    let t := { s with lasting := rest s.lasting, transient := rest s.transient, correctable := rest s.correctable }
    let t := (s.correctable.filter mine).foldl (entryError cid 1) t
    let t := (s.transient.filter mine).foldl (entryError cid 2) t
    (s.lasting.filter mine).foldl (entryError cid 3) t

/-- The end of a turn: the next one starts a cycle later, and later still after a stretch. -/
def endTurn (s : State) (cid : Nat) : State :=
  (s.modCore cid fun c => { c with turn := c.turn + 1, nextCycle := c.nextCycle + 1 + c.stretch, stretch := 0 }).entryErrors cid

/-- An idle turn; a wake of the same cycle may still use it (R246). -/
def idleTurn (s : State) (cid : Nat) : State := (s.modCore cid fun c => { c with idleAt := some s.cycle }).endTurn cid

/-- The slot that issues in this turn. -/
def seat (s : State) (cid i : Nat) (lender : Option Nat) : State := { s with curCid := cid, curSlot := i, lender := lender }

/-- What a fetched context does in its turn. -/
def planOf (s : State) (cid i : Nat) : Fetched → Plan
  | .ins ins => .issue cid ins s
  | .trap t w0 => .done ((s.countIssue.takeTrap cid i t w0 (s.slot cid i).pc).endTurn cid)
  | .home =>
    .done (((s.modSlot cid i fun x => { x with wait := .goHome none }).schedule (.cycle s.cycle) (rankOf cid) .guestReturn
      { a := cid, b := i }).endTurn cid)

/-- A turn lent (R211). -/
def countLent (s : State) (cid i j : Nat) : State :=
  s.modCore cid fun c =>
    { c with lentOut := tset c.lentOut i (tget c.lentOut i 0 + 1), lentIn := tset c.lentIn j (tget c.lentIn j 0 + 1) }

/-- The turn of a core. -/
def planTurn (s : State) (cid : Nat) : Plan :=
  let i := (s.core cid).turn % 16
  let s := s.startFetches cid i
  match s.offer cid i with
  | some (f, s) => (s.seat cid i none).planOf cid i f
  | none =>
    if s.lends cid i then
      match s.borrower cid (slotsAfter i) with
      | some (j, f, s) => ((s.countLent cid i j).seat cid j (some i)).planOf cid j f
      | none => .done (s.idleTurn cid)
    else .done (s.idleTurn cid)

/-- A step of the agenda. -/
def planEvent (s : State) (e : Event) (cycle : Nat) : Plan :=
  .event e.ins { ((s.dropEvent e).advanceTo cycle) with obj := e.obj }

/-- The next step: the earliest entry of the agenda or turn of a core; with neither, a cycle passes. -/
def plan (s : State) : Plan :=
  if s.stopped then
    match s.agenda.find? fun e => e.ins == .moduleReset with
    | some e => s.planEvent e (max s.cycle (s.dueCycle e.due))
    | none => .stopped
  else
    match s.firstEvent s.agenda, firstTurn s.cores with
    | none, none => .done (s.advanceTo (s.cycle + 1))
    | some (e, k), none => s.planEvent e k.1
    | none, some (cid, k) => (s.advanceTo k.1).planTurn cid
    | some (e, k), some (cid, k') => if keyLt k' k then (s.advanceTo k'.1).planTurn cid else s.planEvent e k.1

end State
end Sys2Proof.Machine
end

