-- ==== Sys2Proof/Machine/Resole.lean ====
section
/-!
DEFINITION. The start of a group on a core (R12, R13, R230, R231, R307), and RESOLE (R197 to R201, R261).
-/
namespace Sys2Proof.Machine

namespace State

/-! ### What a core holds at a group's start (R13, R77, R223, R231) -/

/-- Bytes put into a scratchpad, but those that a test keeps. -/
def fillScratch (s : State) (cid off : Nat) (keep : Nat → Bool) (bs : List Byte) : State :=
  s.modCore cid fun c =>
    { c with sp := c.sp.writeMasked off (bs.zipIdx.map fun p => (p.1, !keep (off + p.2))) }

/-- The last area of a group: its header's lasts, the first of them replaced by those of its launch (R194, R230). -/
def lastsOf (s : State) (g : Group) : List Byte :=
  let own := s.regionBytes g.region g.header.lasts (64 * g.header.nlast)
  g.lasts ++ own.drop g.lasts.length

/-- The data image and the lasts of a group copied to a core of its pitch (R12, R230). -/
def copyImage (s : State) (g : Group) (keep : Nat → Bool) (cid : Nat) : State :=
  let s := s.fillScratch cid 0x5000 keep (s.regionBytes g.region g.header.data g.header.datalen)
  s.fillScratch cid 0x4000 keep (s.lastsOf g)

/-- The code that a front end loads for a deterministic group: first address and words (R307). -/
def codeRange (h : Header) : Nat × Nat :=
  let lo := h.entry.toNat
  let n := h.data.toNat - lo
  (lo, ((if n = 0 then 2 ^ 18 else Nat.min n (2 ^ 18)) + 3) / 4)

/-- That code, translated and read now by a core of the pitch; the load never traps (R307). -/
def loadCode (s : State) (g : Group) : Option LoadedCode × State :=
  if !g.mode.det then (none, s)
  else
    let r := codeRange g.header
    let p := (List.range r.2).foldl (fun (acc : List CodeWord × State) k =>
      match acc.2.fetchWord (g.pitch.headD 0) g.region (BitVec.ofNat 64 (r.1 + 4 * k)) with
      | (.ok w, s) => (.word w :: acc.1, s)
      | (.error c, s) => (.fault c :: acc.1, s)) ([], s)
    (some { first := r.1, words := p.1.reverse }, p.2)

/-- What is due at a turn of a core is due in the cycle where that turn would fall, since the core counts its turns anew
(R15, R249). -/
def rebaseTurns (s : State) (cids : List Nat) : State :=
  let re : Due → Due := fun d => match d with
    | .turn c n => if cids.contains c then .cycle (Nat.max s.cycle (s.dueCycle (.turn c n))) else d
    | d => d
  { s with
    agenda := s.agenda.map fun e => { e with due := re e.due }
    net := s.net.map fun m => { m with ret := m.ret.map re } }

/-- Turns counted from 0 on a core from a cycle on, with context 0 of a group alone live at an address; the registers of
core and slot scope as at a group's start (R13, R15, R77).  What a guest's instructions have under way goes on. -/
def startCore (g : Group) (code : Option LoadedCode) (first : Nat → Nat) (s : State) (cid : Nat) : State :=
  let f := s.fresh
  let old := s.core cid
  let anew := fun n => old.nextCycle + (n - old.turn) - first cid
  let pend := (old.pend.filter fun p => (s.slot cid p.slot).guest).map fun p => { p with due := anew p.due }
  let s := pend.foldl (fun s p => s.schedule (.turn cid p.due) (rankOf cid) .fixedLatencyWrite { a := cid }) f.2
  let zero : Slot :=
    { live := true, serial := f.1, home := cid, idx := 0, gid := g.gid, region := g.region, mode := g.mode, pc := g.header.entry }
  s.modCore cid fun c =>
    { c with
      on := true, gid := g.gid, rank := g.pitch.idxOf cid, turn := 0, nextCycle := first cid, stretch := 0
      slots := tset ((c.slots.filter fun q => q.2.guest).map fun q => (q.1, { q.2 with stall := q.2.stall.map anew })) 0 zero, wrote := []
      vlim := 0x7F800000, bankstall := 0, issued := 0, lentIn := [], lentOut := [], cload := none, sampled := 0
      pend := pend, phase := [], idleAt := none
      code := code }

/-- The first refresh of CLOAD of a core (R212); in a deterministic region there is none. -/
def firstRefresh (g : Group) (s : State) (cid : Nat) : State :=
  if g.mode.det then s else s.schedule (.turn cid 0) (rankOf cid) .cloadRefresh { a := cid, c := g.gid }

end State

/-! ### The inheritance record (R197) -/

/-- What a RESOLE keeps. -/
structure Keep where
  ctx : Nat
  acc : Nat
  mb : Nat
  hs : Nat
  ranges : List (Nat × Nat)
  deriving DecidableEq, Repr

def parseKeep (bs : List Byte) : Keep :=
  let g := fieldOf bs
  { ctx := g 0 2, acc := g 2 2, mb := g 8 8, hs := g 16 8
    ranges := (List.range 4).map fun i => (g (24 + 8 * i) 4, g (28 + 8 * i) 4) }

/-- A bit of a map. -/
def bitOf (m i : Nat) : Bool := m / 2 ^ i % 2 == 1

/-- The record is valid, and its ranges lie where they may. -/
def keepValid (k : Keep) (bs : List Byte) : Bool :=
  fieldOf bs 4 4 == 0 && fieldOf bs 56 8 == 0
    && k.ranges.all fun r => if r.2 = 0 then r.1 == 0
        else r.1 % 16 == 0 && r.2 % 16 == 0 && decide (0x5000 ≤ r.1) && decide (r.1 + r.2 ≤ 0x60000)

/-- A byte of the kept ranges, and one of a scratchpad that is kept: a kept workspace with its slot's tail too (R223). -/
def inRanges (k : Keep) (o : Nat) : Bool := k.ranges.any fun r => decide (r.1 ≤ o) && decide (o < r.1 + r.2)
def kept (k : Keep) (o : Nat) : Bool := inRanges k o || (decide (o < 0x4000) && bitOf k.ctx (o / 1024))

namespace State

/-! ### The checks of a core (R198) -/

/-- The lowest feature that a header asks for and a core lacks. -/
def missingFeature (need have_ : Word) : Option Nat := (List.range 64).find? fun i => need.getLsbD i && !have_.getLsbD i

/-- The first row of the table of R198 that does not hold. -/
def resoleFault (s : State) (g : Group) (h : Header) (hdr rec_ : List Byte) : Option Nat :=
  let k := parseKeep rec_
  let cid := s.curCid
  let rows : List (Nat × Bool) :=
    [ (10, headerWithin h hdr), (1, h.cores == g.pitch.length), (2, decide (k.ctx < 2 ^ h.contexts)), (3, decide (h.scratch ≤ 372736))
    , (4, keepValid k rec_ && (List.range 16).all fun i => !bitOf k.acc i || (accOf g.pitch i).isSome)
    , (5, (List.range 64).all fun n =>
        let x := s.handle cid n
        !bitOf k.hs n || x.state == .free || (List.range (x.len / 16)).all fun u => inRanges k (x.base + 16 * u))
    , (6, (List.range 15).all fun i => !s.contextLive cid (i + 1))
    , (7, detMet h s.here.mode.det), (9, g.exited.isEmpty) ]
  (rows.find? fun r => !r.2).map (·.1)

/-! ### Matching and the waits (R198, R199) -/

/-- Every control context of a pitch has brought its RESOLE: they match, or all of them trap. -/
def matchResoles (s : State) (gid : Nat) : State :=
  match s.group? gid with
  | none => s
  | some g =>
    if g.heirs.length ≠ g.pitch.length then s
    else
      match g.heirs with
      | [] => s
      | h :: hs =>
        if hs.all fun x => x.hdr == h.hdr && x.rec_ == h.rec_ then
          (s.modGroup gid fun g => { g with state := .handOff }).schedule (.cycle s.cycle) (rankOf 4096) .resoleScrub { a := gid }
        else s.trapResoles g 8

/-- A transfer that a hand-off and a save wait for: one whose source is not read, a decoder's batch (R199, R257). -/
def transferBusy (s : State) (t : Transfer) : Bool :=
  let _ := s
  t.accepted && match t.kind with
    | .send _ | .gather _ => !t.readDone
    | .rscat r => !t.inputReady r
    | .vdec _ => true
    | .chunk _ => false

/-- What a hand-off waits for has ended (R199). -/
def handOffReady (s : State) (g : Group) : Bool :=
  !s.unitsBusy g && !s.transfers.any fun t => t.gid == g.gid && s.transferBusy t

end State

/-- The rest of RESOLE once both loads have come. -/
def resoleStep (f : XF) (ids : List Nat) : Do Unit := do
  let s ← get
  match s.rowsBytes ids with
  | none => pure ()
  | some (.error t) => throw (.trap t)
  | some (.ok bs) =>
    let va := match ids.head?.bind s.msg? with | some m => m.va | none => 0
    let hdr := bs.take 256
    let rec_ := bs.drop 256
    let h := parseHeader va hdr
    match State.missingFeature h.features s.hereCore.feat with
    | some i => trapOf .feature (BitVec.ofNat 64 i)
    | none =>
      match s.group? s.here.gid with
      | none => pure ()
      | some g =>
        match s.resoleFault g h hdr rec_ with
        | some n => trapOf .shape (BitVec.ofNat 64 n)
        | none => do
          endRows ids
          wait .resole (.resole f)
          let heir : Heir := { cid := s.curCid, slot := s.curSlot, header := h, hdr := va, rec_ := rec_ }
          modify fun s => (s.modGroup g.gid fun g => { g with heirs := g.heirs ++ [heir] }).matchResoles g.gid

/-- RESOLE (R198): both addresses first, then the loads of the header and of the record. -/
def execResole (f : XF) (s : State) : Host.Outcome State Fault Refusal :=
  issueChecked (.resole f) (controlOnly (.resole f)) (do
    let a ← readS 1 f.a
    let b ← readS 2 f.b
    if a.toNat % 256 ≠ 0 then trapOf .align a
    else if b.toNat % 64 ≠ 0 then trapOf .align b
    else
      let ids ← loadMore 1 a 16 (.resole f) []
      let ids ← loadMore 2 b 4 (.resole f) ids
      resoleStep f ids) s

namespace State

/-! ### The scrub (R200) -/

/-- The scratchpad of a core scrubbed: GCTL set in the workspaces that are not kept, TSTATUS cleared in the others.  The
watches of its words read them again. -/
def scrubScratch (s : State) (k : Keep) (cid : Nat) : State :=
  let s := s.modCore cid fun c => { c with sp := c.sp.filter fun b => kept k b.1 }
  let s := (List.range 16).foldl (fun s i =>
    s.modCore cid fun c =>
      { c with sp := if bitOf k.ctx i then c.sp.write (0x400 * i + wsTstatus) [0, 0] else c.sp.write (0x400 * i + wsGctl) [0x14] }) s
  let bad := fun (e : Nat × Nat) => !(e.1 == 2 && e.2 / 2 ^ 19 == cid && !kept k (e.2 % 2 ^ 19))
  let s := { s with lasting := s.lasting.filter bad, transient := s.transient.filter bad, correctable := s.correctable.filter bad }
  (s.net.filter fun m => m.kind == .watch && m.watching && m.loc.home == .scratch cid).foldl rereadWatch s

/-- Channels and stream ports unbound. -/
def unbindAll (s : State) (cid : Nat) : State :=
  let s := (s.core cid).chans.foldl (fun s p => if p.2.bound.isSome then s.unbind cid p.1 else s) s
  let s := { s with net := s.net.map fun (m : Msg) => if m.cid == cid then { m with port := none } else m }
  s.modCore cid fun c => { c with streams := [] }

/-- Tags and handles that are not kept. -/
def scrubObjects (s : State) (k : Keep) (cid : Nat) : State :=
  let s := (s.core cid).hs.foldl (fun s p => if bitOf k.hs p.1 then s else s.resetHandle cid p.1) s
  s.modCore cid fun c => { c with mbs := c.mbs.filter fun p => bitOf k.mb p.1 }

/-- An accumulator at its start value, and an engine: every word is written, which ends its errors (R124, R280). -/
def resetAcc (s : State) (cl a : Nat) : State :=
  (s.modCluster cl fun c => { c with accs := tdel c.accs a }).engineMend (accPlace cl a 0) 8192
def resetEngine (s : State) (cl n : Nat) : State :=
  ((s.modCluster cl fun c => { c with engines := tdel c.engines n }).engineMend (planePlace cl n 0 0 0) 8192).engineMend (codePlace cl n 0) 256

/-- A group of a pitch owns an engine: a single core's without feature bit 3 leaves it to the pair core's (R125). -/
def ownsEngine (pitch : List Nat) (features : Word) : Bool := decide (2 ≤ pitch.length) || features.getLsbD 3

/-- The engine state of the share of a pitch as at a group's start, but for kept accumulators (R124, R125). -/
def scrubShare (s : State) (pitch : List Nat) (features : Word) (keepAcc : Nat → Bool) : State :=
  (clustersOf pitch).foldl (fun s cl =>
    let s := (List.range 16).foldl (fun s i =>
      match accOf pitch i with
      | some a => if keepAcc i then s else s.resetAcc cl a
      | none => s) s
    if !ownsEngine pitch features then s
    else
      (List.range 2).foldl (fun s e =>
        match engineOf pitch e with
        | some n => s.resetEngine cl n
        | none => s) s) s

/-- No range-lock entry of a group remains (R200): those of its messages whose last packet is still under way. -/
def dropLocks (s : State) (gid : Nat) : State :=
  (s.transfers.filter fun t => t.gid == gid).foldl (fun s t => (s.unlock 0 t.id).unlock 1 t.id) s

/-- The stores that a core's contexts have in flight belong to the successor's context 0 from now on (R199). -/
def adoptStores (s : State) (cid : Nat) : State :=
  let x := s.slot cid 0
  let mine := fun (m : Msg) => (m.kind == .store || m.kind == .gmsend) && m.cid == cid && !(s.slot m.cid m.slot).guest
  { s with net := s.net.map fun m => if mine m then { m with slot := 0, serial := x.serial } else m }

/-- The scrub of one core: the state that is not kept, and the error bits, which the failures of stores still in flight set
anew for context 0 (R99, R199, R231). -/
def scrubCore (k : Keep) (gid : Nat) (s : State) (cid : Nat) : State :=
  let s := (((s.unbindAll cid).scrubObjects k cid).scrubScratch k cid).adoptStores cid
  let x := s.slot cid 0
  let waiting : Slot :=
    { live := true, serial := x.serial, home := cid, gid := gid, region := x.region, mode := x.mode, wait := .away }
  s.modCore cid fun c =>
    { c with gid := gid, slots := tset (c.slots.filter fun q => q.2.guest) 0 waiting
             pend := c.pend.filter fun p => (tget c.slots p.slot {}).guest, phase := [] }

/-- The successor of a group (R200, R261): its identifier is new, its header its own; region, pitch, launch time and
notification stay. -/
def successor (g : Group) (gid : Nat) (h : Header) : Group :=
  { g with gid := gid, header := h, state := .scrubbing, exited := [], heirs := [], rdv := [], lasts := [] }

/-- A group's identifier replaced wherever the machine still names it. -/
def renameGroup (s : State) (old new : Nat) : State :=
  { s with
    transfers := s.transfers.map fun t => if t.gid == old then { t with gid := new } else t
    agenda := s.agenda.map fun e =>
      if (e.ins == .preemptTimeout || e.ins == .saveRoutineStart) && e.obj.a == old then { e with obj := { e.obj with a := new } } else e
    groups := s.groups.map fun p => (p.1, { p.2 with notify := p.2.notify.map fun n => if n.1 == old then (new, n.2) else n }) }

/-- RESOLE_SCRUB (R199, R200): when what the hand-off waits for has ended. -/
def scrubPitch (s : State) : State :=
  match s.group? s.obj.a with
  | none => s
  | some g =>
    if g.state != .handOff || !s.handOffReady g then s
    else
      match g.heirs with
      | [] => s
      | h :: _ =>
        let k := parseKeep h.rec_
        let p := s.newGid (s.groups.length + 2)
        let new := successor g p.1 h.header
        let s := { p.2 with groups := tset (tdel p.2.groups g.gid) p.1 { new with heirs := [h] } }
        let s := ((s.dropLocks g.gid).renameGroup g.gid p.1).retryPosted
        let s := g.pitch.foldl (scrubCore k p.1) s
        (s.scrubShare g.pitch (g.header.features ||| h.header.features) (bitOf k.acc)).schedule (.cycle (s.cycle + 8192)) 0 .resoleSuccessorStart { a := p.1 }

/-- RESOLE_SUCCESSOR_START (R200): on each core the first turn of context 0 from this cycle on is the successor's turn 0.
Guests in slots that the successor needs go home (R216). -/
def startSuccessor (s : State) : State :=
  match s.group? s.obj.a with
  | none => s
  | some g =>
    match g.state, g.heirs with
    | .scrubbing, h :: _ =>
      let k := parseKeep h.rec_
      let mode := { g.mode with task := g.header.cls == 1 }
      let first := fun cid => let c := s.core cid; c.nextCycle + (16 - c.turn % 16) % 16
      let perr := fun cid => (s.slot cid 0).perr
      let serial := fun cid => (s.slot cid 0).serial
      let g := { g with state := if g.preempt then .stopping else .running, mode := mode, heirs := [] }
      let s := s.rebaseTurns g.pitch
      let s := g.pitch.foldl (copyImage · g (inRanges k) ·) s
      let s := { s with groups := tset s.groups g.gid g }
      let code := s.loadCode g
      let s := g.pitch.foldl (startCore g code.1 first) code.2
      let s := g.pitch.foldl (fun s c => s.modSlot c 0 fun x => { x with perr := perr c, serial := serial c }) s
      let s := g.pitch.foldl (fun s c => s.modCore c fun x =>
        { x with slots := x.slots.map fun q => if q.2.guest && decide (q.1 < g.header.contexts) then (q.1, { q.2 with leave := true }) else q }) s
      (g.pitch.map dieOf).eraseDups.foldl kickGuests (g.pitch.foldl (firstRefresh g) s)
    | _, _ => s

end State

/-- RESOLE_SCRUB (R200). -/
def execResoleScrub (s : State) : Host.Outcome State Fault Refusal := stepTo State.scrubPitch s
/-- RESOLE_SUCCESSOR_START (R200). -/
def execResoleSuccessorStart (s : State) : Host.Outcome State Fault Refusal := stepTo State.startSuccessor s

end Sys2Proof.Machine
end

