-- ==== Sys2Proof/Machine/Migrate.lean ====
section
/-!
DEFINITION. CLOAD (R212) and the migration of helpers to another core of the pitch (R193, R213, R214).
-/
namespace Sys2Proof.Machine

/-! ### MIGRATE (R193) -/

/-- The fields of CLOAD (R212). -/
def cloadTarget (v : Word) : Nat := v.toNat / 2 ^ 26 % 2 ^ 11
def cloadEpoch (v : Word) : Nat := v.toNat / 2 ^ 48

/-- The core that MIGRATE names. -/
def migrateTarget (a : Word) : Do Nat := do
  let s ← get
  if a.toNat / 2 ^ 63 = 1 then pure (match s.hereCore.cload with | some v => cloadTarget v | none => s.curCid)
  else if a.toNat / 2 ^ 11 ≠ 0 then trapOf .shape a
  else pure (a.toNat % 2 ^ 11)

/-- A context begins to wait for its move (R193). -/
def State.startMove (s : State) (cid i : Nat) (d : Dest) (target : Nat) (hardware : Bool) : State :=
  (s.modSlot cid i fun x => { x with wait := .migrate d target hardware }).schedule (.cycle s.cycle) (rankOf cid) .migrationSend
    { a := cid, b := i, c := target }

/-- MIGRATE (R193): in context 0, a deterministic group or a lane-parallel kernel it only writes 0. -/
def execMigrate (f : XF) (s : State) : Host.Outcome State Fault Refusal :=
  issue (.migrate f) (do
    let a ← readS 1 f.a
    let s ← get
    if s.here.idx = 0 || s.here.mode.det || !s.here.mode.task then writeS 4 f.d 2 0
    else
      let t ← migrateTarget a
      if !((s.pitchOf s.here.gid).contains t) then trapOf .shape a
      else
        let d ← destS 4 f.d
        wait (.migrate d t false) (.migrate f)
        modify fun s => s.startMove s.curCid s.curSlot d t false) s

namespace State

/-! ### The move (R193, R214) -/

/-- A slot of a core is free for a migrant. -/
def slotFree (s : State) (cid i : Nat) : Bool :=
  !(s.slot cid i).live && !(s.slot cid i).reserved && !s.moves.any fun m => m.target == cid && m.toSlot == some i

/-- The lowest slot of a core that is free for a migrant. -/
def freeSlot (s : State) (cid : Nat) : Option Nat := (rangeFrom 1 (s.contexts cid - 1)).find? fun i => s.slotFree cid i

/-- A move forgotten. -/
def dropMove (s : State) (id : Nat) : State := { s with moves := s.moves.filter fun (m : Move) => m.id != id }

/-- A move that does not take place: MIGRATE writes 0, and the context goes on where it is. -/
def refuseMove (s : State) (cid i : Nat) (d : Dest) (hardware : Bool) : State :=
  if hardware then s.modSlot cid i fun x => { x with wait := .ready } else (s.deliver cid d 0).wake cid i

/-- The reservation request leaves once the context is quiet. -/
def requestMove (s : State) (cid i : Nat) (d : Dest) (target : Nat) (hardware : Bool) : State :=
  if !s.quiet cid i then s
  else if target = cid then s.refuseMove cid i d hardware
  else
    let x := s.slot cid i
    let p := s.post { id := 0, kind := .reserve d hardware, cid := cid, slot := i, serial := x.serial, region := x.region, va := 0
                      loc := { home := .scratch target, addr := 0 }, size := 0, ins := .migrationReservation }
    p.2.modSlot cid i fun x => { x with wait := .reserve p.1 }

/-- The context packed and sent: 1 is written first, and its slot is free unless it is its home. -/
def sendMigrant (s : State) (m : Move) : State :=
  let cid := m.from_
  let i := m.slot
  let s := s.deliver cid m.dest 1
  let x := s.slot cid i
  let m := { m with ctx := x, bytes := (s.core cid).sp.bytes (0x400 * i) 640 }
  let s := { s with moves := s.moves.map fun (y : Move) => if y.id == m.id then m else y }
  let s := if x.home = cid ∧ x.idx = i then
      s.setSlot cid i 
        { reserved := true, serial := x.serial, home := cid, idx := i, gid := x.gid, region := x.region, mode := x.mode, wait := .away }
    else s.clearSlot cid i
  (s.testControl cid).unclocked (rankOf cid) .migrationLanding { a := m.id }

/-- MIGRATION_SEND: the request leaves, or with its answer the context does. -/
def stepMove (s : State) : State :=
  let cid := s.obj.a
  let i := s.obj.b
  let x := s.slot cid i
  match x.wait with
  | .migrate d t hw => if x.live && !s.obj.ok then s.requestMove cid i d t hw else s
  | .reserve id =>
    if !x.live || !s.obj.ok || s.obj.v ≠ BitVec.ofNat 64 id then s
    else
      match s.moves.find? fun m => m.id == id with
      | none => s
      | some (m : Move) =>
        if m.toSlot.isSome then s.sendMigrant m
        else (s.dropMove id).refuseMove cid i m.dest m.hardware
  | _ => s

/-- MIGRATION_RESERVATION (R214): the slot is chosen in one step, and the answer goes back. -/
def reserveSlot (s : State) : State :=
  match s.msg? s.obj.a with
  | none => s
  | some m =>
    let s := s.dropMsg m.id
    match m.kind, m.loc.home, s.ownerOf m.cid m.slot m.serial with
    | .reserve d hw, .scratch target, some _ =>
      let x := s.slot m.cid m.slot
      let slot := if (s.core target).gid = x.gid then s.freeSlot target else none
      let mv : Move :=
        { id := m.id, from_ := m.cid, slot := m.slot, target := target, toSlot := slot, hardware := hw, dest := d, ctx := x, bytes := [] }
      let s := { s with moves := s.moves ++ [mv] }
      s.unclocked (rankOf m.cid) .migrationSend { a := m.cid, b := m.slot, c := target, v := BitVec.ofNat 64 m.id, ok := true }
    | _, _, _ => s

/-- A context as it stands after a move: ready at the first turn of its slot. -/
def arrived (x : Slot) : Slot :=
  { x with
    live := true, wait := .ready, stall := none, yield := none, lent := false, own := true, ins := none, undo := [], walked := none
    trans := [], late := [], fetched := none }

/-- MIGRATION_LANDING (R193, R214, R243). -/
def landMigrant (s : State) : State :=
  match s.moves.find? fun m => m.id == s.obj.a with
  | none => s
  | some m =>
    let s := s.dropMove m.id
    match m.toSlot with
    | none => s
    | some i =>
      let s := s.storeScratch m.target (0x400 * i) (allOn m.bytes)
      (s.setSlot m.target i (arrived m.ctx)).l1Clear m.target

/-! ### CLOAD (R212, R213) -/

/-- The load of a core: the slots whose occupant is ready or held. -/
def loadOf (s : State) (cid : Nat) : Nat :=
  ((s.core cid).slots.filter fun q => q.2.live && (q.2.wait == Wait.ready || q.2.wait == Wait.fetch)).length

/-- One hop between the clusters of two cores of a die, or none. -/
def nearby (a b : Nat) : Bool :=
  dieOf a == dieOf b && ((rowOf a == rowOf b && decide (colOf a ≤ colOf b + 1) && decide (colOf b ≤ colOf a + 1))
    || (colOf a == colOf b && decide (rowOf a ≤ rowOf b + 1) && decide (rowOf b ≤ rowOf a + 1)))

/-- The idlest of some cores by the loads that they have sampled, ties to the lower CID. -/
def idlest (s : State) : List Nat → Option Nat
  | [] => none
  | c :: cs =>
    match s.idlest cs with
    | some d => if (s.core d).sampled < (s.core c).sampled then some d else some c
    | none => some c

/-- The candidate that CLOAD names. -/
def loadTarget (s : State) (cid : Nat) (pitch : List Nat) : Option Nat :=
  s.idlest (pitch.filter fun c => c != cid && nearby cid c && (s.freeSlot c).isSome)

/-- The helper that the hardware moves: in the highest slot, ready, and quiet. -/
def movable (s : State) (cid : Nat) : Option Nat :=
  ((rangeFrom 1 15).reverse).find? fun i =>
    let x := s.slot cid i
    x.live && !x.guest && x.idx != 0 && s.quiet cid i && (s.offer cid i).isSome

/-- CLOAD_REFRESH (R212, R213). -/
def refreshLoad (s : State) : State :=
  let cid := s.obj.a
  match s.groupOf cid with
  | none => s
  | some g =>
    if g.gid ≠ s.obj.c ∨ g.mode.det then s
    else
      let own := s.loadOf cid
      let target := s.loadTarget cid g.pitch
      let tload := match target with | some t => (s.core t).sampled | none => own
      let epoch := match (s.core cid).cload with | some v => cloadEpoch v | none => 0
      let v := BitVec.ofNat 64 ((epoch + 1) % 2 ^ 16 * 2 ^ 48 + (target.getD cid) * 2 ^ 26 + tload * 2 ^ 16 + own)
      let s := s.modCore cid fun c => { c with cload := some v, sampled := own }
      let s := s.schedule (s.atTurn cid 1024) (rankOf cid) .cloadRefresh s.obj
      match target with
      | some t =>
        if g.mode.task && decide (tload + 2 ≤ own) then
          match s.movable cid with
          | some i => s.startMove cid i .none t true
          | none => s
        else s
      | none => s

end State

/-- MIGRATION_SEND (R193). -/
def execMigrationSend (s : State) : Host.Outcome State Fault Refusal := stepTo State.stepMove s
/-- MIGRATION_RESERVATION (R214). -/
def execMigrationReservation (s : State) : Host.Outcome State Fault Refusal := stepTo State.reserveSlot s
/-- MIGRATION_LANDING (R214). -/
def execMigrationLanding (s : State) : Host.Outcome State Fault Refusal := stepTo State.landMigrant s
/-- CLOAD_REFRESH (R212). -/
def execCloadRefresh (s : State) : Host.Outcome State Fault Refusal := stepTo State.refreshLoad s

end Sys2Proof.Machine
end

