-- ==== Sys2Proof/Machine/Schedule.lean ====
section
/-!
DEFINITION. The scheduler: pitches (R208), placement (R253 to R255, R216, R220, R125), the start of a group (R13, R249),
the choice of groups to pre-empt (R255, R256), and the release of a pitch (R191, R231).
-/
namespace Sys2Proof.Machine

/-- The pitches of a shape on a die, in ascending CID of rank 0 (R208, R254). -/
def pitchesOn (shape cols rows die : Nat) : List (List Nat) :=
  let b := 256 * die
  match shape with
  | 0 => (List.range 256).map fun c => [b + c]
  | 1 => (List.range 128).map fun c => [b + 2 * c, b + 2 * c + 1]
  | 2 => (List.range 64).map fun c => rangeFrom (b + 4 * c) 4
  | _ =>
    (List.range (5 - rows)).flatMap fun r => (List.range (17 - cols)).map fun c =>
      (rangeFrom r rows).flatMap fun r' => (rangeFrom c cols).flatMap fun c' => rangeFrom (b + 64 * r' + 4 * c') 4

/-- The dies on which a request may be placed. -/
def diesOf (die : Nat) : List Nat := if die = 255 then List.range 8 else [die]

/-- A group has a pitch. -/
def GState.placed : GState → Bool
  | .queued | .saved | .releasing => false
  | _ => true

namespace State

/-! ### Whether a pitch fits (R254) -/

/-- The cores that the groups of a region and of its descendants hold. -/
def coresHeld (s : State) (rcb : Nat) : Nat :=
  (s.groups.filter fun p => p.2.state.placed && s.isAncestor rcb p.2.region).foldl (fun n p => n + p.2.pitch.length) 0

/-- The budgets of the region of a request and of its ancestors allow its cores: those in force when it was made (R251, R260). -/
def budgetAllows (s : State) (g : Group) : Bool := g.budgets.all fun p => decide (s.coresHeld p.1 + g.header.cores ≤ p.2)

/-- A core is free of groups and scrubbed after its last release. -/
def coreFree (s : State) (cid : Nat) : Bool := (s.core cid).gid == 0 && decide ((s.core cid).scrubUntil ≤ s.cycle)

/-- The cores of the clusters of a pitch. -/
def clusterCores (pitch : List Nat) : List Nat := (clustersOf pitch).flatMap fun k => rangeFrom (4 * k) 4

/-- The group that holds a core, unless it counts as free. -/
def holder (s : State) (avail : Nat → Bool) (cid : Nat) : Option Group := if avail cid then none else s.groupOf cid

/-- The cores of a pitch are free, in service, and have the features that a group needs. -/
def coresFit (s : State) (avail : Nat → Bool) (g : Group) (pitch : List Nat) : Bool :=
  pitch.all fun c => avail c && !(s.core c).excluded && (g.header.features &&& ~~~ (s.core c).feat) == 0

/-- A pitch meets every condition but that of the guests. -/
def fits (s : State) (avail : Nat → Bool) (g : Group) (pitch : List Nat) : Bool :=
  s.coresFit avail g pitch
    && (decide (1 < pitch.length) || !g.header.features.getLsbD 3 ||
        match s.holder avail (pitch.headD 0 ^^^ 1) with
        | some h => !h.header.features.getLsbD 3
        | none => true)
    && (clusterCores pitch).all fun c => pitch.contains c ||
        match s.holder avail c with
        | some h => !h.mode.det && !g.mode.det
        | none => true

/-- A guest that bars a group from a pitch (R216, R220). -/
def guestBars (g : Group) (q : Nat × Slot) : Bool := q.2.guest && q.2.live && (g.mode.det || decide (q.1 < g.header.contexts))

/-- The cores whose guests bar a group from a pitch. -/
def barredCores (s : State) (g : Group) (pitch : List Nat) : List Nat :=
  (if g.mode.det then clusterCores pitch else pitch).filter fun c => (s.core c).slots.any (guestBars g)

/-- The first pitch that a test accepts, dies in ascending order. -/
def findPitch (g : Group) (ok : List Nat → Bool) : Option (List Nat) :=
  (diesOf g.die).findSome? fun d => (pitchesOn g.shape g.cols g.rows d).find? ok

/-! ### The start of a group (R12, R13, R231, R249, R255) -/

/-- A core as at a group's start, but for its turns: its TLB emptied, its objects in their start values (R231, R270). -/
def cleanCore (s : State) (cid : Nat) : State :=
  s.modCore cid fun c =>
    { c with
      sp := (List.range 16).foldl (fun m i => m.put (0x400 * i + wsGctl) 0x14) []
      mbs := [], hs := [], norms := [], chans := c.chans.map (fun q => (q.1, { binds := q.2.binds })), streams := [], tlb := [] }

/-- The cycle in which turn 0 falls on every core of a pitch. -/
def firstCycle (s : State) (pitch : List Nat) : Nat :=
  pitch.foldl (fun n c => if (s.core c).on then Nat.max n (s.core c).nextCycle else n) (s.cycle + 1)

/-- A pitch made ready for a group: its engines' share, its cores, and turn 0 in the same cycle everywhere. -/
def takePitch (s : State) (g : Group) : State :=
  let start := s.firstCycle g.pitch
  let s := s.rebaseTurns g.pitch
  let s := { s with groups := tset s.groups g.gid g, queue := s.queue.filter fun x => x != g.gid }
  let s := s.scrubShare g.pitch g.header.features fun _ => false
  let s := g.pitch.foldl cleanCore s
  let code := s.loadCode g
  g.pitch.foldl (startCore g code.1 fun _ => start) code.2

/-- A new group starts on a pitch. -/
def startFresh (s : State) (g : Group) : State :=
  let g := { g with state := .running }
  let s := s.takePitch g
  let s := g.pitch.foldl (copyImage · g (fun _ => false) ·) s
  g.pitch.foldl (firstRefresh g) s

/-! ### Resuming (R258) -/

/-- The address of a routine of the safe-point table (R252): 0 where it does nothing. -/
def routineAt (s : State) (g : Group) (n : Nat) (restore : Bool) : Word :=
  BitVec.ofNat 64 (leNat (s.regionBytes g.region (g.header.safetab + BitVec.ofNat 64 (16 * n + if restore then 8 else 0)) 8))

/-- The save area of a slot of the core of a rank (R256). -/
def saveArea (g : Group) (rank i : Nat) : Word :=
  (g.frame.getD 0) + BitVec.ofNat 64 (4096 + 4096 * g.header.cores + (16 * rank + i) * g.header.savesz)

/-- A context enters a routine, with w26 at its save area (R257, R258). -/
def enterRoutine (s : State) (g : Group) (cid i : Nat) (kind : Routine) (addr : Word) : State :=
  if addr = 0 then s
  else
    let s := s.setWord64 cid i (8 * 26) (saveArea g (g.pitch.idxOf cid) i)
    s.modSlot cid i fun x =>
      { x with resume := x.pc, pc := addr, routine := some kind, wait := .ready, own := true, stall := none, yield := none
               lent := false, fetched := none }

/-- A saved context put back in its slot of the core of its rank, with its restore routine. -/
def putBack (g : Group) (before : List Nat) (cid : Nat) (s : State) (q : Nat × Slot) : State :=
  let home := g.pitch.getD (before.idxOf q.2.home) cid
  let s := s.setSlot cid q.1 { q.2 with home := home }
  match q.2.stopped with
  | some (some n) => s.enterRoutine g cid q.1 .restore (s.routineAt g n true)
  | _ => s

/-- A pre-empted group starts again on a pitch of the same shape: no image and no lasts; what names its cores by CID
names the new ones (R258). -/
def startSaved (s : State) (g : Group) (before : List Nat) : State :=
  let move := fun c => g.pitch.getD (before.idxOf c) c
  let g := { g with state := .restoring, exited := g.exited.map move }
  let s := s.takePitch g
  let s := { s with
    transfers := s.transfers.map fun t => if t.gid == g.gid then { t with cid := move t.cid } else t
    groups := s.groups.map fun p => (p.1, { p.2 with notify := p.2.notify.map fun n => if n.1 == g.gid then (n.1, move n.2.1, n.2.2) else n }) }
  let slots := match g.saved with | some sv => sv.slots | none => []
  let s := g.pitch.foldl (fun s c =>
    (tget slots (g.pitch.idxOf c) []).foldl (putBack g before c)
      (s.modCore c fun x => { x with slots := x.slots.filter fun q => q.2.guest })) s
  (g.pitch.foldl (firstRefresh g) s).unclocked 0 .restoreHwWriteback { a := g.gid }

/-- A request placed. -/
def startOn (s : State) (g : Group) (pitch : List Nat) : State :=
  let h := { g with pitch := pitch }
  if g.state = .saved then s.startSaved h g.pitch else s.startFresh h

/-! ### Making room (R255, R256) -/

/-- The frames of a region's groups that are in use. -/
def framesUsed (s : State) (region : Nat) (except : Nat) : List Word :=
  (s.groups.filter fun p => p.2.region == region && p.1 != except).filterMap fun p => p.2.frame

/-- A group is pre-emptible, n more groups of its region being pre-empted too (R256). -/
def preemptible (s : State) (g : Group) (n : Nat) : Bool :=
  decide (1 ≤ g.header.nsafe) && decide ((s.framesUsed g.region g.gid).length + n < s.effBivn g.region)
    && decide (4096 + g.header.cores * (4096 + 16 * g.header.savesz) ≤ s.effFramesz g.region)

/-- The lowest frame of a region that is not in use. -/
def freeFrame (s : State) (g : Group) : Option Word :=
  ((List.range (s.effBivn g.region)).map fun k => BitVec.ofNat 64 (s.effBivouac g.region + k * s.effFramesz g.region)).find?
    fun a => !(s.framesUsed g.region g.gid).contains a

/-- The slots in which contexts of a group run: core and slot. -/
def liveSlots (s : State) (gid : Nat) : List (Nat × Nat) :=
  s.cores.flatMap fun p => (p.2.slots.filter fun q => q.2.live && !q.2.guest && q.2.gid == gid).map fun q => (p.1, q.1)

/-- REAP and RDVWAIT stop where they park (R206). -/
def freezeParked (s : State) (gid : Nat) : State :=
  (s.liveSlots gid).foldl (fun s p =>
    if (s.slot p.1 p.2).routine.isSome then s
    else match (s.slot p.1 p.2).wait with
      | .reap _ | .rendezvous _ _ => s.freeze p.1 p.2
      | _ => s) s

/-- A group made pending for pre-emption (R257). -/
def makePending (s : State) (gid : Nat) : State :=
  match s.group? gid with
  | none => s
  | some g =>
    let due := s.gtc.toNat + s.effPto g.region
    let g := { g with preempt := true, deadline := due, frame := g.frame.orElse fun _ => s.freeFrame g
                      state := if g.state = .running then .stopping else g.state }
    let s := { s with groups := tset s.groups gid g }
    let s := (s.freezeParked gid).schedule (.gtc due) 0 .preemptTimeout { a := gid, c := due }
    s.unclocked 0 .saveRoutineStart { a := gid }

/-- Groups that may be pre-empted for a request, those of the lowest priority first, then those of the latest launch. -/
def victimBefore (s : State) (a b : Group) : Bool :=
  decide (s.effPrio a.region < s.effPrio b.region) || (s.effPrio a.region == s.effPrio b.region && decide (b.launchGtc < a.launchGtc))

def insertVictim (s : State) (g : Group) : List Group → List Group
  | [] => [g]
  | h :: t => if s.victimBefore g h then g :: h :: t else h :: s.insertVictim g t

/-- A placed group that neither ends nor is being pre-empted. -/
def mayStop (g : Group) : Bool := g.state.placed && g.state != .ending && !g.preempt

def victims (s : State) (g : Group) : List Group :=
  (s.groups.filter fun p => mayStop p.2 && decide (s.effPrio p.2.region < g.prio)).foldl
    (fun l p => s.insertVictim p.2 l) []

/-- Cores on their way to be free: of a group that ends or is being pre-empted, or in their release scrub. -/
def coming (s : State) (cid : Nat) : Bool :=
  match s.groupOf cid with
  | some g => g.preempt || g.state == .ending
  | none => (s.core cid).gid == 0

/-- The groups chosen one by one until the request fits. -/
def chooseVictims (s : State) (g : Group) (chosen : List Group) : List Group → List Group
  | [] => []
  | v :: vs =>
    let n := (chosen.filter fun c => c.region == v.region).length
    if !s.preemptible v n then s.chooseVictims g chosen vs
    else
      let chosen := chosen ++ [v]
      let avail := fun c => s.coming c || chosen.any fun h => h.pitch.contains c
      if (findPitch g (s.fits avail g)).isSome then chosen else s.chooseVictims g chosen vs

/-- A request that lacks free cores, and only that, pre-empts (R255): where a pitch of cores is free, or will be, what bars the request
there is another group's engine or cluster (R125, R220) or a guest. -/
def makeRoom (s : State) (g : Group) : State :=
  if (findPitch g (s.coresFit s.coming g)).isSome then s
  else (s.chooseVictims g [] (s.victims g)).foldl (fun s v => s.makePending v.gid) s

/-! ### Placement (R253, R254) -/

/-- The guests that bar a group from a pitch go home before their next instruction (R216). -/
def sendGuestsHome (s : State) (g : Group) (pitch : List Nat) : State :=
  (s.barredCores g pitch).foldl (fun s c => s.modCore c fun x =>
    { x with slots := x.slots.map fun q => if guestBars g q then (q.1, { q.2 with leave := true }) else q }) s

/-- A waiting request placed, if it fits somewhere. -/
def placeOne (s : State) (gid : Nat) : State :=
  match s.group? gid with
  | none => s
  | some g =>
    if (g.state != .queued && g.state != .saved) || !s.budgetAllows g then s
    else
      let ok := s.fits s.coreFree g
      match findPitch g fun p => ok p && (s.barredCores g p).isEmpty with
      | some p => s.startOn g p
      | none =>
        match findPitch g ok with
        | some p => s.sendGuestsHome g p
        | none => s.makeRoom g

/-- The order of the queue (R253), of the priorities that the requests were made with (R260). -/
def requestBefore (a b : Group) : Bool :=
  decide (b.prio < a.prio)
    || (a.prio == b.prio && (decide (a.launchGtc < b.launchGtc) || (a.launchGtc == b.launchGtc && decide (a.source < b.source))))

def insertRequest (g : Group) : List Group → List Group
  | [] => [g]
  | h :: t => if requestBefore g h then g :: h :: t else h :: insertRequest g t

/-- PLACEMENT (R254): the requests in the order of the queue, each placed if it fits. -/
def placeAll (s : State) : State :=
  let order := (s.queue.filterMap s.group?).foldl (fun l g => insertRequest g l) []
  order.foldl (fun s g => s.placeOne g.gid) s

/-! ### Release (R191, R231) -/

/-- A core of a released pitch: its channels and ports unbound, its objects gone, its scratchpad scrubbed; guests stay. -/
def releaseCore (s : State) (cid : Nat) : State :=
  let s := s.unbindAll cid
  let s := s.scrubScratch { ctx := 0, acc := 0, mb := 0, hs := 0, ranges := [] } cid
  s.modCore cid fun c =>
    let guests := c.slots.filter fun q => q.2.guest
    { c with
      on := !guests.isEmpty, gid := 0, scrubUntil := s.cycle + 8192, sp := [], slots := guests, mbs := [], hs := [], norms := []
      streams := [], pend := c.pend.filter fun p => (tget guests p.slot {}).guest, phase := [], cload := none, code := none }

/-- The pitch of a group released: its cores can take the guests that wait (R216), and the next group when the scrub has ended. -/
def releasePitch (s : State) (g : Group) : State :=
  let s := (g.pitch.map dieOf).eraseDups.foldl kickGuests (g.pitch.foldl releaseCore s)
  s.schedule (.cycle (s.cycle + 8192)) 0 .releaseScrubDone { a := g.gid }

/-- PITCH_RELEASE (R191): once nothing of the ended group is busy. -/
def release (s : State) : State :=
  match s.group? s.obj.a with
  | none => s
  | some g =>
    if g.state != .ending || s.unitsBusy g then s
    else ((s.releasePitch g).modGroup g.gid fun g => { g with state := .releasing, rdv := [] }).unclocked 0 .placement

/-- RELEASE_SCRUB_DONE (R231): an ended group is forgotten, and what waits for the cores is tried again. -/
def scrubbed (s : State) : State :=
  let s := match s.group? s.obj.a with
    | some g => if g.state = GState.releasing then { s with groups := tdel s.groups g.gid } else s
    | none => s
  s.placeAll

end State

/-- PLACEMENT (R254). -/
def execPlacement (s : State) : Host.Outcome State Fault Refusal := stepTo State.placeAll s
/-- PITCH_RELEASE (R191). -/
def execPitchRelease (s : State) : Host.Outcome State Fault Refusal := stepTo State.release s
/-- RELEASE_SCRUB_DONE (R231). -/
def execReleaseScrubDone (s : State) : Host.Outcome State Fault Refusal := stepTo State.scrubbed s

end Sys2Proof.Machine
end

