-- ==== Sys2Proof/Machine/Preempt.lean ====
section
/-!
DEFINITION. Pre-emption (R206, R234, R256 to R258): stopping and draining, the save routines, the hardware part, and its
write-back.
-/
namespace Sys2Proof.Machine

/-- The constructor of a step that looks again at a group a while later. -/
def State.lookAgain (s : State) (step : Instr) (gid : Nat) : State := s.unclocked 0 step { a := gid }

namespace State

/-! ### Stopping and draining (R257, steps 1 to 3) -/

/-- The units work for a group no more, but for messages that wait at their gates without a token. -/
def unitsDrained (s : State) (g : Group) : Bool :=
  !s.unitsBusy g && (s.transfers.filter fun t => t.gid == g.gid && t.accepted).all fun t =>
    match t.kind with
    | .send _ => t.readDone || (t.waits && !t.holds)
    | _ => false

/-- A context has no store and no result under way. -/
def atRest (s : State) (p : Nat × Nat) : Bool := s.ustore (s.slot p.1 p.2).serial == 0 && !s.pendingOf p.1 p.2

/-- No context of a group is on another module or moving; a migrant that has landed runs where it is (R257). -/
def allHome (s : State) (gid : Nat) : Bool :=
  !(s.moves.any fun m => m.ctx.gid == gid) && s.cores.all fun p => p.2.slots.all fun q => !(q.2.gid == gid && s.awayFrom q.2)

/-- The contexts of a group that are on other modules are called home (R217), again once the calls before have been answered. -/
def callHome (s : State) (gid : Nat) : State :=
  s.recallGuests false fun c x => x.gid == gid && !s.fabric.any fun p =>
    p.kind == .recall false && !p.came && p.cid == c && p.slot == x.idx

/-- Every context of a group has stopped, and its units have drained. -/
def hasStopped (s : State) (g : Group) : Bool :=
  s.allHome g.gid && (s.liveSlots g.gid).all (fun p =>
      let x := s.slot p.1 p.2
      (x.stopped.isSome || x.wait == Wait.resole) && s.atRest p)
    && s.unitsDrained g

/-! ### The save routines (R257, step 4) -/

/-- The safe point whose routines a context runs: its own, or on a core where none stopped at one, the first, in context 0. -/
def safePointOf (s : State) (cid i : Nat) : Option Nat :=
  match (s.slot cid i).stopped with
  | some (some n) => some n
  | _ =>
    let none_ := (s.core cid).slots.all fun q => q.2.guest || match q.2.stopped with | some (some _) => false | _ => true
    if i = 0 && none_ then some 0 else none

/-- A context runs its save routine. -/
def startSave (g : Group) (s : State) (p : Nat × Nat × Option Nat) : State :=
  match p.2.2 with
  | some n =>
    (s.modSlot p.1 p.2.1 fun x => { x with stopped := some (some n) }).enterRoutine g p.1 p.2.1 .save (s.routineAt g n false)
  | none => s

/-- The save routines start; a RESOLE that is not matched stops where it is parked. -/
def beginSave (s : State) (g : Group) : State :=
  let ps := s.liveSlots g.gid
  let s := ps.foldl (fun s p => if (s.slot p.1 p.2).wait = Wait.resole then s.freeze p.1 p.2 else s) s
  let s := s.modGroup g.gid fun g => { g with state := .saving, heirs := [] }
  (ps.map fun p => (p.1, p.2, s.safePointOf p.1 p.2)).foldl (startSave g) s

/-- The routines of a group have ended, and nothing that they began is under way. -/
def routinesEnded (s : State) (g : Group) : Bool :=
  (s.liveSlots g.gid).all (fun p => (s.slot p.1 p.2).routine.isNone && s.atRest p) && s.unitsDrained g

/-- SAVE_ROUTINE_START (R257): the group is looked at until its save routines have started and ended. -/
def pollSave (s : State) : State :=
  match s.group? s.obj.a with
  | none => s
  | some g =>
    match g.state with
    | .stopping => (if s.hasStopped g then s.beginSave g else s.callHome g.gid).lookAgain .saveRoutineStart g.gid
    | .saving =>
      if s.routinesEnded g then s.schedule (.cycle s.cycle) 0 .preemptHwSave { a := g.gid } else s.lookAgain .saveRoutineStart g.gid
    | .handOff | .scrubbing => if g.preempt then s.lookAgain .saveRoutineStart g.gid else s
    | _ => s

/-! ### The hardware part (R234, R257, steps 5 and 6) -/

/-- Versions and status of the accumulators of a share, by cluster of the pitch and index (R144). -/
def savedAccs (s : State) (pitch : List Nat) : Tab (Tab (BitVec 16 × Word)) :=
  (clustersOf pitch).zipIdx.map fun k =>
    (k.2, (List.range 16).filterMap fun i =>
      (accOf pitch i).map fun a => (i, ((s.acc k.1 a).version, (s.acc k.1 a).status)))

/-- What the scheduler keeps of a group. -/
def savedOf (s : State) (g : Group) : Saved :=
  let byRank := fun {α : Type} (f : Nat → α) => g.pitch.zipIdx.map fun c => (c.2, f c.1)
  { accs := s.savedAccs g.pitch, rdv := g.rdv
    slots := byRank fun c => ((s.core c).slots.filter fun q => (q.2.live || q.2.reserved) && !q.2.guest).map fun q => (q.1, { q.2 with perr := 0 })
    mbs := byRank fun c => (s.core c).mbs
    hs := byRank fun c => (s.core c).hs.map fun h => (h.1, { h.2 with latch := none }) }

/-- The place of 32 bytes of a frame, or the fault of the scheduler's access (R82, R256). -/
def framePlace (s : State) (region va : Nat) (write : Bool) : Except TrapInfo Loc :=
  let bad := fun (c : Cause) => Except.error ({ cause := c, tval := BitVec.ofNat 64 va } : TrapInfo)
  match windowOf (BitVec.ofNat 64 va) with
  | .global a =>
    match s.walk region a with
    | none => bad (s.walkCause region a 0)
    | some e =>
      let l := s.paLoc (e.pa + a % e.size)
      if (write && !e.w) || l.tier || l.home.isNode then bad .perm else .ok { l with cls := e.cls }
  | _ => bad .xlate

/-- The hardware part of a frame written, up to the first access that fails. -/
def writeFrame (s : State) (region : Nat) (va : Word) (bs : List Byte) : Except TrapInfo State :=
  (List.range (bs.length / 32)).foldlM (fun s k => do
    let l ← s.framePlace region (va.toNat + 32 * k) true
    pure (s.storeChecked l (allOn ((bs.drop (32 * k)).take 32)) deviceSource)) s

/-- n bytes of the hardware part of a frame read back. -/
def readFrame (s : State) (region : Nat) (va : Word) (n : Nat) : Except TrapInfo (List Byte × State) :=
  (List.range (n / 32)).foldlM (fun (acc : List Byte × State) k => do
    let l ← acc.2.framePlace region (va.toNat + 32 * k) false
    let e := acc.2.eccRead l 32 deviceSource
    if e.1 then .error { cause := .memerr, tval := va + BitVec.ofNat 64 (32 * k) }
    else pure (acc.1 ++ e.2.readLoc l 32, e.2.useL2 l)) ([], s)

/-- The size of the hardware part of a group's frame (R256). -/
def frameSize (g : Group) : Nat := 4096 + 4096 * g.header.cores

/-- The waiting requests of a group taken out of their gates, with the locks of their sources (R171). -/
def saveRequests (s : State) (gid : Nat) : State :=
  (s.transfers.filter fun t => t.gid == gid && t.waits).foldl (fun s t => (s.leaveGate t).unlock 0 t.id) s

/-- PREEMPT_HW_SAVE (R257): the hardware part written, in a layout of the scheduler's own (R256), the pitch released, the group back in
the queue with what its region's control block gives now (R260, R262). -/
def saveHardware (s : State) : State :=
  match s.group? s.obj.a with
  | none => s
  | some g =>
    if g.state != .saving || !s.routinesEnded g then s
    else
      let bs := (List.range (frameSize g)).map fun i => Config.freeByte (s.free + i)
      match { s with free := s.free + frameSize g }.writeFrame g.region (g.frame.getD 0) bs with
      | .error t => s.faultDomain deviceSource g.gid t.cause.code t.tval
      | .ok s =>
        let sv := { s.savedOf g with bytes := bs }
        let s := (s.saveRequests g.gid).retryPosted
        let s := s.releasePitch g
        let s := s.modGroup g.gid fun g =>
          { g with state := .saved, saved := some sv, preempt := false, rdv := [], prio := s.effPrio g.region, budgets := s.budgetsOf g.region }
        { s with queue := s.queue ++ [g.gid] }.unclocked 0 .placement

/-- PREEMPT_TIMEOUT (R257): the deadline has passed before the hardware part was begun. -/
def preemptExpires (s : State) : State :=
  match s.group? s.obj.a with
  | none => s
  | some g => if g.preempt && g.deadline == s.obj.c then s.faultDomain deviceSource g.gid Cause.preemptTimeout.code 0 else s

/-! ### The write-back (R144, R160, R171, R206, R258) -/

/-- The entries of the norm tables of handles, each stale (R160). -/
def staleNorms (hs : Tab Handle) : Tab NormEntry :=
  hs.foldl (fun t h =>
    match h.2.norm with
    | some n => (rangeFrom n.first n.count).foldl (fun t k => tset t k { used := true, norm := 0, stale := true }) t
    | none => t) []

/-- A number of the hardware part, if it lies within its range (R256). -/
def below (n limit : Nat) : Option Nat := if n < limit then some n else none

/-- A handle record as the hardware part holds it now: its fields within the limits of HCLAIM, NORMREF and R165; which claim it is stays. -/
def rereadHandle (f : Nat → Nat) (h : Handle) : Option Handle := do
  let state ← [HState.free, .filling, .full, .draining][f 0]?
  let base ← below (f 1) 0x60001
  let len ← below (f 2) (0x60001 - base)
  let mb ← below (f 3) 64
  let chan ← below (f 4) 5
  let landed ← below (f 5) (2 ^ 24)
  let oor ← below (f 6) 256
  let swz ← if f 7 = 0xFF then some 0xFF else below (f 7) 5
  let first ← below (f 8) 8192
  let count ← below (f 9) (8193 - first)
  pure { h with
    state := state, base := base, len := len, mb := mb, chan := if chan = 4 then none else some chan, landed := landed, oor := oor, swz := swz
    norm := if count = 0 then none else some { desc := BitVec.ofNat 64 (f 10), first := first, count := count }
    chlost := (f 11).testBit 0, err := (f 11).testBit 1, refused := (f 11).testBit 2, abandoned := (f 11).testBit 3
    dependent := (f 11).testBit 4, corrupt := (f 11).testBit 5 }

/-- What the scheduler keeps of a group, as the hardware part of its frame holds it now (R256, R258): none where a field is out of range.
Which contexts are live, and where each stopped, is not read again (log 64). -/
def rereadSaved (bs : List Byte) (g : Group) (sv : Saved) : Option Saved := do
  let f := Config.frameField bs
  let ranks := List.range g.pitch.length
  let rdv ← (List.range 24).mapM fun p => do
    let expect ← below (f [1, p, 1]) 65536
    let arrived ← below (f [1, p, 2]) 65536
    pure (p, ({ phase := BitVec.ofNat 16 (f [1, p, 0]), expect := expect, arrived := arrived } : Rdv))
  let mbs ← ranks.mapM fun r => do
    let ts ← (List.range 64).mapM fun n => do
      let count ← below (f [2, r, n, 0]) (2 ^ 32)
      let abandon ← below (f [2, r, n, 1]) (2 ^ 16)
      pure (n, ({ count := count, abandon := abandon } : Mailbox))
    pure (r, ts)
  let hs ← ranks.mapM fun r => do
    let ts ← (List.range 64).mapM fun n => do
      let h ← rereadHandle (fun k => f [3, r, n, k]) (tget (tget sv.hs r []) n {})
      pure (n, h)
    pure (r, ts)
  let slots ← sv.slots.mapM fun p => do
    let qs ← p.2.mapM fun q => do
      let pc := f [4, p.1, q.1, 24]
      if pc % 4 ≠ 0 then none
      else pure (q.1, { q.2 with pc := BitVec.ofNat 64 pc, phases := (List.range 24).map fun k => (k, BitVec.ofNat 16 (f [4, p.1, q.1, k])) })
    pure (p.1, qs)
  pure { sv with
    accs := (clustersOf g.pitch).zipIdx.map fun k =>
      (k.2, (List.range 16).map fun i => (i, (BitVec.ofNat 16 (f [0, k.2, i, 0]), BitVec.ofNat 64 (f [0, k.2, i, 1]))))
    rdv := rdv, mbs := mbs, hs := hs, slots := slots }

/-- The objects of a core written back, with the resume points and target phases of its contexts (R257, R258). -/
def writeBackCore (g : Group) (sv : Saved) (s : State) (cid : Nat) : State :=
  let r := g.pitch.idxOf cid
  s.modCore cid fun c =>
    { c with
      mbs := tget sv.mbs r [], hs := tget sv.hs r [], norms := staleNorms (tget sv.hs r [])
      phase := sv.rdv.map fun p => (p.1, p.2.phase)
      slots := c.slots.map fun q =>
        let x := tget (tget sv.slots r []) q.1 q.2
        if q.2.live && !q.2.guest then
          (q.1, { q.2 with stopped := none, wait := .ready, own := true, fetched := none, pc := x.pc, phases := x.phases })
        else q }

/-- The versions and status words written back. -/
def writeBackAccs (s : State) (pitch : List Nat) (sv : Saved) : State :=
  (clustersOf pitch).zipIdx.foldl (fun s k =>
    (tget sv.accs k.2 []).foldl (fun s p =>
      match accOf pitch p.1 with
      | some a => s.setAccumulator k.1 a { s.acc k.1 a with version := p.2.1, status := p.2.2 }
      | none => s) s) s

/-- The requests of a group placed at their gates again, behind those that came meanwhile, once their sources are locked anew (R171). -/
def replaceRequests (s : State) (gid : Nat) : State :=
  let s := { s with transfers := s.transfers.map fun (t : Transfer) => if t.gid == gid && t.waits then { t with relock := true } else t }
  s.retryPosted

/-- The notifications that came during the pause (R262). -/
def tellNow (g : Group) (s : State) (n : Nat × Nat × Bool) : State :=
  let cid := g.pitch.getD n.1 0
  if n.2.2 then s.mbAbandon cid n.2.1 else s.mbCount cid n.2.1

/-- A resumed group goes on with what the scheduler kept of it. -/
def resumeWith (s : State) (g : Group) (sv : Saved) : State :=
  let s := g.pitch.foldl (writeBackCore g sv) s
  let s := sv.told.foldl (tellNow g) (s.writeBackAccs g.pitch sv)
  let s := s.modGroup g.gid fun g =>
    { g with state := if g.preempt then .stopping else .running, saved := none, rdv := sv.rdv
             frame := if g.preempt then g.frame else none }
  let s := if g.preempt then (s.freezeParked g.gid).lookAgain .saveRoutineStart g.gid else s
  s.replaceRequests g.gid

/-- RESTORE_HW_WRITEBACK (R258): once every restore routine has ended and what they began is done.  The frame is read back: where a
field is out of range the group is killed, with the cause 0 of a kill that no trap brings about (log 64). -/
def writeBack (s : State) : State :=
  match s.group? s.obj.a with
  | none => s
  | some g =>
    match g.state, g.saved with
    | .restoring, some sv =>
      if !(s.liveSlots g.gid).all (fun p => (s.slot p.1 p.2).routine.isNone && s.atRest p) || s.unitsBusy g then
        s.lookAgain .restoreHwWriteback g.gid
      else
        match s.readFrame g.region (g.frame.getD 0) (frameSize g) with
        | .error t => s.faultDomain deviceSource g.gid t.cause.code t.tval
        | .ok (bs, s) =>
          match if bs = sv.bytes then some sv else rereadSaved bs g sv with
          | none => s.killGroup deviceSource g.gid 0 0
          | some sv => s.resumeWith g sv
    | _, _ => s

end State

/-- SAVE_ROUTINE_START (R257). -/
def execSaveRoutineStart (s : State) : Host.Outcome State Fault Refusal := stepTo State.pollSave s
/-- PREEMPT_HW_SAVE (R257). -/
def execPreemptHwSave (s : State) : Host.Outcome State Fault Refusal := stepTo State.saveHardware s
/-- PREEMPT_TIMEOUT (R257). -/
def execPreemptTimeout (s : State) : Host.Outcome State Fault Refusal := stepTo State.preemptExpires s
/-- RESTORE_HW_WRITEBACK (R258). -/
def execRestoreHwWriteback (s : State) : Host.Outcome State Fault Refusal := stepTo State.writeBack s

end Sys2Proof.Machine
end

