-- ==== Sys2Proof/Machine/Send.lean ====
section
/-!
DEFINITION. SEND (R166, R248, R287).
-/
namespace Sys2Proof.Machine

/-- The source of a SEND (R166 step 2): handle and address. -/
def sendSource (sh : Bool) (b : Word) (len : Nat) : Do (Option Nat × Word) := do
  let s ← get
  if sh then
    let h := s.handle s.curCid b.toNat
    if 64 ≤ b.toNat then trapOf .handle b
    else if h.state != .full || decide (0 < h.pins) then trapOf .handle b
    else if h.len < len then trapOf .shape (BitVec.ofNat 64 len)
    else pure (some b.toNat, BitVec.ofNat 64 h.base)
  else if b.toNat % 16 ≠ 0 then trapOf .align b 2
  else
    match windowOf b with
    | .peer _ _ => trapOf .shape b 2
    | _ => do
      let _ ← checkedRange b len 2 .bulkLoad (len / 65536 + 2)
      pure (none, b)

/-- Where a SEND writes (R166 steps 3 and 4): the receiving core and the offset in its scratchpad or handle, or a global
place. -/
inductive SendTo where
  | core (cid off : Nat)
  | global (va : Nat) (first : Loc)
  deriving DecidableEq, Repr

/-- The core and offset that a scratchpad address names. -/
def coreOffset (x : Slot) (cid : Nat) (a : Word) : Option (Nat × Nat) :=
  match windowOf a with
  | .scratch off => some (cid, off)
  | .peer f off => some (if f = 0xFFF then x.home else f, off)
  | _ => none

/-- A range lock met by the destination in a scratchpad (R82, R86). -/
def lockedDest (cid off n : Nat) (va : Word) : Do Unit := do
  let s ← get
  if s.scratchLocked cid off n true then trapOf .rangeLock va 1 true else pure ()

/-- The core and the handle offset that the destination of a SEND.H names: the offset may be any a[18:0], since a range past the
end of the handle does not trap (R248). -/
def handleAddress (x : Slot) (cid : Nat) (a : Word) : Except Cause (Nat × Nat) :=
  let n := a.toNat
  let off := n % 2 ^ 19
  match windowOf (BitVec.ofNat 64 (n - off)) with
  | .malformed => .error .xlate
  | .global _ => .error .shape
  | .scratch _ => .ok (cid, off)
  | .peer f _ => .ok (if f = 0xFFF then x.home else f, off)

/-- The destination of a SEND.H: the bytes from its handle's base on are checked, whatever the handle's length and state
(R248). -/
def handleDest (a : Word) (x len : Nat) : Do SendTo := do
  let s ← get
  match handleAddress s.here s.curCid a with
  | .error .xlate => trapOf .xlate a 1 true
  | .error c => trapOf c a 1
  | .ok (c, off) => do
    let p := (s.handle c x).base + off
    let va := if c = s.curCid then BitVec.ofNat 64 p else BitVec.ofNat 64 (2 ^ 55 + c * 2 ^ 19 + p)
    lockedDest c p len va
    pure (.core c off)

/-- Any other destination. -/
def plainDest (a : Word) (len : Nat) : Do SendTo := do
  let l ← checkedRange a len 1 .sendDest (len / 65536 + 2)
  let s ← get
  match coreOffset s.here s.curCid a, l with
  | some (c, off), _ => do
    lockedDest c off len a
    pure (.core c off)
  | none, some l => pure (.global a.toNat l)
  | none, none => trapOf .xlate a 1 true

/-- The check of other modules, and of the members of a multicast entry (R166 step 6). -/
def checkNodes (region : Nat) (nodes : List Nat) : Do Unit := do
  let s ← get
  match s.deniedNode region nodes with
  | some n => trapOf .sendDenied (BitVec.ofNat 64 n)
  | none => pure ()

/-- The receiver of a SEND (R166 step 5): node field and core, if a tag is counted. -/
def sendReceiver (tgt : SendTo) (word : Option Word) : Do (Option (Nat × Nat)) := do
  let s ← get
  match tgt, word with
  | .core c _, _ => pure (some (s.node, c))
  | .global _ _, none => pure none
  | .global _ l, some w =>
    let node := w.toNat / 2 ^ 16 % 2 ^ 10
    let far := match l.home with | .node n => n | _ => 0
    if w &&& ~~~ 0x3FF07FF ≠ 0 then trapOf .shape w
    else if 1000 ≤ far ∧ node ≠ far then trapOf .shape w
    else pure (some (node, w.toNat % 2 ^ 11))

/-- SEND (R166): its checks in order, then its acceptance. -/
def execSend (f : XF) (s : State) : Host.Outcome State Fault Refusal :=
  issue (.send f) (do
    let a ← readS 1 f.a
    let b ← readS 2 f.b
    let c ← readS 3 f.c
    let word ← if f.d = 0 then pure none else do
      let w ← readS 4 f.d
      pure (some w)
    let x := XF.object f
    let toH := f.aux8.getLsbD 6
    let sh := f.aux8.getLsbD 7
    let swz := (f.aux32.extractLsb' 16 8).toNat
    let len := c.toNat
    if len % 16 ≠ 0 ∨ len < 16 ∨ 2 ^ 32 - 16 < len then trapOf .shape c
    else
      let src ← sendSource sh b len
      if a.toNat % 16 ≠ 0 then trapOf .align a 1 true
      else
        let tgt ← if toH then handleDest a x len else plainDest a len
        let recv ← sendReceiver tgt word
        let s ← get
        let region := s.here.region
        let far := match tgt with
          | .global _ l => (match l.home with | .node n => some n | _ => none)
          | _ => none
        let members := match far with | some n => s.membersOf n | none => []
        let recvHere := match recv with
          | some (n, _) => n == s.node || (some n == far && members.contains s.node)
          | none => false
        let rc := match recv with | some (_, c) => c | none => 0
        if recvHere && !s.livePitchUp rc region then trapOf .peerGone a 1
        else
          let recvNode := match recv with | some (n, _) => if n = s.node then none else some n | none => none
          checkNodes region (members ++ (match recvNode with | some n => if n ∈ far.toList then [] else [n] | none => []))
          if 4 < swz then trapOf .shape (BitVec.ofNat 64 swz)
          else
            let srcSwz := match src.1 with | some h => (s.handle s.curCid h).swz | none => 0
            if sh && swz != 0 && srcSwz != 0 then trapOf .shape b
            else
              let recvRegion := if recvHere then (s.liveRegion rc).getD region else region
              let gate := match tgt with
                | .core c _ => dieOf c
                | .global _ l => (match l.home with
                  | .slice g => g / 128
                  | _ => (match (s.hbmLoc l.addr).home with | .slice g => g / 128 | _ => 0))
              let r : SendRec :=
                { srcHandle := src.1, src := src.2
                  dst := match tgt with | .core _ off => off | .global va _ => va
                  len := len, scratch := !toH && (match tgt with | .core _ _ => true | _ => false), toHandle := toH, x := x
                  counted := recv.isSome
                  done := if f.aux32.getLsbD 6 then some (f.aux32.extractLsb' 0 6).toNat else none, swz := swz }
              postTransfer
                { id := 0, cid := s.curCid, slot := s.curSlot, serial := s.here.serial, gid := s.here.gid, region := region
                  kind := .send r, far := far, recvNode := recvNode
                  recvHere := match recv with | some (n, _) => n == s.node | none => false
                  receiver := rc, recvRegion := recvRegion, prio := Nat.min (s.effPrio region) (s.effCeil recvRegion), gate := gate
                  prefixed := s.effUnsched recvRegion } (.send f)) s

end Sys2Proof.Machine
end

