-- ==== Sys2Proof/Machine/Guests.lean ====
section
/-!
DEFINITION. Contexts between modules: the move for a remote load (R215), guests (R216, R217) and their way home (R218), and
the packets of the fabric (R84, R276, R286, R289): those that this module has sent, and those that come to it.
-/
namespace Sys2Proof.Machine
namespace State

/-! ### Packing (R215) -/

/-- The code window of a context: the 1,024 bytes around PC, without the words whose fetch would fault. -/
def codeWindow (s : State) (cid : Nat) (x : Slot) : CodeWindow :=
  let base := BitVec.ofNat 64 (x.pc.toNat / 1024 * 1024)
  { base := base
    words := (List.range 256).filterMap fun k =>
      match (s.fetchWord cid x.region (base + BitVec.ofNat 64 (4 * k))).1 with
      | .ok w => some (k, w)
      | .error _ => none }

/-- A context as its packet brings it to another module: its registers as a frame (R216), and a code window read now. -/
def packed (s : State) (cid i : Nat) : Slot :=
  let x := s.slot cid i
  let w := some (s.codeWindow cid x)
  if x.guest then { x with window := w }
  else
    { x with
      guest := true, homeNode := s.node, homeSlot := x.idx, frame := Mem.write [] 0 ((s.core cid).sp.bytes (0x400 * i) 640), window := w
      rank := (s.pitchOf x.gid).idxOf x.home, ncore := (s.pitchOf x.gid).length }

/-- A packet with a context on its way to a node. -/
def sendContext (s : State) (cid i node addr : Nat) (c : Slot) : State :=
  (s.inject { id := 0, node := node, kind := .context c, region := s.regid c.region, addr := addr, cid := cid, slot := i
              det := c.mode.det }).2

/-- A guest's slot is free again: a core without a group takes no more turns, and what waited for the slot is tried. -/
def dropGuest (s : State) (cid i : Nat) : State :=
  let s := s.modCore cid fun c =>
    let rest := tdel c.slots i
    { c with slots := rest, on := c.gid != 0 || rest.any fun q => q.2.guest }
  ((s.testControl cid).kickGuests (dieOf cid)).unclocked 0 .placement

/-- REMOTE_LOAD_MOVE (R215): once the context is quiet.  Its home slot stays reserved; any other slot it leaves is free. -/
def moveAway (s : State) : State :=
  let cid := s.obj.a
  let i := s.obj.b
  let x := s.slot cid i
  match x.wait with
  | .depart node addr =>
    if !x.live || !s.quiet cid i then s
    else
      let c := s.packed cid i
      let s :=
        if x.guest then s.dropGuest cid i
        else if x.home = cid ∧ x.idx = i then s.modSlot cid i fun x => { x with live := false, reserved := true, wait := .away, ins := none }
        else (s.clearSlot cid i).testControl cid
      s.sendContext cid i node addr c
  | _ => s

/-! ### The order of packets that come (R286) -/

/-- A packet taken out of the fabric. -/
def dropPacket (s : State) (id : Nat) : State := { s with fabric := s.fabric.filter fun (p : FabricPacket) => p.id != id }

/-- The step in which a packet that has come is performed. -/
def packetStep (s : State) (p : FabricPacket) : Instr :=
  match p.kind with
  | .context c => if c.homeNode = s.node then .guestHomeLanding else .guestLanding
  | _ => .fabricPacketDelivery

/-- A packet that came before its turn and has been held is performed next. -/
def nextPacket (s : State) (p : FabricPacket) : State :=
  match s.fabric.find? fun q => q.came && q.node == p.node && q.cid == p.cid && q.seq == p.seq + 1 with
  | some q =>
    if s.agenda.any fun e => e.ins == s.packetStep q && e.obj.a == q.id then s
    else s.schedule (.cycle s.cycle) 0 (s.packetStep q) { a := q.id }
  | none => s

/-- What a packet does, in the order of its source: a duplicate is discarded, and one that comes too early is held. -/
def inOrder (s : State) (p : FabricPacket) (act : State → State) : State :=
  let key := p.node * 4096 + p.cid
  let n := tget s.fabIn key 0
  if p.seq < n then s.dropPacket p.id
  else if n < p.seq then s
  else (act { s with fabIn := tset s.fabIn key (n + 1) }).nextPacket p

/-- A packet that has come, by its identifier. -/
def arrival? (s : State) (id : Nat) : Option FabricPacket := s.fabric.find? fun p => p.id == id && p.came

/-! ### Landing on this module (R216) -/

/-- The preferred core for an address of this module. -/
def preferredCore (g : Nat) : Nat := g / 128 * 256 + (if g / 64 % 2 = 0 then 0 else 192) + g % 64 / 4 * 4 + g % 4

/-- The slot in which a core can take a guest. -/
def guestSlot (s : State) (cid : Nat) : Option Nat :=
  if (clusterCores [cid]).any fun c => match s.groupOf c with | some g => g.mode.det | none => false then none
  else
    let lo := s.contexts cid
    (rangeFrom lo (16 - lo)).find? fun i => !(s.slot cid i).guest

/-- The first core of a die, from one on in ascending order and round, that can take a guest. -/
def guestCore (s : State) (start : Nat) : Option (Nat × Nat) :=
  let d := start / 256 * 256
  (List.range 256).findSome? fun k =>
    let c := d + (start - d + k) % 256
    (s.guestSlot c).map fun i => (c, i)

/-- The region of this module with an identifier, by its RCB. -/
def regionById (s : State) (regid : Nat) : Option Nat := (s.regions.find? fun p => p.2.regid == regid).map (·.1)

/-- A guest put into a slot of a core, whose L1 is invalidated (R243). -/
def seatGuest (s : State) (cid i rcb : Nat) (c : Slot) : State :=
  let f := s.fresh
  let x : Slot := { arrived c with guest := true, leave := false, serial := f.1, region := rcb }
  let s := f.2.modCore cid fun k =>
    { k with slots := tset k.slots i x, on := true, nextCycle := if k.on then k.nextCycle else s.cycle + 1 }
  s.l1Clear cid

/-- A context placed on the die of its address, behind those that wait there; on a full die it waits. -/
def placeGuest (s : State) (p : FabricPacket) (c : Slot) (rcb : Nat) : State :=
  let start := match (s.hbmLoc p.addr).home with | .slice g => preferredCore g | _ => 0
  let d := start / 256
  let first := match (s.die d).guests with | id :: _ => id == p.id | [] => true
  match if first then s.guestCore start else none with
  | some (cid, i) =>
    let s := s.modDie d fun x => { x with guests := x.guests.filter fun id => id != p.id }
    ((s.dropPacket p.id).seatGuest cid i rcb c).kickGuests d
  | none => if (s.die d).guests.contains p.id then s else s.modDie d fun x => { x with guests := x.guests ++ [p.id] }

/-- GUEST_LANDING (R216): refused where the region has no presence or the address is no HBM address (R276). -/
def guestLands (s : State) : State :=
  match s.arrival? s.obj.a with
  | none => s
  | some p =>
    match p.kind, s.regionById p.region with
    | .context c, some rcb =>
      if s.dies.any fun d => d.2.guests.contains p.id then s.placeGuest p c rcb
      else s.inOrder p fun s =>
        if hbmTop ≤ p.addr then (s.dropPacket p.id).sendAnswer p.node p.ref false
        else (s.sendAnswer p.node p.ref true).placeGuest p c rcb
    | .context _, none => s.inOrder p fun s => (s.dropPacket p.id).sendAnswer p.node p.ref false
    | _, _ => s

/-! ### The way home (R218) -/

/-- GUEST_RETURN (R218): once the guest is quiet; the packet brings no code window. -/
def guestGoes (s : State) : State :=
  let cid := s.obj.a
  let i := s.obj.b
  let x := s.slot cid i
  match x.wait with
  | .goHome _ =>
    if !x.live || !x.guest || !s.quiet cid i then s
    else (s.sendContext cid i x.homeNode 0 { x with window := none }).dropGuest cid i
  | _ => s

/-- A context back in its home slot: the registers are those that it brings; one that is no longer expected is discarded
(R218, R279). -/
def landHome (s : State) (c : Slot) : State :=
  if !s.awayFrom (s.slot c.home c.homeSlot) then s
  else
    let s := s.storeScratch c.home (0x400 * c.homeSlot) (allOn (c.frame.bytes 0 640))
    s.modSlot c.home c.homeSlot fun x =>
      { arrived x with reserved := false, pc := c.pc, phases := c.phases, perr := c.perr, refusedNode := c.refusedNode }

/-- GUEST_HOME_LANDING (R218): the L1 is invalidated (R85, R243), and a pending trap is taken. -/
def guestIsHome (s : State) : State :=
  match s.arrival? s.obj.a with
  | none => s
  | some p =>
    match p.kind with
    | .context c =>
      if c.homeNode ≠ s.node then s
      else s.inOrder p fun s =>
        let expected := s.awayFrom (s.slot c.home c.homeSlot)
        let s := ((s.dropPacket p.id).sendAnswer p.node p.ref true).landHome c
        if !expected then s
        else
          let s := s.l1Clear c.home
          match c.wait with
          | .goHome (some t) => s.takeTrap c.home c.homeSlot t (word0 (c.ins.getD (.illegalEncoding 0))) c.pc
          | _ => s
    | _ => s

/-! ### Packets that this module has sent (R99, R286) -/

/-- The counts of a message to another module's memory whose counted tag is a core's of this module (R166, R169). -/
def countAway (s : State) (t : Transfer) : State :=
  if t.here || !s.reaches t then s
  else match s.countedTag t with
    | some (c, tag) => (List.range (packetCount t.len)).foldl (fun s _ => s.mbCount c tag) s
    | none => s

/-- A member of a message has answered, or failed (R170, R286, R287): a message to one module ends with its refusal, and the
other members of a multicast go on. -/
def memberDone (s : State) (id node : Nat) (ok : Bool) : State :=
  match s.transfer? id with
  | none => s
  | some t =>
    let t := { t with nodes := t.nodes.filter fun n => n != node }
    let s := s.modTransfer id fun _ => t
    let many := match t.far with | some n => decide (1000 ≤ n) | none => false
    let s := if ok then s else (s.sendError t node).abandonDone t
    if !ok && (!many || (t.nodes.isEmpty && !t.here)) then s.dropMessage t
    else match t.kind with
    | .chunk _ => s.dropTransfer id
    | _ =>
      let s := if t.nodes.isEmpty && !t.here then ((s.unlock 1 id).retryPosted).countAway t else s
      (s.sendPackets id).finishSend id

/-- An access that another module has performed, or refused (R99): an AMO that failed gives 0. -/
def accessDone (s : State) (id node : Nat) (ok : Bool) (v : Word) : State :=
  match s.msg? id with
  | none => s
  | some m =>
    let s := if ok then s else s.setPeerError m.cid m.slot m.serial node (m.kind == .store)
    let r : Resp := match m.kind with
      | .store => if ok then .value 0 else .failed
      | _ => .value (if ok then v.setWidth 128 else 0)
    let s := s.modMsg id fun m => { m with performed := true, resp := some r }
    match m.kind.responseStep with
    | some step => s.schedule (.cycle s.cycle) (rankOf m.cid) step { a := id }
    | none => s.dropMsg id

/-- A node has refused a context: it goes on at home, where its load completes (R215); refused at its home, it is discarded. -/
def contextRefused (s : State) (p : FabricPacket) (c : Slot) : State :=
  let c := { c with refusedNode := some p.node, window := none }
  if c.homeNode = s.node then s.landHome c
  else if p.node = c.homeNode then s
  else s.sendContext p.cid p.slot c.homeNode 0 { c with wait := .goHome none }

/-- The outcome of a packet that this module has sent. -/
def packetDone (s : State) (p : FabricPacket) (ok : Bool) (v : Word) : State :=
  let s := s.dropPacket p.id
  match p.kind with
  | .access id => s.accessDone id p.node ok v
  | .transfer id => s.memberDone id p.node ok
  | .context c => if ok then s else s.contextRefused p c
  | _ => s

/-! ### Packets that come from other modules (R168, R170, R276) -/

/-- A store or an AMO of another module, performed at its home here: refused where its region has no presence, beyond the
HBM, or by a lasting error that an AMO meets (R91, R99, R276). -/
def remoteAccess (s : State) (p : FabricPacket) : State :=
  let refuse := s.sendAnswer p.node p.ref false
  if (s.regionById p.region).isNone ∨ hbmTop ≤ p.addr then refuse
  else
    let l := s.hbmLoc p.addr
    match p.kind with
    | .store bs => (s.storeChecked l bs p.cid).sendAnswer p.node p.ref true
    | .amo op d e =>
      let r := if s.errorFree then (false, s) else s.eccRead l 8 p.cid
      if r.1 then r.2.sendAnswer p.node p.ref false
      else
        let old := BitVec.ofNat 64 (leNat (r.2.readLoc l 8))
        let s := match amoResult op old d e with
          | some v => r.2.storeLoc l (allOn (leBytes 8 v.toNat))
          | none => r.2
        s.sendAnswer p.node p.ref true old
    | _ => s

/-- The gate of a message that comes: of the die of its receiver, or of its first byte (R168). -/
def messageGate (s : State) (t : Transfer) : Nat :=
  match t.kind with
  | .send r =>
    if r.scratch || r.toHandle then dieOf t.receiver
    else match (s.hbmLoc r.dst).home with | .slice g => g / 128 | _ => 0
  | _ => dieOf t.receiver

/-- A message from another module (R168): its lock and its request; refused where its region has no presence, its receiver
holds no pitch that it may reach, or its destination lies beyond the HBM (R170, R276). -/
def messageComes (s : State) (p : FabricPacket) (t : Transfer) : State :=
  let refuse := s.sendAnswer p.node p.ref false
  let scratch := match t.kind with | .send r => r.scratch || r.toHandle | _ => false
  let beyond := match t.kind with | .send r => !scratch && decide (hbmTop < r.dst + r.len) | _ => false
  match s.regionById p.region with
  | none => refuse
  | some rcb =>
    if beyond || (t.recvHere && !s.livePitchUp t.receiver rcb) then refuse
    else
      let f := s.fresh
      let recvRegion := if t.recvHere then (s.liveRegion t.receiver).getD rcb else rcb
      let pre := Nat.min (packetCount t.len) (s.effUnsched recvRegion)
      let u : Transfer :=
        { id := f.1, cid := p.cid, slot := 16, serial := p.ref, gid := 0, region := rcb, kind := t.kind, accepted := true, place := t.place
          sender := some p.node, recvHere := t.recvHere, receiver := t.receiver, recvRegion := recvRegion
          prio := Nat.min t.prio (s.effCeil recvRegion), gate := s.messageGate t, prefixed := pre, locked := !scratch, readDone := true
          tokens := (List.range ((packetCount t.len - pre + 3) / 4)).map fun k => { k := k } }
      let s := { f.2 with transfers := f.2.transfers ++ [u] }
      let s := if scratch then s.schedule (.cycle s.cycle) (takeRank p.cid) .lockMessageArrival { a := u.id, ok := true } else s
      if u.tokens.isEmpty then s else s.schedule (.cycle s.cycle) (rankOf p.cid) .gateRequest { a := u.id }

/-- A packet of a message from another module: its token has been used, and it lands (R168, R169). -/
def dataComes (s : State) (p : FabricPacket) (n : Nat) (bs : List Byte) : State :=
  match s.transfers.find? fun t => t.sender == some p.node && t.cid == p.cid && t.serial == p.ref with
  | none => s
  | some t =>
    if packetCount t.len ≤ n ∨ t.packets.any fun q => q.n == n then s
    else
      let t := if n < t.prefixed then t
        else { t with tokens := t.tokens.map fun k => if k.k == (n - t.prefixed) / 4 then { k with used := true } else k }
      s.packetRead t n bs

/-- The guests of a core and slot of another module go home before their next instruction, or are live no more (R217, R218). -/
def guestsCalled (s : State) (p : FabricPacket) (ended : Bool) : State :=
  s.cores.foldl (fun s c =>
    (c.2.slots.filter fun q => q.2.guest && q.2.homeNode == p.node && q.2.home == p.cid && q.2.homeSlot == p.slot).foldl (fun s q =>
      if ended then (s.clearSlot c.1 q.1).dropGuest c.1 q.1
      else s.modSlot c.1 q.1 fun x => { x with leave := true }) s) s

/-- A packet of another module performed. -/
def packetComes (s : State) (p : FabricPacket) : State :=
  let s := s.dropPacket p.id
  match p.kind with
  | .store _ | .amo _ _ _ => s.remoteAccess p
  | .message t => s.messageComes p t
  | .data n bs => s.dataComes p n bs
  | .recall ended => (s.guestsCalled p ended).sendAnswer p.node p.ref true
  | _ => s

/-- FABRIC_PACKET_DELIVERY (R286): a packet of another module, or the answer to one of this module. -/
def packetDelivered (s : State) : State :=
  match s.fabric.find? fun p => p.id == s.obj.a with
  | none => s
  | some p =>
    if !p.came then s.packetDone p s.obj.ok s.obj.v
    else match p.kind with
    | .answer r ok v =>
      let s := s.dropPacket p.id
      match s.fabric.find? fun q => q.id == r && !q.came && q.node == p.node with
      | some q => s.packetDone q ok v
      | none => s
    | .context _ => s
    | _ => s.inOrder p fun s => s.packetComes p

/-- E2E_TIMEOUT (R286): the packet is sent again on another path, or with its eighth sending it has failed. -/
def packetTimesOut (s : State) : State :=
  match s.fabric.find? fun p => p.id == s.obj.a && !p.came with
  | none => s
  | some p =>
    if 8 ≤ p.sends ∨ s.refusesAll p.node then s.packetDone p false 0
    else
      let s := { s with fabric := s.fabric.map fun (q : FabricPacket) => if q.id == p.id then { q with sends := q.sends + 1 } else q }
      (s.sendFlits p true).schedule (.gtc (s.gtc.toNat + 2 ^ 20)) (rankOf p.cid) .e2eTimeout { a := p.id }

end State

/-- REMOTE_LOAD_MOVE (R215). -/
def execRemoteLoadMove (s : State) : Host.Outcome State Fault Refusal := stepTo State.moveAway s
/-- GUEST_LANDING (R216). -/
def execGuestLanding (s : State) : Host.Outcome State Fault Refusal := stepTo State.guestLands s
/-- GUEST_RETURN (R218). -/
def execGuestReturn (s : State) : Host.Outcome State Fault Refusal := stepTo State.guestGoes s
/-- GUEST_HOME_LANDING (R218). -/
def execGuestHomeLanding (s : State) : Host.Outcome State Fault Refusal := stepTo State.guestIsHome s
/-- FABRIC_PACKET_DELIVERY (R286). -/
def execFabricPacketDelivery (s : State) : Host.Outcome State Fault Refusal := stepTo State.packetDelivered s
/-- E2E_TIMEOUT (R286). -/
def execE2eTimeout (s : State) : Host.Outcome State Fault Refusal := stepTo State.packetTimesOut s

end Sys2Proof.Machine
end

