-- ==== Sys2Proof/Machine/VectorEval.lean ====
section
/-!
DEFINITION. The results of the vector instructions as functions of their inputs (R101, R103 to R114, R121).
-/
namespace Sys2Proof.Machine

/-- A vector result: 16 bytes with their enables, or the four or two registers of a group (R105, R114). -/
structure VOut where
  data : VWord := 0
  mask : BitVec 16 := 0xFFFF
  group : List (VWord × BitVec 16) := []
  deriving DecidableEq, Repr

/-! ### Lanes (R101) -/

/-- Lane j of a value, w bits wide. -/
def lane (w : Nat) (v : VWord) (j : Nat) : Nat := v.toNat / 2 ^ (w * j) % 2 ^ w

/-- The value of a list of lanes, lane 0 first. -/
def packLanes (w : Nat) : List Nat → Nat
  | [] => 0
  | x :: xs => x % 2 ^ w + 2 ^ w * packLanes w xs

/-- A value computed lane by lane. -/
def mapLanes (w : Nat) (f : Nat → Nat) : VWord := BitVec.ofNat 128 (packLanes w ((List.range (128 / w)).map f))

/-- An integer type is signed (R52). -/
def signedType (et : BitVec 4) : Bool := et.toNat % 2 == 1

/-- A lane of w bits as an integer (R27). -/
def asInt (w : Nat) (sgn : Bool) (x : Nat) : Int := if sgn && decide (2 ^ (w - 1) ≤ x) then (x : Int) - (2 ^ w : Nat) else x

/-- The format of a floating-point element type (R52). -/
def fmtOf (et : BitVec 4) : Fmt :=
  match et.toNat with
  | 9 => f32
  | 10 => f16
  | 11 => bf16
  | 12 => e4m3
  | _ => e5m2

/-- A type is a floating-point type. -/
def isFloat (et : BitVec 4) : Bool := decide (9 ≤ et.toNat)

/-- Lanes that are on among the n lowest. -/
def lanesOn (on : BitVec 16) (n : Nat) : Nat := ((List.range n).filter fun j => on.getLsbD j).length

/-- A lane-wise result with the bytes of the lanes that are on. -/
def lanewise (et : BitVec 4) (v : VInputs) (f : Nat → Nat) : VOut :=
  { data := mapLanes (laneBits et) f, mask := laneMask (laneBits et) v.lanes }

/-- An integer lane-wise result (R103). -/
def intLanes (et : BitVec 4) (v : VInputs) (op : Int → Int → Int → Int) : VOut :=
  let w := laneBits et
  let rd := fun x j => asInt w (signedType et) (lane w x j)
  lanewise et v fun j => intBits w (op (rd v.a j) (rd v.b j) (rd v.c j))

/-- A rounded floating-point lane-wise result (R106): the lanes that are on take their draws in ascending order (R37). -/
def floatLanes (et : BitVec 4) (v : VInputs) (op : Fmt → Mode → Nat → Nat → Nat → Nat) : VOut :=
  let w := laneBits et
  lanewise et v fun j => op (fmtOf et) (v.rm (lanesOn v.lanes j)) (lane w v.a j) (lane w v.b j) (lane w v.c j)

/-! ### Integer (R103 to R105) -/

/-- VRSHR of one lane (R104). -/
def roundShift (w n : Nat) (x : Int) : Int := if n = 0 then x else if w < n then 0 else (x + 2 ^ (n - 1)) / 2 ^ n

/-- VSRAI of one lane. -/
def shiftArith (n : Nat) (x : Int) : Int := x / 2 ^ Nat.min n 128

/-- VMACW (R105). -/
def evalVmacw (et : BitVec 4) (v : VInputs) : VOut :=
  let sgn := signedType et
  { group := v.group.zipIdx.map fun g =>
      (mapLanes 32 fun j =>
        let i := 4 * g.2 + j
        let p := if v.lanes.getLsbD i then asInt 8 sgn (lane 8 v.a i) * asInt 8 sgn (lane 8 v.b i) else 0
        intBits 32 ((lane 32 g.1 j : Int) + p), 0xFFFF) }

/-- VDOT4 (R105); c holds the old d. -/
def evalVdot4 (et : BitVec 4) (v : VInputs) : VOut :=
  let sgn := signedType et
  let p := fun i => asInt 8 sgn (lane 8 v.a i) * asInt 8 sgn (lane 8 v.b i)
  { data := mapLanes 32 fun j =>
      intBits 32 ((lane 32 v.c j : Int) + (p (4 * j) + p (4 * j + 1) + p (4 * j + 2) + p (4 * j + 3)))
    mask := laneMask 32 v.lanes }

/-! ### Permutes, reductions, selection, comparison (R108 to R112) -/

/-- One step of a reduction (R109). -/
def reduceStep (et : BitVec 4) (op : Nat) (m : Mode) (r x : Nat) : Nat :=
  let w := laneBits et
  if isFloat et then
    match op with
    | 0 => addF (fmtOf et) m r x
    | 1 => minF (fmtOf et) r x
    | _ => maxF (fmtOf et) r x
  else
    let a := asInt w (signedType et) r
    let b := asInt w (signedType et) x
    match op with
    | 0 => intBits w (a + b)
    | 1 => if b < a then x else r
    | _ => if a < b then x else r

/-- The start value of a reduction with no lane on (R109). -/
def reduceIdentity (et : BitVec 4) (op : Nat) : Nat :=
  let w := laneBits et
  if isFloat et then
    let inf := (fmtOf et).inf.getD 0
    match op with
    | 0 => 0
    | 1 => inf
    | _ => signBits (fmtOf et) true inf
  else
    match op with
    | 0 => 0
    | 1 => intBits w (intMax w (signedType et))
    | _ => intBits w (intMin w (signedType et))

/-- The reduction of a list of lanes after the first, with the number of steps made. -/
def reduceFrom (et : BitVec 4) (op : Nat) (v : VInputs) (r k : Nat) : List Nat → Nat
  | [] => r
  | x :: xs => reduceFrom et op v (reduceStep et op (v.rm k) r x) (k + 1) xs

/-- VRED (R109). -/
def evalVred (f : XF) (v : VInputs) : VOut :=
  let w := laneBits f.et
  let op := f.aux8.toNat
  let xs := ((List.range (128 / w)).filter fun j => v.lanes.getLsbD j).map (lane w v.a)
  let r := match xs with
    | [] => reduceIdentity f.et op
    | x :: xs => reduceFrom f.et op v x 0 xs
  { data := BitVec.ofNat 128 (r % 2 ^ w) }

/-- A comparison of two lanes (R111). -/
def compareLane (et : BitVec 4) (cond : Nat) (a b : Nat) : Bool :=
  let w := laneBits et
  let x := decodeF (fmtOf et) a
  let y := decodeF (fmtOf et) b
  let c : Option Int :=
    if isFloat et then (if x.isNan || y.isNan then none else some (FVal.cmp x y))
    else some (asInt w (signedType et) a - asInt w (signedType et) b)
  match c with
  | none => cond == 1
  | some d =>
    match cond with
    | 0 => d == 0
    | 1 => d != 0
    | 2 => decide (d < 0)
    | 3 => decide (d ≤ 0)
    | 4 => decide (0 < d)
    | _ => decide (0 ≤ d)

/-- VCMP (R111). -/
def evalVcmp (f : XF) (v : VInputs) : VOut :=
  let w := laneBits f.et
  let js := (List.range (128 / w)).filter fun j =>
    v.lanes.getLsbD j && compareLane f.et f.aux8.toNat (lane w v.a j) (lane w v.b j)
  { data := BitVec.ofNat 128 (js.foldl (fun a j => a + 2 ^ j) 0) }

/-! ### Conversions (R113, R114) -/

/-- A lane converted (R38, R39). -/
def convertLane (d s : BitVec 4) (m : Mode) (x : Nat) : Nat :=
  let v := if isFloat s then decodeF (fmtOf s) x else intVal (asInt (laneBits s) (signedType s) x)
  if isFloat d then convertF (fmtOf d) m v
  else intBits (laneBits d) (floatToInt (laneBits d) (signedType d) m v)

/-- The shape of a conversion: source type, part, and lane counts (R113). -/
def convSource (f : XF) : BitVec 4 := f.aux8.setWidth 4
def convPart (f : XF) : Nat := (f.aux8.extractLsb' 4 2).toNat

/-- The first destination lane that a conversion writes and their number (R113). -/
def convLanes (f : XF) : Nat × Nat :=
  let ls := lanes (convSource f)
  let ld := lanes f.et
  if ls < ld then (convPart f * ls, ls) else (0, ld)

/-- VFCVT (R113). -/
def evalVfcvt (f : XF) (v : VInputs) : VOut :=
  let s := convSource f
  let ls := lanes s
  let ld := lanes f.et
  let p := convLanes f
  let src := fun j => if ld < ls then convPart f * ld + j else if ls < ld then j - p.1 else j
  let on : BitVec 16 := BitVec.ofNat 16 (((List.range p.2).filter fun j => v.lanes.getLsbD (p.1 + j)).foldl
    (fun a j => a + 2 ^ (p.1 + j)) 0)
  { data := mapLanes (laneBits f.et) fun j =>
      if p.1 ≤ j ∧ j < p.1 + p.2 then convertLane f.et s (v.rm (lanesOn on j)) (lane (laneBits s) v.a (src j)) else 0
    mask := laneMask (laneBits f.et) on }

/-- VNARROW (R114). -/
def evalVnarrow (f : XF) (v : VInputs) : VOut :=
  let w := laneBits f.et
  lanewise f.et v fun j =>
    let x := asInt 32 (!f.aux8.getLsbD 0) (lane 32 (v.group.getD (j / 4) 0) (j % 4))
    intBits w (sat w (signedType f.et) x)

/-- VWIDEN (R114). -/
def evalVwiden (f : XF) (v : VInputs) : VOut :=
  let w := laneBits f.et
  { group := (List.range (groupOf f.et)).map fun g =>
      (mapLanes 32 fun j => intBits 32 (asInt w (signedType f.et) (lane w v.a (4 * g + j))),
       laneMask 32 (v.lanes >>> (4 * g))) }

/-! ### Special functions (R121) -/

/-- A special function in FP32, rounded to the type. -/
def functionLanes (et : BitVec 4) (v : VInputs) (fn : FVal → Nat) : VOut :=
  lanewise et v fun j => convertF (fmtOf et) .rne (decodeF f32 (fn (decodeF (fmtOf et) (lane (laneBits et) v.a j))))

/-! ### By instruction -/

/-- Bits combined, by lanes that are on. -/
def bitLanes (et : BitVec 4) (v : VInputs) (d : VWord) : VOut := { data := d, mask := laneMask (laneBits et) v.lanes }

/-- The result of a vector instruction on its inputs; an instruction of another kind has none. -/
def vEval (i : Instr) (v : VInputs) : VOut :=
  match i with
  | .vadd f => intLanes f.et v fun a b _ => a + b
  | .vsub f => intLanes f.et v fun a b _ => a - b
  | .vmul f => intLanes f.et v fun a b _ => a * b
  | .vmulh f => intLanes f.et v fun a b _ => a * b / (2 ^ laneBits f.et : Nat)
  | .vmad f => intLanes f.et v fun a b c => a * b + c
  | .vmacw f => evalVmacw f.et v
  | .vdot4 f => evalVdot4 f.et v
  | .vmin f => intLanes f.et v fun a b _ => min a b
  | .vmax f => intLanes f.et v fun a b _ => max a b
  | .vabs f => intLanes f.et v fun a _ _ => (a.natAbs : Int)
  | .vand f => bitLanes f.et v (v.a &&& v.b)
  | .vor f => bitLanes f.et v (v.a ||| v.b)
  | .vxor f => bitLanes f.et v (v.a ^^^ v.b)
  | .vshli f => lanewise f.et v fun j =>
      if f.aux8.toNat < laneBits f.et then lane (laneBits f.et) v.a j * 2 ^ f.aux8.toNat else 0
  | .vshri f => lanewise f.et v fun j => lane (laneBits f.et) v.a j / 2 ^ f.aux8.toNat
  | .vsrai f => lanewise f.et v fun j =>
      intBits (laneBits f.et) (shiftArith f.aux8.toNat (asInt (laneBits f.et) true (lane (laneBits f.et) v.a j)))
  | .vrshr f => intLanes f.et v fun a _ _ => roundShift (laneBits f.et) f.aux8.toNat a
  | .vfadd f => floatLanes f.et v fun t m a b _ => addF t m a b
  | .vfsub f => floatLanes f.et v fun t m a b _ => subF t m a b
  | .vfmul f => floatLanes f.et v fun t m a b _ => mulF t m a b
  | .vffma f => floatLanes f.et v fun t m a b c => fmaF t m a b c
  | .vfmin f => floatLanes f.et v fun t _ a b _ => minF t a b
  | .vfmax f => floatLanes f.et v fun t _ a b _ => maxF t a b
  | .vld f => { data := v.a, mask := if f.et = 0 then 0xFFFF else laneMask (laneBits f.et) v.lanes }
  | .vst f => { data := v.b, mask := if f.et = 0 then 0xFFFF else laneMask (laneBits f.et) v.lanes }
  | .vsplat f => lanewise f.et v fun _ => lane (laneBits f.et) v.a 0
  | .vsplatLit f => lanewise f.x.et v fun _ => lane (laneBits f.x.et) v.a 0
  | .vperm f => lanewise f.et v fun j => lane (laneBits f.et) v.a (lane 4 v.b j % lanes f.et)
  | .vpermLit f => lanewise f.x.et v fun j => lane (laneBits f.x.et) v.a (lane 4 v.b j % lanes f.x.et)
  | .vslide f => lanewise f.et v fun j =>
      if j + f.aux8.toNat < lanes f.et then lane (laneBits f.et) v.a (j + f.aux8.toNat)
      else lane (laneBits f.et) v.b (j + f.aux8.toNat - lanes f.et)
  | .vred f => evalVred f v
  | .vsel f => { data := mapLanes (laneBits f.et) fun j =>
      if v.lanes.getLsbD j then lane (laneBits f.et) v.a j else lane (laneBits f.et) v.b j }
  | .vcmp f => evalVcmp f v
  | .kand _ => { data := v.a &&& v.b }
  | .kor _ => { data := v.a ||| v.b }
  | .knot _ => { data := ~~~ v.a }
  | .kmov _ => { data := v.a }
  | .kmovImm _ => { data := v.a }
  | .vfcvt f => evalVfcvt f v
  | .vnarrow f => evalVnarrow f v
  | .vwiden f => evalVwiden f v
  | .srcp f => functionLanes f.et v Sfu.rcp
  | .srsq f => functionLanes f.et v Sfu.rsq
  | .sexp2 f => functionLanes f.et v Sfu.exp2
  | .slog2 f => functionLanes f.et v Sfu.log2
  | .ssin f => functionLanes f.et v Sfu.sinPi
  | .scos f => functionLanes f.et v Sfu.cosPi
  | .stanh f => functionLanes f.et v Sfu.tanh
  | .ssigm f => functionLanes f.et v Sfu.sigmoid
  | _ => {}

/-! ### Draws (R37) -/

/-- A VFCVT between floating-point formats that R38 makes exact. -/
def exactWidening (d s : BitVec 4) : Bool :=
  isFloat d && isFloat s && ((decide (12 ≤ s.toNat) && decide (d.toNat ≤ 11)) || (d == 9 && decide (s.toNat ≤ 11)))

/-- The elements that a vector instruction of a rounding kind rounds; none for another instruction. -/
def drawCount (i : Instr) (on : BitVec 16) : Option Nat :=
  match i with
  | .vfadd f | .vfsub f | .vfmul f | .vffma f => some (lanesOn on (lanes f.et))
  | .vred f => if isFloat f.et && f.aux8 == 0 then some (lanesOn on (lanes f.et) - 1) else none
  | .vfcvt f =>
    if exactWidening f.et (convSource f) then none
    else
      let p := convLanes f
      some ((List.range p.2).filter fun j => on.getLsbD (p.1 + j)).length
  | _ => none

end Sys2Proof.Machine
end

