-- ==== Sys2Proof/Machine/Vector.lean ====
section
/-!
DEFINITION. Vector instructions (R101 to R114): operands at issue, the result at the readable turn, or when the last read
through a pointer outside the local window has come back.
-/
namespace Sys2Proof.Machine

/-- A read that is still to be made: operand use, address, place. -/
abbrev LateRead := Nat × Word × Loc

/-- A vector operand: its value, or a read still to be made. -/
def operandV (use : Nat) (code : BitVec 5) (late : List LateRead) : Do (VWord × List LateRead) := do
  let r ← readV use code
  match r with
  | .now v => pure (v, late)
  | .later va loc => pure (0, late ++ [(use, va, loc)])

/-- A vector operand where the instruction has it. -/
def operandIf (has : Bool) (use : Nat) (code : BitVec 5) (late : List LateRead) : Do (VWord × List LateRead) :=
  if has then operandV use code late else pure (0, late)

/-- The registers of a group (R105, R114). -/
def readGroup (use code : Nat) : Nat → Do (List VWord)
  | 0 => pure []
  | n + 1 => do
    let v ← readWord use (wsQ code) 16
    let vs ← readGroup use (code + 1) n
    pure (BitVec.ofNat 128 v :: vs)

/-- The results of a group written a latency after issue. -/
def putGroup (lat code : Nat) : List (VWord × BitVec 16) → Do Unit
  | [] => pure ()
  | g :: gs => do
    putV lat (.q code) g.1 g.2
    putGroup lat (code + 1) gs

/-- A result written a latency after issue. -/
def putOut (lat : Nat) (d : VDest) (o : VOut) : Do Unit :=
  match o.group, d with
  | [], _ => putV lat d o.data o.mask
  | gs, .q n => putGroup lat n gs
  | _, _ => pure ()

/-- A context that has passed the USTORE limit waits (R89). -/
def limitStores (ins : Instr) : Do Unit := do
  let s ← get
  if 64 < s.ustore s.here.serial then wait .ustore ins

/-- The reads still to be made leave, in the order of their uses. -/
def postReads (ins : Instr) : List LateRead → Do (List (Nat × Nat))
  | [] => pure []
  | (use, va, loc) :: rs => do
    let s ← get
    let p := s.postLoad (message s (.pointer use) use va loc 16 ins)
    set p.2
    let ids ← postReads ins rs
    pure ((p.1, use) :: ids)

/-- The end of an issue: the result of its inputs, or the wait for the reads still to be made (R19, R23). -/
def completeV (ins : Instr) (lat : Nat) (v : VInputs) (d : VDest) (late : List LateRead) : Do Unit := do
  if late.isEmpty then
    putOut lat d (vEval ins v)
    match d with
    | .mem _ _ (some _) => limitStores ins
    | _ => pure ()
  else
    let ids ← postReads ins late
    wait (.gather ins ids v d) ins

/-- The predicate and, for a rounding kind, the rounding, with the draws that the instruction takes (R37). -/
def beginV (ins : Instr) (f : XF) : Do (VInputs × Word × Nat) := do
  let on ← readPred f
  match drawCount ins on with
  | none => pure ({ lanes := on }, 0, 0)
  | some n =>
    let r ← readRounding f.ro
    pure ({ r.1 with lanes := on }, r.2, if r.1.mode = 5 then n else 0)

/-- A vector instruction with vector operands and a vector destination. -/
def vector (ins : Instr) (f : XF) (lat : Nat) (hasA hasB hasC : Bool) : Do Unit := do
  let h ← beginV ins f
  let a ← operandIf hasA 1 f.a []
  let b ← operandIf hasB 2 f.b a.2
  let c ← operandIf hasC 3 f.c b.2
  let d ← destV 4 f.d ins
  consume h.2.1 h.2.2
  completeV ins lat { h.1 with a := a.1, b := b.1, c := c.1 } d c.2

/-- A vector instruction that reads n registers from d as well: VMACW and VDOT4 (R105). -/
def accumulate (ins : Instr) (f : XF) (n : Nat) : Do Unit := do
  let on ← readPred f
  let a ← operandV 1 f.a []
  let b ← operandV 2 f.b a.2
  let old ← readGroup 4 f.d.toNat n
  completeV ins 8 { lanes := on, a := a.1, b := b.1, c := old.headD 0, group := old } (.q f.d.toNat) b.2

/-- ILLEGAL of a rounding kind at use (R33). -/
def roundingIllegal (ins : Instr) (f : XF) (s : State) : Option Word :=
  if (drawCount ins 0).isSome then modeIllegal f.ro s else none

/-- A predicate operation (R112). -/
def predicates (ins : Instr) (f : XF) (hasA hasB : Bool) (imm : VWord) : Do Unit := do
  let a ← if hasA then readWord 1 (wsK f.a.toNat) 2 else pure imm.toNat
  let b ← if hasB then readWord 2 (wsK f.b.toNat) 2 else pure 0
  completeV ins 4 { lanes := 0xFFFF, a := BitVec.ofNat 128 a, b := BitVec.ofNat 128 b } (.k f.d.toNat) []

/-- VLD (R107). -/
def loadV (f : XF) : Do Unit := do
  let on ← readPred f
  let base ← readS 1 f.a
  let va := base + f.aux32.signExtend 64
  let r ← readMem 1 va 16
  let d ← destV 4 f.d (.vld f)
  match r with
  | .now v => completeV (.vld f) 6 { lanes := on, a := v } d []
  | .later va loc => completeV (.vld f) 6 { lanes := on } d [(1, va, loc)]

/-- VST (R107): at issue in the own scratchpad; elsewhere one store, and none when no lane is on. -/
def storeV (f : XF) : Do Unit := do
  let on ← readPred f
  let base ← readS 1 f.a
  let va := base + f.aux32.signExtend 64
  let loc ← checked va 16 1 .store
  let b ← operandV 2 f.b []
  let mask := (vEval (.vst f) { lanes := on }).mask
  let s ← get
  let own := decide (loc.home = .scratch s.curCid)
  if b.2.isEmpty then
    if mask = 0 then pure ()
    else if own then modify fun s => s.storeChecked loc (maskedBytes b.1 mask) s.curCid
    else postStore { message s .store 1 va loc 16 (.vst f) with data := b.1, mask := mask } (.vst f)
  else
    let id ← if own || mask == 0 then pure none else do
      let id ← reserveStore 1 va loc none (.vst f)
      pure (some id)
    completeV (.vst f) 0 { lanes := on } (.mem va loc id) b.2

/-- VADD (R103). -/
def execVadd (f : XF) (s : State) : Host.Outcome State Fault Refusal :=
  issue (.vadd f) (vector (.vadd f) f 4 true true false) s

/-- VSUB (R103). -/
def execVsub (f : XF) (s : State) : Host.Outcome State Fault Refusal :=
  issue (.vsub f) (vector (.vsub f) f 4 true true false) s

/-- VMUL (R103). -/
def execVmul (f : XF) (s : State) : Host.Outcome State Fault Refusal :=
  issue (.vmul f) (vector (.vmul f) f 4 true true false) s

/-- VMULH (R103). -/
def execVmulh (f : XF) (s : State) : Host.Outcome State Fault Refusal :=
  issue (.vmulh f) (vector (.vmulh f) f 4 true true false) s

/-- VMAD (R103). -/
def execVmad (f : XF) (s : State) : Host.Outcome State Fault Refusal :=
  issue (.vmad f) (vector (.vmad f) f 4 true true true) s

/-- VMIN (R103). -/
def execVmin (f : XF) (s : State) : Host.Outcome State Fault Refusal :=
  issue (.vmin f) (vector (.vmin f) f 4 true true false) s

/-- VMAX (R103). -/
def execVmax (f : XF) (s : State) : Host.Outcome State Fault Refusal :=
  issue (.vmax f) (vector (.vmax f) f 4 true true false) s

/-- VABS (R103). -/
def execVabs (f : XF) (s : State) : Host.Outcome State Fault Refusal :=
  issue (.vabs f) (vector (.vabs f) f 4 true false false) s

/-- VAND (R103). -/
def execVand (f : XF) (s : State) : Host.Outcome State Fault Refusal :=
  issue (.vand f) (vector (.vand f) f 4 true true false) s

/-- VOR (R103). -/
def execVor (f : XF) (s : State) : Host.Outcome State Fault Refusal :=
  issue (.vor f) (vector (.vor f) f 4 true true false) s

/-- VXOR (R103). -/
def execVxor (f : XF) (s : State) : Host.Outcome State Fault Refusal :=
  issue (.vxor f) (vector (.vxor f) f 4 true true false) s

/-- VSHLI (R103). -/
def execVshli (f : XF) (s : State) : Host.Outcome State Fault Refusal :=
  issue (.vshli f) (vector (.vshli f) f 4 true false false) s

/-- VSHRI (R103). -/
def execVshri (f : XF) (s : State) : Host.Outcome State Fault Refusal :=
  issue (.vshri f) (vector (.vshri f) f 4 true false false) s

/-- VSRAI (R103). -/
def execVsrai (f : XF) (s : State) : Host.Outcome State Fault Refusal :=
  issue (.vsrai f) (vector (.vsrai f) f 4 true false false) s

/-- VRSHR (R104). -/
def execVrshr (f : XF) (s : State) : Host.Outcome State Fault Refusal :=
  issue (.vrshr f) (vector (.vrshr f) f 4 true false false) s

/-- VMACW (R105). -/
def execVmacw (f : XF) (s : State) : Host.Outcome State Fault Refusal :=
  issue (.vmacw f) (accumulate (.vmacw f) f 4) s

/-- VDOT4 (R105). -/
def execVdot4 (f : XF) (s : State) : Host.Outcome State Fault Refusal :=
  issue (.vdot4 f) (accumulate (.vdot4 f) f 1) s

/-- VFADD (R106). -/
def execVfadd (f : XF) (s : State) : Host.Outcome State Fault Refusal :=
  issueChecked (.vfadd f) (roundingIllegal (.vfadd f) f) (vector (.vfadd f) f 8 true true false) s

/-- VFSUB (R106). -/
def execVfsub (f : XF) (s : State) : Host.Outcome State Fault Refusal :=
  issueChecked (.vfsub f) (roundingIllegal (.vfsub f) f) (vector (.vfsub f) f 8 true true false) s

/-- VFMUL (R106). -/
def execVfmul (f : XF) (s : State) : Host.Outcome State Fault Refusal :=
  issueChecked (.vfmul f) (roundingIllegal (.vfmul f) f) (vector (.vfmul f) f 8 true true false) s

/-- VFFMA (R106). -/
def execVffma (f : XF) (s : State) : Host.Outcome State Fault Refusal :=
  issueChecked (.vffma f) (roundingIllegal (.vffma f) f) (vector (.vffma f) f 8 true true true) s

/-- VFMIN (R106). -/
def execVfmin (f : XF) (s : State) : Host.Outcome State Fault Refusal :=
  issue (.vfmin f) (vector (.vfmin f) f 8 true true false) s

/-- VFMAX (R106). -/
def execVfmax (f : XF) (s : State) : Host.Outcome State Fault Refusal :=
  issue (.vfmax f) (vector (.vfmax f) f 8 true true false) s

/-- VLD (R107). -/
def execVld (f : XF) (s : State) : Host.Outcome State Fault Refusal :=
  issue (.vld f) (loadV f) s

/-- VST (R107). -/
def execVst (f : XF) (s : State) : Host.Outcome State Fault Refusal :=
  issue (.vst f) (storeV f) s

/-- A scalar operand or literal copied into lanes (R108). -/
def splat (ins : Instr) (f : XF) (v : Word) : Do Unit := do
  let on ← readPred f
  let d ← destV 4 f.d ins
  completeV ins 4 { lanes := on, a := v.setWidth 128 } d []

/-- VSPLAT (R108). -/
def execVsplat (f : XF) (s : State) : Host.Outcome State Fault Refusal :=
  issue (.vsplat f) (do
    let on ← readPred f
    let v ← readS 1 f.a
    let d ← destV 4 f.d (.vsplat f)
    completeV (.vsplat f) 4 { lanes := on, a := v.setWidth 128 } d []) s

/-- VSPLAT with a literal (R108). -/
def execVsplatLit (f : XL) (s : State) : Host.Outcome State Fault Refusal :=
  issue (.vsplatLit f) (splat (.vsplatLit f) f.x f.lit) s

/-- VPERM (R108). -/
def execVperm (f : XF) (s : State) : Host.Outcome State Fault Refusal :=
  issue (.vperm f) (vector (.vperm f) f 4 true true false) s

/-- VPERM with a literal index vector (R108). -/
def execVpermLit (f : XL) (s : State) : Host.Outcome State Fault Refusal :=
  issue (.vpermLit f) (do
    let on ← readPred f.x
    let a ← operandV 1 f.x.a []
    let d ← destV 4 f.x.d (.vpermLit f)
    completeV (.vpermLit f) 4 { lanes := on, a := a.1, b := f.lit.setWidth 128 } d a.2) s

/-- VSLIDE (R108). -/
def execVslide (f : XF) (s : State) : Host.Outcome State Fault Refusal :=
  issue (.vslide f) (vector (.vslide f) f 4 true true false) s

/-- VRED (R109). -/
def execVred (f : XF) (s : State) : Host.Outcome State Fault Refusal :=
  issueChecked (.vred f) (roundingIllegal (.vred f) f) (vector (.vred f) f 4 true false false) s

/-- VSEL (R110). -/
def execVsel (f : XF) (s : State) : Host.Outcome State Fault Refusal :=
  issue (.vsel f) (vector (.vsel f) f 4 true true false) s

/-- VCMP (R111): d is a predicate. -/
def execVcmp (f : XF) (s : State) : Host.Outcome State Fault Refusal :=
  issue (.vcmp f) (do
    let on ← readPred f
    let a ← operandV 1 f.a []
    let b ← operandV 2 f.b a.2
    completeV (.vcmp f) 4 { lanes := on, a := a.1, b := b.1 } (.k f.d.toNat) b.2) s

/-- KAND (R112). -/
def execKand (f : XF) (s : State) : Host.Outcome State Fault Refusal :=
  issue (.kand f) (predicates (.kand f) f true true 0) s

/-- KOR (R112). -/
def execKor (f : XF) (s : State) : Host.Outcome State Fault Refusal :=
  issue (.kor f) (predicates (.kor f) f true true 0) s

/-- KNOT (R112). -/
def execKnot (f : XF) (s : State) : Host.Outcome State Fault Refusal :=
  issue (.knot f) (predicates (.knot f) f true false 0) s

/-- KMOV (R112). -/
def execKmov (f : XF) (s : State) : Host.Outcome State Fault Refusal :=
  issue (.kmov f) (predicates (.kmov f) f true false 0) s

/-- KMOV of an immediate (R112). -/
def execKmovImm (f : XF) (s : State) : Host.Outcome State Fault Refusal :=
  issue (.kmovImm f) (predicates (.kmovImm f) f false false ((f.aux32.extractLsb' 0 16).setWidth 128)) s

/-- VFCVT (R113). -/
def execVfcvt (f : XF) (s : State) : Host.Outcome State Fault Refusal :=
  issueChecked (.vfcvt f) (roundingIllegal (.vfcvt f) f) (vector (.vfcvt f) f 6 true false false) s

/-- VNARROW (R114): its source is a group of registers. -/
def execVnarrow (f : XF) (s : State) : Host.Outcome State Fault Refusal :=
  issue (.vnarrow f) (do
    let on ← readPred f
    let g ← readGroup 1 f.a.toNat (groupOf f.et)
    let d ← destV 4 f.d (.vnarrow f)
    completeV (.vnarrow f) 6 { lanes := on, group := g } d []) s

/-- VWIDEN (R114): its destination is a group of registers. -/
def execVwiden (f : XF) (s : State) : Host.Outcome State Fault Refusal :=
  issue (.vwiden f) (do
    let on ← readPred f
    let a ← operandV 1 f.a []
    completeV (.vwiden f) 6 { lanes := on, a := a.1 } (.q f.d.toNat) a.2) s

end Sys2Proof.Machine
end

