-- ==== Sys2Proof/Machine/Sfu.lean ====
section
/-!
DEFINITION. Requests of the special-function unit (R121 to R123, R180).
-/
namespace Sys2Proof.Machine

/-- The start of a service is due when the unit is free, and no earlier than the cycle after the latest issue (R123). -/
def State.kickSfu (s : State) (cl : Nat) : State :=
  s.schedule (.cycle (Nat.max (s.cycle + 1) (s.cluster cl).sfuFree)) 0 .sfuServiceStart { a := cl }

/-- A request put into the queue of the cluster of its core, as old as its issue; its context is parked. -/
def State.enqueueSfu (s : State) (cid i : Nat) (ins : Instr) (v : VInputs) (d : VDest) (addrs : List Nat) : State :=
  let x := s.slot cid i
  let f := s.fresh
  let r : SfuReq :=
    { id := f.1, cid := cid, slot := i, serial := x.serial, cycle := x.since, ins := ins, inputs := v, dest := d, addrs := addrs }
  let s := f.2.modCluster (clusterOf cid) fun c => { c with sfu := c.sfu ++ [r] }
  (s.modSlot cid i fun x => { x with wait := .sfu f.1, own := true, ins := some ins }).kickSfu (clusterOf cid)

/-- A special function (R121): a read, d checked and advanced at issue; the request enters the queue when a is there. -/
def function (ins : Instr) (f : XF) : Do Unit := do
  let on ← readPred f
  let a ← operandV 1 f.a []
  let d ← destV 4 f.d ins
  if a.2.isEmpty then modify fun s => s.enqueueSfu s.curCid s.curSlot ins { lanes := on, a := a.1 } d []
  else completeV ins 0 { lanes := on, a := a.1 } d a.2

/-- SRCP (R122). -/
def execSrcp (f : XF) (s : State) : Host.Outcome State Fault Refusal :=
  issue (.srcp f) (function (.srcp f) f) s

/-- SRSQ (R122). -/
def execSrsq (f : XF) (s : State) : Host.Outcome State Fault Refusal :=
  issue (.srsq f) (function (.srsq f) f) s

/-- SEXP2 (R122). -/
def execSexp2 (f : XF) (s : State) : Host.Outcome State Fault Refusal :=
  issue (.sexp2 f) (function (.sexp2 f) f) s

/-- SLOG2 (R122). -/
def execSlog2 (f : XF) (s : State) : Host.Outcome State Fault Refusal :=
  issue (.slog2 f) (function (.slog2 f) f) s

/-- SSIN (R122). -/
def execSsin (f : XF) (s : State) : Host.Outcome State Fault Refusal :=
  issue (.ssin f) (function (.ssin f) f) s

/-- SCOS (R122). -/
def execScos (f : XF) (s : State) : Host.Outcome State Fault Refusal :=
  issue (.scos f) (function (.scos f) f) s

/-- STANH (R122). -/
def execStanh (f : XF) (s : State) : Host.Outcome State Fault Refusal :=
  issue (.stanh f) (function (.stanh f) f) s

/-- SSIGM (R122). -/
def execSsigm (f : XF) (s : State) : Host.Outcome State Fault Refusal :=
  issue (.ssigm f) (function (.ssigm f) f) s

end Sys2Proof.Machine
end

