-- ==== Sys2Proof/Machine/Responses.lean ====
section
/-!
DEFINITION. What comes back to a core: fixed-latency results (R20, R22), the responses of accesses (R23, R26, R85, R89), what
happens at their homes (R235), polls (R93), stream words (R116), and channel words (R119, R221).
-/
namespace Sys2Proof.Machine
namespace State

/-! ### Fixed-latency results (R20, R22, R102) -/

/-- The scratchpad bytes that a register result writes. -/
def pendBytes (p : Pend) : List Nat :=
  match p.dest with
  | .reg i off => ((List.range 16).filter p.mask.getLsbD).map fun k => i * 0x400 + off + k
  | _ => []

/-- Bytes noted as written by a fixed-latency write of this turn (log 9). -/
def noteWrote (s : State) (cid : Nat) (bs : List Nat) : State :=
  s.modCore cid fun c =>
    let n := c.turnAt s.cycle
    { c with wrote := if c.wroteTurn = n then c.wrote ++ bs else bs, wroteTurn := n }

/-- A register result of a context that waits for a walk, or has yet to issue again: what stood before it is kept. -/
def keepLate (s : State) (cid i off : Nat) (p : Pend) : State :=
  let x := s.slot cid i
  match x.wait, x.again with
  | .walk _, _ | _, true =>
    let l : Late := { off := off, mask := p.mask, before := BitVec.ofNat 128 (s.wsRead cid i off 16), data := p.data }
    s.modSlot cid i fun x => { x with late := x.late ++ [l] }
  | _, _ => s

/-- One result written. -/
def applyPend (cid : Nat) (s : State) (p : Pend) : State :=
  match p.dest with
  | .none => s
  | .reg i off =>
    let s := (s.keepLate cid i off p).regWrite cid i off p.data p.mask
    if (s.slot cid i).guest then s else s.noteWrote cid (pendBytes p)
  | .scratch off => s.placeOwn cid (.mem 0 { home := .scratch cid, addr := off } none) p.data p.mask
  | .stream port off => (s.placeOwn cid (.mem 0 { home := .scratch cid, addr := off } none) p.data p.mask).streamWritten cid port
  | .place ch seq => s.fillPlace cid ch seq (p.data.setWidth 64)
  | .send id => s.leave id p.data p.mask

/-- FIXED_LATENCY_WRITE (R20): the results readable from this turn on, in the order of their issue. -/
def writeResults (s : State) : State :=
  let cid := s.obj.a
  let c := s.core cid
  let now := c.turnAt s.cycle
  let due := c.pend.filter fun p => decide (p.due ≤ now)
  let s := s.modCore cid fun c => { c with pend := c.pend.filter fun p => !decide (p.due ≤ now) }
  (due.foldl (applyPend cid) s).settleCore cid

/-! ### Responses (R23, R26) -/

/-- The L1 after an acquire of scope P or S (R88, R97). -/
def acquired (s : State) (cid : Nat) (m : Msg) : State := if m.acq && decide (2 ≤ m.scope) then s.l1Clear cid else s

/-- The end of a load, an AMO or a WAITV: its value, or its trap.  The line of an AMO's word is not in the L1 then, nor on
its way (R85, R240). -/
def resultCame (s : State) (c i : Nat) (m : Msg) : State :=
  let s := s.dropMsg m.id
  match m.resp with
  | some (.value v) =>
    match m.kind, m.loc.home with
    | .watch, _ => s.endWatch c i m (v.setWidth 64)
    | .amo _, .slice _ => (((s.l1Drop c m.loc.pa).deliver c m.dest (v.setWidth 64)).acquired c m).wake c i
    | .load, _ => ((s.deliver c m.dest (extend m.size m.signed v.toNat)).acquired c m).wake c i
    | _, _ => ((s.deliver c m.dest (v.setWidth 64)).acquired c m).wake c i
  | some (.trap t) => s.trapWaiting c i t
  | _ => s.wake c i

/-- The reads of a vector instruction, once all have come: the values by use. -/
def gathered (s : State) : List (Nat × Nat) → Option (List (Nat × VWord))
  | [] => some []
  | r :: rs =>
    match s.msg? r.1, s.gathered rs with
    | some m, some rest =>
      match if m.come then m.resp else none with
      | some (.value v) => some ((r.2, v) :: rest)
      | _ => none
    | _, _ => none

/-- An input put in the place of its use. -/
def withInput (v : VInputs) (p : Nat × VWord) : VInputs :=
  match p.1 with
  | 1 => { v with a := p.2 }
  | 2 => { v with b := p.2 }
  | _ => { v with c := p.2 }

/-- The result of a vector instruction whose last read has come. -/
def finishVector (s : State) (c i : Nat) (ins : Instr) (v : VInputs) (d : VDest) : State :=
  if ins.major = 0x1E then s.enqueueSfu c i ins v d []
  else
    let o := vEval ins v
    let s := match o.group, d with
      | [], _ => s.placeV c i d o.data o.mask
      | gs, .q n => gs.zipIdx.foldl (fun s (g : (VWord × BitVec 16) × Nat) => s.placeV c i (.q (n + g.2)) g.1.1 g.1.2) s
      | _, _ => s
    s.wakeLimited c i

/-- A read of a vector instruction has come: a failed one traps then, at its own count (R26, R244), and the others are
dropped as they come; with the last value the instruction ends. -/
def gatherCame (s : State) (c i : Nat) (m : Msg) (ins : Instr) (reads : List (Nat × Nat)) (v : VInputs) (d : VDest) : State :=
  match m.resp with
  | some (.trap t) =>
    (reads.foldl (fun s r => if (s.msg? r.1).any (·.come) then s.dropMsg r.1 else s) s).trapWaiting c i t
  | _ =>
    match s.gathered reads with
    | none => s
    | some vs => (reads.foldl (fun s r => s.dropMsg r.1) s).finishVector c i ins (vs.foldl withInput v) d

/-- What an instruction does with the bytes of its range. -/
def rangeBody (ids : List Nat) (bs : List Byte) : Instr → Do Unit
  | .mxldw f => do
    let e ← myEngine f.d.toNat
    modify fun s => s.stagePlane (clusterOf s.curCid) e f bs
  | .mxq f => taskEntry f bs
  | .mxcb f => codebookEntry f bs
  | .mxzeroLd f => fillEntry f bs
  | .scacc f => scaleEntry f bs
  | .rscat f => planEntry f bs
  | .vdec f => commandEntry f bs
  | .launch f => launchStep (.launch f) ids 3
  | .resole f => resoleStep f ids
  | _ => pure ()

/-- The loads that a context no longer waits for. -/
def dropRows (s : State) (c i : Nat) (ids : List Nat) : State :=
  match (s.slot c i).wait with
  | .rows _ | .walkRows _ _ => s
  | _ => { s with net := s.net.filter fun m => !ids.contains m.id }

/-- A load of a range has come: with the last one the instruction goes on. -/
def rowsCame (s : State) (c i : Nat) (ids : List Nat) : State :=
  match s.rowsBytes ids with
  | none => s
  | some (.error t) => (s.trapWaiting c i t).dropRows c i ids
  | some (.ok bs) =>
    match (s.slot c i).ins with
    | some ins => (s.resumeDo c i (rangeBody ids bs ins)).dropRows c i ids
    | none => s

/-- Work of an interlocked instruction has ended. -/
def workEnded (s : State) (c i : Nat) (m : Msg) : State :=
  match m.ins with
  | .mxldw f =>
    let s := (s.dropMsg m.id).wake c i
    match (s.groupOf c).bind fun g => engineOf g.pitch f.d.toNat with
    | some e => s.stagePlane (clusterOf c) e f m.bytes
    | none => s
  | .nzscan _ => s.finishScan m c i
  | _ => ((s.deliver c m.dest m.va).dropMsg m.id).wake c i

/-- A word of a read stream has come (R116). -/
def streamCame (s : State) (m : Msg) (port : Nat) : State :=
  let s := s.dropMsg m.id
  match tfind (s.core m.cid).streams port with
  | none => s
  | some p =>
    let a : Ahead := match m.resp with
      | some (.value v) => .word v
      | some (.trap t) => .failed t
      | _ => .failed { cause := .memerr, tval := m.va }
    s.modCore m.cid fun c =>
      { c with streams := tset c.streams port { p with ahead := p.ahead.map fun x => if x == .coming m.id then a else x } }

/-- INTERLOCKED_RESULT (R23): a response for the context that waits for it; for a context that has ended it is dropped. -/
def takeResponse (s : State) : State :=
  match s.msg? s.obj.a with
  | none => s
  | some m =>
    match m.kind with
    | .stream port => s.streamCame m port
    | _ =>
      match s.ownerOf m.cid m.slot m.serial with
      | none => s.dropMsg m.id
      | some (c, i) =>
        let s := s.modMsg m.id fun m => { m with come := true }
        match (s.slot c i).wait with
        | .result id | .watch id => if id = m.id then s.resultCame c i m else s.dropMsg m.id
        | .gather ins reads v d => if reads.any (fun r => r.1 == m.id) then s.gatherCame c i m ins reads v d else s.dropMsg m.id
        | .rows ids => if ids.contains m.id then s.rowsCame c i ids else s.dropMsg m.id
        | .engine id => if id = m.id then s.workEnded c i m else s.dropMsg m.id
        | _ => s.dropMsg m.id

/-- STORE_ACK (R89): USTORE falls, and with it what waits for it; the port of a write stream counts it too (R116). -/
def storeAcked (s : State) : State :=
  match s.msg? s.obj.a with
  | none => s
  | some m => s.storeEnds m

/-- L1_FILL (R85): the line enters the L1, unless an invalidation came first. -/
def lineFilled (s : State) : State :=
  match s.msg? s.obj.a with
  | none => s
  | some m =>
    let s := match m.line with
      | some d => if m.keepLine then s.l1Insert m.cid m.loc.pa d else s
      | none => s
    if m.kind = .fill then s.dropMsg m.id else s.modMsg m.id fun m => { m with line := none }

/-! ### At the home (R235, R236) -/

/-- HOME_ACCESS (R235). -/
def accessHome (s : State) : State :=
  match s.msg? s.obj.a with
  | none => s
  | some m =>
    let s := s.useL2 m.loc
    match m.kind with
    | .load | .fill | .stream _ | .pointer _ => (s.performLoad m).respond m.id
    | .store => (s.performStore m).respond m.id
    | .amo op => (s.performAmo m op).respond m.id
    | .watch => s.performWatch m
    | _ => s

/-- WAITV_POLL (R93): the word is read again. -/
def pollWatch (s : State) : State :=
  match (s.slot s.obj.a s.obj.b).wait, s.msg? s.obj.c with
  | .watch id, some m => if id = m.id ∧ !m.watching ∧ m.resp.isNone then s.performWatch m else s
  | _, _ => s

/-! ### Streams (R116) -/

/-- The context whose accesses the fetches of a stream are. -/
def streamSlot (s : State) (cid : Nat) (p : Stream) : Slot :=
  let x := s.slot cid p.slot
  { x with home := p.home, guest := false, region := (s.liveRegion cid).getD 0 }

/-- The fetch of a word of a stream: on its way, behind a walk, or failed. -/
def fetchStream (s : State) (cid port : Nat) (p : Stream) (va : Word) : Ahead × State :=
  let x := s.streamSlot cid p
  match checkAccess s cid x va 16 0 .engineRead with
  | .ok (l, s) =>
    let q := s.post { id := 0, kind := .stream port, cid := cid, slot := p.slot, serial := x.serial, region := x.region
                      va := va, loc := l, size := 16, ins := .streamPrefetch }
    (.coming q.1, q.2)
  | .error (.miss _) =>
    let f := s.fresh
    let det := match s.groupOf cid with | some g => g.mode.det | none => false
    let obj : Obj := { a := cid, b := f.1, c := port + 1, v := va }
    (.coming f.1, if det then f.2.schedule (f.2.atTurn cid 4608) (rankOf cid) .pageWalk obj else f.2.missed x.region va.toNat obj)
  | .error (.trap t) => (.failed t, s)
  | .error _ => (.failed { cause := .perm, tval := va }, s)

/-- The words fetched ahead of a port changed. -/
def modAhead (s : State) (cid port : Nat) (f : List Ahead → List Ahead) : State :=
  s.modCore cid fun c =>
    match tfind c.streams port with
    | some p => { c with streams := tset c.streams port { p with ahead := f p.ahead } }
    | none => c

/-- The next word of a stream fetched, if it may be; the one after it follows. -/
def fetchAhead (s : State) (cid port : Nat) : State :=
  match tfind (s.core cid).streams port with
  | none => s
  | some p =>
    if p.write || decide (8 ≤ p.ahead.length) then s
    else
      match p.addr? (p.pos + p.ahead.length) with
      | none => s
      | some va =>
        if ownScratch cid p.home va then s.extendAhead cid port 8
        else
          let r := s.fetchStream cid port p va
          (r.2.modAhead cid port fun l => l ++ [r.1]).schedule (.cycle s.cycle) (rankOf cid) .streamPrefetch { a := cid, b := port }

/-! ### Channels (R119, R221) -/

/-- CHANNEL_WORD_DELIVERY (R119): the oldest word under way enters the remote inbound queue, or is discarded where that is not
bound or the core's group has changed. -/
def deliverWord (s : State) : State :=
  let cid := s.obj.a
  let ch := s.obj.b
  let c := s.chan cid ch
  match c.bound, c.flight with
  | some b, w :: rest =>
    if c.binds ≠ s.obj.c then s
    else
      let s := s.modChan cid ch fun c => { c with flight := rest }
      let s :=
        if (s.core b.cid).gid = b.gid ∧ (s.chan b.cid b.remote).bound.isSome then s.pushIn b.cid b.remote w.arrived
        else s.wordLost w.arrived
      ((s.senders b.cid b.remote).foldl (fun s p => s.pump p.1 p.2 8) s).settleCore cid
  | _, _ => s

/-- CHANNEL_CREDIT_RETURN (R221): the sender knows of a free place. -/
def creditReturned (s : State) : State :=
  if (s.chan s.obj.a s.obj.b).binds ≠ s.obj.c then s
  else (s.modChan s.obj.a s.obj.b fun c => { c with unknown := c.unknown - 1 }).pump s.obj.a s.obj.b 8

end State

/-- FIXED_LATENCY_WRITE (R20). -/
def execFixedLatencyWrite (s : State) : Host.Outcome State Fault Refusal := stepTo State.writeResults s
/-- INTERLOCKED_RESULT (R23). -/
def execInterlockedResult (s : State) : Host.Outcome State Fault Refusal := stepTo State.takeResponse s
/-- STORE_ACK (R89). -/
def execStoreAck (s : State) : Host.Outcome State Fault Refusal := stepTo State.storeAcked s
/-- L1_FILL (R85). -/
def execL1Fill (s : State) : Host.Outcome State Fault Refusal := stepTo State.lineFilled s
/-- HOME_ACCESS (R235). -/
def execHomeAccess (s : State) : Host.Outcome State Fault Refusal := stepTo State.accessHome s
/-- WAITV_POLL (R93). -/
def execWaitvPoll (s : State) : Host.Outcome State Fault Refusal := stepTo State.pollWatch s
/-- STREAM_PREFETCH (R116). -/
def execStreamPrefetch (s : State) : Host.Outcome State Fault Refusal := stepTo (fun s => s.fetchAhead s.obj.a s.obj.b) s
/-- CHANNEL_WORD_DELIVERY (R119). -/
def execChannelWordDelivery (s : State) : Host.Outcome State Fault Refusal := stepTo State.deliverWord s
/-- CHANNEL_CREDIT_RETURN (R221). -/
def execChannelCreditReturn (s : State) : Host.Outcome State Fault Refusal := stepTo State.creditReturned s
/-- NOTIFY_LATCH_DRAIN (R163). -/
def execNotifyLatchDrain (s : State) : Host.Outcome State Fault Refusal := stepTo (fun s => s.drainLatch s.obj.a s.obj.b) s

end Sys2Proof.Machine
end

