-- ==== Sys2Proof/Machine/Translate.lean ====
section
/-!
DEFINITION. TLBs, walks and instruction fetches (R265, R270, R271, R307), and what the runtime does to translations and
placement (R268, R272).
-/
namespace Sys2Proof.Machine
namespace State

/-! ### Walks (R265, R270) -/

/-- The translation that a walk, or a hit in the die's TLB, gives for an address of a region. -/
def translate (s : State) (cid region va : Nat) : Option TlbEntry :=
  (tlbLookup (s.die (dieOf cid)).tlb region va).orElse fun _ => s.walk region va (dieOf cid)

/-- A translation put into the TLBs of a core and of its die. -/
def keepTranslation (s : State) (cid : Nat) (e : TlbEntry) : State :=
  (s.modDie (dieOf cid) fun d => { d with tlb := tlbInsert d.tlb 16384 e }).touchTlb cid e

/-- What a walk found, with what the context waits for next. -/
def walkFound (s : State) (cid i : Nat) (va : Word) (w : Wait) : State :=
  match s.translate cid (s.slot cid i).region va.toNat with
  | some e => (s.keepTranslation cid e).modSlot cid i fun x => { x with wait := w, trans := e :: x.trans }
  | none => s.modSlot cid i fun x => { x with wait := w, walked := some va }

/-- The end of the walk for the instruction of a context, which issues it again, or goes on with it. -/
def walkedFor (s : State) (cid i : Nat) : State :=
  match (s.slot cid i).wait with
  | .walk va => s.walkFound cid i va .ready
  | .walkRows va ids => (s.walkFound cid i va (.rows ids)).rowsCame cid i ids
  | _ => s

/-- The end of the walk for a prefetch (R92), whose line an invalidation since its issue discards. -/
def walkedPrefetch (s : State) (cid i : Nat) (va : Word) (discarded : Bool) : State :=
  let x := s.slot cid i
  match if x.live then s.translate cid x.region va.toNat else none with
  | none => s
  | some e =>
    let s := s.keepTranslation cid e
    match checkPlace s cid x va 1 1 .engineRead with
    | .ok (loc, s) => if discarded then s else s.fillLine cid i va loc
    | .error _ => s

/-- The end of the walk for a word of a stream (R116). -/
def walkedStream (s : State) (cid port id : Nat) (va : Word) : State :=
  match tfind (s.core cid).streams port with
  | none => s
  | some p =>
    if !p.ahead.contains (.coming id) then s
    else
      let r := match s.translate cid ((s.liveRegion cid).getD 0) va.toNat with
        | some e => (s.keepTranslation cid e).fetchStream cid port p va
        | none => (.failed { cause := .xlate, tval := va }, s)
      r.2.modAhead cid port fun l => l.map fun x => if x == .coming id then r.1 else x

/-- What waits for a translation goes on. -/
def goOnWalked (s : State) (o : Obj) : State :=
  if o.ok then s.walkedPrefetch o.a o.b o.v (o.c ≠ 0)
  else if 0 < o.c then s.walkedStream o.a (o.c - 1) o.b o.v
  else if o.v = BitVec.ofNat 64 (s.slot o.a o.b).serial then s.walkedFor o.a o.b
  else s

/-- The walk of a miss of a die ends: its walker is free, and whoever joined it goes on, in their order (R270). -/
def missEnds (s : State) (d : Nat) (m : Miss) : State :=
  let cid := match m.who with | o :: _ => o.a | [] => 256 * d
  let s := (s.noteWalk m.region (m.page * 2 ^ 16) d cid).modDie d fun x => { x with misses := x.misses.filter fun n => n.id != m.id }
  m.who.foldl goOnWalked (s.startWalkers d 32)

/-- The region and the address of the translation for which an object of PAGE_WALK waits. -/
def walkTarget (s : State) (o : Obj) : Nat × Nat :=
  if o.ok then ((s.slot o.a o.b).region, o.v.toNat)
  else if 0 < o.c then ((s.liveRegion o.a).getD 0, o.v.toNat)
  else match (s.slot o.a o.b).wait with
    | .walk va | .walkRows va _ => ((s.slot o.a o.b).region, va.toNat)
    | _ => (0, 0)

/-- PAGE_WALK (R265): of a miss in the queue of a die (off 1); or of an object itself, for which the TLB of its die has hit, or
which has waited for its 4,608 turns (R271). -/
def walkEnds (s : State) : State :=
  let o := s.obj
  if o.off = 1 then
    match (s.die o.a).misses.find? fun m => m.id == o.b && m.started with
    | some m => s.missEnds o.a m
    | none => s
  else
    let t := s.walkTarget o
    let d := dieOf o.a
    let s := if (tlbLookup (s.die d).tlb t.1 t.2).isSome then s else s.noteWalk t.1 t.2 d o.a
    s.goOnWalked o

/-- TLB_MISS_RETRY (R270). -/
def retryMiss (s : State) : State := s.retryMisses s.obj.a ((s.die s.obj.a).overflow.length + 1)

/-- INSTRUCTION_FETCH_DONE (R307): the instruction at PC has come, or will fault. -/
def fetchDone (s : State) : State :=
  let x := s.slot s.obj.a s.obj.b
  match if s.obj.v = BitVec.ofNat 64 x.serial then x.wait else .ready with
  | .fetch => s.fetchCame s.obj.a s.obj.b
  | _ => s

/-! ### Invalidation (R272) -/

/-- A walk of a slot that has failed, or the walk of a page under way, as an entry that a test may name. -/
def pageEntry (region va : Nat) : TlbEntry :=
  { region := region, va := va / 2 ^ 16 * 2 ^ 16, size := 2 ^ 16, pa := 0, w := false, x := false, cls := 0 }

/-- The translations that a test names gone from every TLB, and from what instructions keep of their walks, failed ones too. -/
def dropTranslations (s : State) (gone : TlbEntry → Bool) : State :=
  let keep := fun (t : List TlbEntry) => t.filter fun e => !gone e
  let failed := fun (x : Slot) => x.walked.filter fun va => !gone (pageEntry x.region va.toNat)
  let s := s.restartWalks gone
  { s with
    cores := s.cores.map fun p => (p.1, { p.2 with
      tlb := keep p.2.tlb, itlb := keep p.2.itlb, slots := p.2.slots.map fun q => (q.1, { q.2 with trans := keep q.2.trans, walked := failed q.2 }) })
    dies := s.dies.map fun p => (p.1, { p.2 with tlb := keep p.2.tlb }) }

/-- An access that was translated before an identifier was given out and is not yet performed. -/
def translatedBefore (s : State) (id : Nat) : Bool :=
  s.net.any (fun m => decide (m.id < id) && !m.performed && match m.loc.home with | .scratch _ => false | _ => true)
    || s.clusters.any (fun p => p.2.queue.any fun e => decide (e.id < id) && !e.started && !e.units.isEmpty)
    || s.cores.any fun p => p.2.slots.any fun q => match q.2.wait with | .fence _ _ (some _) _ _ => true | _ => false

/-- A write of INVCTL: ignored while an invalidation runs. -/
def invalidate (s : State) (kind regid : Nat) (gone : TlbEntry → Bool) : State :=
  if s.invStat then s
  else
    let s := { s with invStat := true, invCtl := BitVec.ofNat 64 (kind * 2 ^ 32 + regid) }.dropTranslations gone
    s.unclocked 0 .invalidationDone { c := s.serial }

/-- INVALIDATION_DONE (R272): once every access translated before it has been performed. -/
def invalidationEnds (s : State) : State :=
  if s.translatedBefore s.obj.c then s.unclocked 0 .invalidationDone s.obj else { s with invStat := false }

/-- The entries of a region that meet the aligned range of a size at INVADDR. -/
def invRange (s : State) (size : Nat) (e : TlbEntry) : Bool :=
  let lo := s.invAddr.toNat / size * size
  s.regid e.region == s.obj.a && decide (e.va < lo + size) && decide (lo < e.va + e.size)

/-! ### The address-range table (R268) -/

/-- The limits of an entry that is put in force. -/
def artWithin (e : ArtEntry) : Bool :=
  e.ctrl.toNat / 2 ^ 32 == 0 && e.ctrl.toNat / 2 ^ 24 % 2 ^ 7 == 0 && decide (e.slog ≤ 12) && decide (e.nlog ≤ 10)
    && e.ctrl.toNat / 2 ^ 10 % 2 ^ 6 == 0 && e.first % 2 ^ e.nlog == 0 && e.base.toNat % 2 ^ 20 == 0 && e.size.toNat % 2 ^ 20 == 0
    && decide (e.base.toNat + e.size.toNat ≤ hbmTop) && decide (e.choff.toNat + e.size.toNat / 2 ^ e.nlog ≤ 1000000000)

/-- A write to a register of an entry, by its offset: CTRL clears VALID where it is refused; the others are ignored while the
entry is in force (R268). -/
def artWrite (t : Tab ArtEntry) (k off : Nat) (v : Word) : Tab ArtEntry :=
  let e := tget t k {}
  if 64 ≤ k then t
  else if off = 16 then
    let e := { e with ctrl := v }
    tset t k (if e.valid && !artWithin e then { e with ctrl := e.ctrl &&& ~~~ (BitVec.twoPow 64 31) } else e)
  else if e.valid then t
  else match off with
    | 0 => tset t k { e with base := v }
    | 8 => tset t k { e with size := v }
    | 24 => tset t k { e with choff := v }
    | _ => t

/-- A write is broadcast to the tables of the eight dies, each of which performs those that it gets in their order (R268). -/
def broadcastArt (s : State) (k off : Nat) (v : Word) : State :=
  (List.range 8).foldl (fun s d =>
    let prev := latest (s.agenda.map fun e =>
      match e.ins, e.due with
      | .artCtrlWrite, .cycle n => if e.obj.b = d + 1 then n else 0
      | _, _ => 0)
    let x := s.delay
    x.2.schedule (.cycle (Nat.max prev (s.cycle + x.1))) 0 .artCtrlWrite { a := k, b := d + 1, c := off, v := v })
    { s with art := artWrite s.art k off v }

/-- ART_CTRL_WRITE (R268): the runtime writes CTRL of an entry; or a die (b - 1) performs a write that was broadcast to it. -/
def writeArtCtrl (s : State) : State :=
  let o := s.obj
  if o.b = 0 then s.broadcastArt o.a 16 o.v else s.modDie (o.b - 1) fun x => { x with art := artWrite x.art o.a o.c o.v }

end State

/-- PAGE_WALK (R265). -/
def execPageWalk (s : State) : Host.Outcome State Fault Refusal := stepTo State.walkEnds s
/-- TLB_MISS_RETRY (R270). -/
def execTlbMissRetry (s : State) : Host.Outcome State Fault Refusal := stepTo State.retryMiss s
/-- INSTRUCTION_FETCH_DONE (R307). -/
def execInstructionFetchDone (s : State) : Host.Outcome State Fault Refusal := stepTo State.fetchDone s
/-- ART_CTRL_WRITE (R268). -/
def execArtCtrlWrite (s : State) : Host.Outcome State Fault Refusal := stepTo State.writeArtCtrl s
/-- INVALIDATE_PAGE (R272). -/
def execInvalidatePage (s : State) : Host.Outcome State Fault Refusal :=
  stepTo (fun s => s.invalidate 0 s.obj.a (s.invRange (2 ^ 16))) s
/-- INVALIDATE_RANGE (R272). -/
def execInvalidateRange (s : State) : Host.Outcome State Fault Refusal :=
  stepTo (fun s => s.invalidate 1 s.obj.a (s.invRange (2 ^ 29))) s
/-- INVALIDATE_REGION (R272). -/
def execInvalidateRegion (s : State) : Host.Outcome State Fault Refusal :=
  stepTo (fun s => s.invalidate 2 s.obj.a fun e => s.regid e.region == s.obj.a) s
/-- INVALIDATE_ALL (R272). -/
def execInvalidateAll (s : State) : Host.Outcome State Fault Refusal := stepTo (fun s => s.invalidate 3 s.obj.a fun _ => true) s
/-- INVALIDATION_DONE (R272). -/
def execInvalidationDone (s : State) : Host.Outcome State Fault Refusal := stepTo State.invalidationEnds s

end Sys2Proof.Machine
end

