-- ==== Sys2Proof/Machine/Ports.lean ====
section
/-!
DEFINITION. The control window: launch ports (R260), regions from their control blocks (R250, R251), and the other registers
(R168, R268, R269, R287, R291, R292).  The writes of the application cores are steps of the agenda (log 40).
-/
namespace Sys2Proof.Machine

/-! ### Region control blocks (R250) -/

/-- The fields of a control block; the hardware's own fields are those that it holds. -/
def parseRegion (bs : List Byte) : Region :=
  let g := fieldOf bs
  { parent := g 0 8, regid := g 8 4, prio := g 12 1, ceil := g 13 1, modeb := BitVec.ofNat 8 (g 14 1), fdom := g 15 1
    ptroot := g 16 8, bivouac := g 24 8, framesz := g 32 4, bivn := g 36 2, unsched := g 38 1, minshare := g 40 2, cores := g 42 2
    fabtok := g 44 2, hbmbytes := BitVec.ofNat 64 (g 48 8), pto := g 56 8, nodemap := BitVec.ofNat 1024 (g 64 128)
    audthr := BitVec.ofNat 32 (g 192 4), audcnt := BitVec.ofNat 64 (g 200 8), audsum := BitVec.ofNat 64 (g 208 8)
    audexc := BitVec.ofNat 64 (g 216 8), evbase := g 224 8, evcount := BitVec.ofNat 64 (g 232 8) }

/-- Every field of a control block lies within its limits. -/
def regionWithin (r : Region) (bs : List Byte) : Bool :=
  let upTo := fun v hi inh => decide (v ≤ hi) || v == inh
  decide (1 ≤ r.regid) && upTo r.prio 63 0xFF && upTo r.ceil 63 0xFF && (r.modeb &&& 0x78) == 0 && decide (r.fdom ≤ 2)
    && r.bivouac % 4096 == 0 && r.framesz % 4096 == 0 && upTo r.bivn 4096 0xFFFF && upTo r.unsched 16 0xFF
    && upTo r.minshare 1024 0xFFFF && decide (1 ≤ r.cores) && upTo r.cores 2048 0xFFFF && decide (r.nodemap.toNat < 2 ^ 993)
    && ([39, 46, 47, 196, 197, 198, 199] ++ rangeFrom 240 272).all fun o => fieldOf bs o 1 == 0

namespace State

/-- n bytes of HBM can be read (R260). -/
def readableHbm (s : State) (pa n : Nat) : Bool :=
  decide (pa + n ≤ hbmTop) && (List.range (n / 16)).all fun i => !s.lastingAt (s.hbmLoc (pa + 16 * i)) 16

/-- The region that a control block makes, if it is not refused: created, or reloaded with its counters kept (R251, R260). -/
def newRegion (s : State) (rcb : Nat) : Option Region :=
  if rcb % 512 ≠ 0 ∨ !s.readableHbm rcb 512 then none
  else
    let bs := s.readHbm rcb 512
    let r := parseRegion bs
    let old := tfind s.regions rcb
    let r := match old with
      | some o => { r with audcnt := o.audcnt, audsum := o.audsum, audexc := o.audexc, evcount := o.evcount, evRecs := o.evRecs }
      | none => r
    let parentOk := r.parent == 0 || ((tfind s.regions r.parent).isSome && !s.isAncestor rcb r.parent)
    let unique := s.regions.all fun p => p.1 == rcb || p.2.regid != r.regid
    if !regionWithin r bs || !parentOk || !unique then none
    else
      let t := { s with regions := tset s.regions rcb r }
      if t.effPtroot rcb = 0 ∨ t.effBivouac rcb = 0 then none else some r

/-! ### Launch records through a port (R260) -/

/-- The place in HBM that a region's address names. -/
def regionPlace (s : State) (region : Nat) (va : Word) : Option Nat :=
  match windowOf va with
  | .global a => (s.walk region a).map fun e => e.pa + a % e.size
  | _ => none

/-- A request refused with a status: it is logged with the header asked for (R259). -/
def refusePort (s : State) (p region status : Nat) (hdr : Word) : Nat × Nat × State :=
  (status, 0, s.eventRecord (4096 + p) region 0 3 0 hdr 0)

/-- The request of a launch record that is in order, once its lasts can be read: the header's own conditions. -/
def portHeader (s : State) (p region : Nat) (rec_ : List Byte) (lasts : List Byte) : Nat × Nat × State :=
  let hva := BitVec.ofNat 64 (fieldOf rec_ 0 8)
  let a := s.deviceRead region hva.toNat 256
  if !a.1 then a.2.refusePort p region 4 hva
  else
    let hdr := a.2.regionBytes region hva 256
    let h := parseHeader hva hdr
    let v := a.2.headerValid region h hdr
    if !v.1 then v.2.refusePort p region 4 hva
    else if shapeCores (fieldOf rec_ 16 1) (fieldOf rec_ 17 1) (fieldOf rec_ 18 1) ≠ h.cores then v.2.refusePort p region 3 hva
    else if !detMet h ((v.2.effModeb region).getLsbD 0) then v.2.refusePort p region 5 hva
    else
      let q := v.2.enqueueGroup (groupOfRecord region h rec_ lasts (4096 + p) none)
      (0, q.1, q.2)

/-- A launch record written to a port: the status, the identifier, and the state with the request or its refusal.  The order of the
checks is that of log 17. -/
def portRequest (s : State) (p region : Nat) (va : Word) : Nat × Nat × State :=
  let a := s.deviceRead region va.toNat 64
  if va.toNat % 64 ≠ 0 ∨ !a.1 then a.2.refusePort p region 3 0
  else
    let s := a.2
    let rec_ := s.regionBytes region va 64
    let hva := BitVec.ofNat 64 (fieldOf rec_ 0 8)
    let rcb := BitVec.ofNat 64 (fieldOf rec_ 8 8)
    let n := fieldOf rec_ 32 1
    let lva := BitVec.ofNat 64 (fieldOf rec_ 24 8)
    if (launchFault rec_).isSome || fieldOf rec_ 20 4 != 0 || hva.toNat % 256 != 0 || (rcb != 0 && s.regionPlace region rcb != some region) then
      s.refusePort p region 3 hva
    else
      let l := s.deviceRead region lva.toNat (64 * n)
      if !l.1 then l.2.refusePort p region 3 hva
      else l.2.portHeader p region rec_ (l.2.regionBytes region lva (64 * n))

/-! ### The ports (R260) -/

def port (s : State) (p : Nat) : Port := tget s.ports p {}
def modPort (s : State) (p : Nat) (f : Port → Port) : State := { s with ports := tset s.ports p (f (s.port p)) }

/-- A write to a port: ignored while one is handled or with the application die in reset; refused while the compute dies are
(R293); its handling ends in a step of its own. -/
def portWrite (s : State) (act : State → Nat × Nat × State) : State :=
  let p := s.obj.a
  if 1024 ≤ p ∨ s.bootStage < 2 ∨ (s.port p).status = 1 then s
  else
    let gid := (s.port p).gid.toNat
    let r := if s.bootStage < 3 then (6, gid, s) else act s
    (r.2.2.modPort p fun x => { x with status := 1 }).unclocked 0 .portWriteDone { a := p, b := r.1, c := r.2.1 }

/-- A write that needs the port's region. -/
def withRegion (act : Nat → State → Nat × Nat × State) (s : State) : Nat × Nat × State :=
  match (s.port s.obj.a).region with
  | some r => act r s
  | none => (6, (s.port s.obj.a).gid.toNat, s)

/-- RCB: the region is created or reloaded and bound to the port; what waits is looked at anew. -/
def writeRcb (s : State) : Nat × Nat × State :=
  let p := s.obj.a
  let rcb := s.obj.v.toNat
  let gid := (s.port p).gid.toNat
  match s.newRegion rcb with
  | none => (2, gid, s)
  | some r =>
    let s := { s with regions := tset s.regions rcb r }.modPort p fun x => { x with region := some rcb }
    (0, gid, (s.retryPosted).unclocked 0 .placement)

/-- PREEMPT: a placed group of the region that is pre-emptible becomes pending. -/
def writePreempt (region : Nat) (s : State) : Nat × Nat × State :=
  let gid := (s.port s.obj.a).gid.toNat
  match s.group? (s.obj.v.toNat % 2 ^ 32) with
  | none => (0, gid, s)
  | some g =>
    let may := g.region == region && g.state.placed && g.state != .ending && !g.preempt && s.preemptible g 0
    (0, gid, if may then s.makePending g.gid else s)

/-- KILL: a group of the region, or all groups of it and of its descendants. -/
def writeKill (region : Nat) (s : State) : Nat × Nat × State :=
  let gid := (s.port s.obj.a).gid.toNat
  let v := s.obj.v.toNat % 2 ^ 32
  if v = 0xFFFFFFFF then (0, gid, s.killRegion (4096 + s.obj.a) region 0 0)
  else
    match s.group? v with
    | none => (0, gid, s)
    | some g => (0, gid, if g.region = region then s.killGroup (4096 + s.obj.a) v 0 0 else s)

/-- The end of a port write. -/
def portDone (s : State) : State := s.modPort s.obj.a fun x => { x with status := s.obj.b, gid := BitVec.ofNat 32 s.obj.c }

/-! ### The other registers -/

/-- A register of the gate of a die (R168, R260). -/
def writeGate (s : State) (off : Nat) (v : Nat) : State :=
  let d := off / 0x40
  let s :=
    if off % 0x40 = 0 ∧ 1 ≤ v ∧ v ≤ 256 then s.modDie d fun x => { x with tokmax := v }
    else if off % 0x40 = 8 ∧ v ≠ 0 then s.modDie d fun x => { x with tokexp := v }
    else s
  s.schedule (.cycle s.cycle) (rankOf (gateSource d)) .tokenGrant { a := d }

/-- A word of the staged bitmap of a multicast entry (R287). -/
def writeStaged (s : State) (off : Nat) (v : Word) : State :=
  let g := off / 0x100
  let w := off % 0x100 / 8
  if w < 16 ∧ off % 8 = 0 then
    let m := tget s.mcast g {}
    let keep := m.staged &&& ~~~ ((0xFFFFFFFFFFFFFFFF#1024) <<< (64 * w))
    { s with mcast := tset s.mcast g { m with staged := keep ||| ((v.setWidth 1024) <<< (64 * w)) } }
  else s

/-- The four quotas lie within 0 to 16 (R269). -/
def quotaOk (v : Nat) : Bool := (List.range 4).all fun i => decide (v / 32 ^ i % 32 ≤ 16)

/-- REGISTER_WRITE (R260): an aligned store to the control window; other addresses ignore it.  Reserved bits stay 0. -/
def writeRegister (s : State) : State :=
  let a := s.obj.a
  let v := s.obj.v
  let c := 0xF000000000
  if a < c + 0x10000 ∨ a % 8 ≠ 0 then s
  else
    let o := a - c
    if o < 0x10200 then s.writeGate (o - 0x10000) v.toNat
    else if 0x20000 ≤ o ∧ o < 0x20800 then s.broadcastArt ((o - 0x20000) / 32) ((o - 0x20000) % 32) v
    else if o = 0x20800 then (if quotaOk v.toNat then { s with quota := v &&& 0xFFFFF } else s)
    else if o = 0x20810 then { s with invAddr := v }
    else if o = 0x20900 then
      (if 600 ≤ v.toNat % 2 ^ 16 ∧ v.toNat % 2 ^ 16 ≤ 2400 then { s with pcap := v &&& 0x1FFFF } else s)
    else if o = 0x20910 then { s with glbase := v &&& 0xFFFFFFFFFF000 }
    else if 0x21000 ≤ o ∧ o < 0x22800 then s.writeStaged (o - 0x21000) v
    else s

/-- The word that an aligned 8-byte load of the control window reads (R260, R268, R269, R272, R287, R291 to R293): the application cores
are outside the instruction set, and their loads change nothing.  What only a store reaches, and every other address, reads 0. -/
def windowWord (s : State) (a : Nat) : Word :=
  let o := a - 0xF000000000
  if a < 0xF000000000 ∨ a % 8 ≠ 0 then 0
  else if o < 0x10000 then
    let p := s.port (o / 0x40)
    if o % 0x40 = 0x10 then BitVec.ofNat 64 (p.gid.toNat + p.status * 2 ^ 32) else 0
  else if o < 0x10200 then
    let d := s.die ((o - 0x10000) / 0x40)
    BitVec.ofNat 64 (if o % 0x40 = 0 then d.tokmax else if o % 0x40 = 8 then d.tokexp else 0)
  else if 0x20000 ≤ o ∧ o < 0x20800 then
    let e := tget s.art ((o - 0x20000) / 32) {}
    match o % 32 with | 0 => e.base | 8 => e.size | 16 => e.ctrl | _ => e.choff
  else if 0x21000 ≤ o ∧ o < 0x22800 then
    let m := tget s.mcast ((o - 0x21000) / 0x100) {}
    let k := o % 0x100
    if k < 0x80 then (m.staged >>> (8 * k)).setWidth 64 else if k = 0x80 then m.version else 0
  else match o with
    | 0x20800 => s.quota
    | 0x20810 => s.invAddr
    | 0x20818 => s.invCtl
    | 0x20820 => BitVec.ofNat 64 s.invStat.toNat
    | 0x20900 => s.pcap
    | 0x20908 => BitVec.ofNat 64 (s.windows.toNat * 2 ^ 32 + s.mhz * 2 ^ 20 + s.budget * 2 ^ 16 + s.avgw.toNat)
    | 0x20910 => s.glbase
    | 0x20948 => s.resyncStat
    | 0x20950 => BitVec.ofNat 64 (s.bootStage + 16 * s.bootFail)
    | _ => 0

/-- MULTICAST_COMMIT (R287): the staged bitmap is in force, at each link die once it holds the new version. -/
def commitMulticast (s : State) : State :=
  let m := tget s.mcast s.obj.a {}
  if 24 ≤ s.obj.a then s
  else
    { s with mcast := tset s.mcast s.obj.a { m with nodes := m.staged, old := m.nodes, version := m.version + 1, pending := true } }.unclocked 0
      .commitAck { a := s.obj.a, v := m.version + 1 }

/-- COMMIT_ACK (R287). -/
def commitDone (s : State) : State :=
  let m := tget s.mcast s.obj.a {}
  if m.version = s.obj.v then { s with mcast := tset s.mcast s.obj.a { m with pending := false } } else s

/-! ### Resync (R292) -/

/-- RESYNC: a buffer of a number of frames at a physical address; ignored while one runs. -/
def startResync (s : State) : State :=
  if s.resyncStat = 1 ∨ s.obj.v.toNat % 2 ^ 12 = 0 then s
  else
    { s with resync := s.obj.v, resyncStat := 1 }.unclocked 0 .resyncDone { v := s.gtc }

/-- The code of a group's state: running, suspended, pre-empted, being killed. -/
def resyncState (g : Group) : Nat :=
  match g.state with
  | .queued => 1
  | .saved => 2
  | .ending | .releasing => if g.killed then 3 else 0
  | _ => 0

/-- The window address of an offset in a core's scratchpad. -/
def peerAddress (cid off : Nat) : Nat := 2 ^ 55 + cid * 2 ^ 19 + off

/-- The destination address of an outstanding transfer, and the bytes that it still has to bring (R292). -/
def transferRest (s : State) (t : Transfer) : Nat × Nat :=
  let handleBase := fun (c x : Nat) => peerAddress c (s.handle c x).base
  match t.kind with
  | .send r =>
    (if r.toHandle then handleBase t.receiver r.x + r.dst else if r.scratch then peerAddress t.receiver r.dst else r.dst
    , r.len - ((t.packets.filter (·.landed)).foldl (fun n p => n + (packetPart r.len p.n).2) 0))
  | .chunk r => (peerAddress r.core 0, r.len - ((t.packets.filter (·.landed)).foldl (fun n p => n + (packetPart r.len p.n).2) 0))
  | .gather r => (handleBase t.cid r.h, (r.count - (t.packets.filter (·.landed)).length) * r.rowBytes)
  | .rscat r => (r.dst.toNat, r.elems / r.n * planSize r)
  | .vdec r =>
    let x := r.targets.headD (0, 0)
    (handleBase x.1 x.2, r.frames * frameLen r 8)

/-- The entries of each section: the values that R292 names, in its order. -/
def resyncEntries (s : State) : Nat → List (List Nat)
  | 1 => s.regions.map fun p =>
      let m := s.effModeb p.1
      [ p.2.regid, s.effPrio p.1, (m.getLsbD 0).toNat, (m.getLsbD 1).toNat, s.effFdom p.1, s.coresHeld p.1
      , (s.groups.filter fun q => q.2.region == p.1 && q.2.state == .saved).length ]
  | 2 => s.groups.map fun p => [p.1, s.regid p.2.region, resyncState p.2, p.2.shape, p.2.pitch.headD 0]
  | 3 => s.transfers.map fun t =>
      let x := s.transferRest t
      [t.gate, t.sender.getD s.node, t.cid, x.1, x.2, t.prio, (t.tokens.filter t.outstanding).length]
  | 4 => s.clusters.flatMap fun p => p.2.locks.map fun l =>
      [p.1, l.full.toNat, l.global.toNat, l.core, l.region, l.base, l.len, l.hkind, l.hidx]
  | 5 => (List.range (2 * (neighboursOf s.node).length)).map fun k =>
      let l := s.link k
      [ k, if l.down then 2 else if l.half then 1 else 0, 2 - l.failed0.toNat - l.failed1.toNat, l.margin0, l.margin1
      , l.corrected0 + l.corrected1, l.retries, s.gtcWarn.toNat ]
  | 6 => (List.range 8).map (fun d =>
      let x := s.die d
      [d, x.cecnt.toNat, x.trcnt.toNat, x.lacnt.toNat] ++ x.ring.map leNat) ++ [s.badRows]
  | _ => [[s.gtc.toNat, s.refNode, s.gtcOff.toNat, (-s.gtcOff).toNat]]

/-- A section: its heading and its entries, whose layout the spec leaves open (log 41). -/
def resyncSection (s : State) (k : Nat) : List Byte :=
  let es := (s.resyncEntries k).map (Config.resyncEntry k)
  let body := es.flatten
  (Config.resyncHeading k es.length body.length s.gtc.toNat ++ List.replicate 16 0).take 16 ++ body

/-- The record. -/
def resyncRecord (s : State) (start : Word) : List Byte :=
  leBytes 8 start.toNat ++ leBytes 8 s.gtc.toNat ++ leBytes 2 s.node ++ leBytes 2 7 ++ List.replicate 44 0
    ++ (rangeFrom 1 7).flatMap s.resyncSection

/-- RESYNC_DONE (R292): the record is written, as far as the buffer goes. -/
def endResync (s : State) : State :=
  let bs := s.resyncRecord s.obj.v
  let frames := s.resync.toNat % 2 ^ 12
  let base := s.resync.toNat / 2 ^ 12 % 2 ^ 40 * 2 ^ 12
  let need := (bs.length + 4095) / 4096
  let s := s.writeHbm base ((bs.take (4096 * frames)).take (hbmTop - base))
  { s with resyncStat := if frames < need then BitVec.ofNat 64 (need % 2 ^ 12 * 2 ^ 32 + 2) else 0 }

end State

/-- PORT_RCB (R260). -/
def execPortRcb (s : State) : Host.Outcome State Fault Refusal := stepTo (fun s => s.portWrite State.writeRcb) s
/-- PORT_LAUNCH (R260). -/
def execPortLaunch (s : State) : Host.Outcome State Fault Refusal :=
  stepTo (fun s => s.portWrite (State.withRegion fun r s => s.portRequest s.obj.a r s.obj.v)) s
/-- PORT_PREEMPT (R260). -/
def execPortPreempt (s : State) : Host.Outcome State Fault Refusal := stepTo (fun s => s.portWrite (State.withRegion State.writePreempt)) s
/-- PORT_KILL (R260). -/
def execPortKill (s : State) : Host.Outcome State Fault Refusal := stepTo (fun s => s.portWrite (State.withRegion State.writeKill)) s
/-- PORT_WRITE_DONE (R260). -/
def execPortWriteDone (s : State) : Host.Outcome State Fault Refusal := stepTo State.portDone s
/-- REGISTER_WRITE (R260). -/
def execRegisterWrite (s : State) : Host.Outcome State Fault Refusal := stepTo State.writeRegister s
/-- MULTICAST_COMMIT (R287). -/
def execMulticastCommit (s : State) : Host.Outcome State Fault Refusal := stepTo State.commitMulticast s
/-- COMMIT_ACK (R287). -/
def execCommitAck (s : State) : Host.Outcome State Fault Refusal := stepTo State.commitDone s
/-- RESYNC (R292). -/
def execResync (s : State) : Host.Outcome State Fault Refusal := stepTo State.startResync s
/-- RESYNC_DONE (R292). -/
def execResyncDone (s : State) : Host.Outcome State Fault Refusal := stepTo State.endResync s

end Sys2Proof.Machine
end

