-- ==== Sys2Proof/Machine/Boot.lean ====
section
/-!
DEFINITION. The Welt and the links: boot and attestation (R283, R293, R294), the governor (R7, R291), the patrol scrub (R282),
the GTC across the fabric (R290), Grisia Link (R284 to R289), and the links of the CXL tier (R275).
-/
namespace Sys2Proof.Machine

namespace State

/-! ### Ports of the link (R285, R288) -/

/-- Messages from modules that no path reaches any longer are orphaned while they wait at their gates (R170). -/
def orphanSenders (s : State) : State :=
  (s.transfers.filter fun t => match t.sender with | some n => s.unreachable.contains n && t.waits && !t.orphaned | none => false).foldl
    (fun s t => s.orphanMessage t (s.reaches t)) s

/-- A flit of the retry buffer is sent again; its time-out is twice as long at half width (R285, R288). -/
def resendFlit (s : State) (p seq : Nat) : State :=
  let l := s.link p
  if l.buffer.any fun f => f.seq == seq then
    s.schedule (.cycle (s.cycle + 1 + Config.retryTimeout * (if l.half then 2 else 1))) 0 .linkRetryTimeout { a := p, c := seq }
  else s

/-- FLIT_RECEIVE (R285): the flit that was expected (kind 0), the acknowledgement of the flits up to one (1), or a request for
one again (2); a flit that FEC cannot correct is asked for again. -/
def flitCame (s : State) : State :=
  let p := s.obj.a
  let l := s.link p
  if !s.obj.ok then (s.flitFails p).orphanSenders
  else match s.obj.b with
    | 0 => s.setLink p { l with retries := 0, want := l.want + 1 }
    | 1 =>
      let s := s.setLink p { l with retries := 0, buffer := l.buffer.filter fun f => decide (s.obj.c < f.seq) }
      s.pumpPort p l.queue.length
    | _ => s.resendFlit p s.obj.c

/-- LINK_RETRY_TIMEOUT (R285): the flit that was sent again has not been acknowledged. -/
def retryExpires (s : State) : State :=
  let p := s.obj.a
  if (s.link p).buffer.any fun f => f.seq == s.obj.c then ((s.flitFails p).resendFlit p s.obj.c).orphanSenders else s

/-- A lane that has crossed its limit is not used again (R288): the port goes on at half width from a sequence number on, or is
down. -/
def laneFails (s : State) (p lane : Nat) : State :=
  let l := s.link p
  let m := if lane = 0 then { l with failed0 := true } else { l with failed1 := true }
  let m := if l.half then m else { m with half := true, halfFrom := l.next }
  let s := s.setLink p m
  if m.failed0 && m.failed1 && !m.down then (s.portDown p).orphanSenders else s

/-- The n-th sample of a port: the counts and margins of its lanes, and the lanes that have crossed their limits. -/
def samplePort (n : Nat) (s : State) (p : Nat) : State :=
  let x := Config.laneSample n p 0
  let y := Config.laneSample n p 1
  let l := s.link p
  let s := s.setLink p { l with corrected0 := x.1, margin0 := x.2, corrected1 := y.1, margin1 := y.2 }
  let s := if Config.laneCrossed x.1 x.2 && !l.failed0 then s.laneFails p 0 else s
  if Config.laneCrossed y.1 y.2 && !l.failed1 then s.laneFails p 1 else s

/-- LANE_SAMPLE (R288): every 65,536 ticks each port samples its lanes. -/
def sampleLanes (s : State) : State :=
  let n := s.obj.b
  let ports := 2 * (neighboursOf s.node).length
  ((List.range ports).foldl (samplePort n) s).schedule (.gtc (s.gtc.toNat + 65536)) 0 .laneSample { b := n + 1 }

/-! ### The CXL tier (R275) -/

/-- CXL_LINK_DROP: every slice discards its lines of the port, all of which are clean; and CXL_LINK_RETURN. -/
def dropCxl (s : State) : State :=
  let mine := fun (l : L2Line) => decide (cxlBase ≤ 256 * l.line) && (256 * l.line - cxlBase) / 2 ^ 47 == s.obj.a
  let s := { s with l2 := s.l2.map fun p => (p.1, p.2.filter fun l => !mine l) }
  if s.cxlDown.contains s.obj.a then s else { s with cxlDown := s.obj.a :: s.cxlDown }
def returnCxl (s : State) : State := { s with cxlDown := s.cxlDown.filter fun p => p != s.obj.a }

/-! ### The GTC across the fabric (R290) -/

/-- The estimated offset from the reference, and the warning while it exceeds 3 ticks. -/
def setOffset (s : State) (off : Int) : State := { s with gtcOff := off, gtcWarn := decide (3 < off) || decide (off < -3) }

/-- One tick skipped or repeated towards the reference. -/
def slewTick (s : State) : State :=
  let off := s.gtcOff
  if 0 < off then { s with gtcRem := s.gtcRem - s.mhz }.setOffset (off - 1)
  else if off < 0 then { s with gtc := s.gtc + 1 }.setOffset (off + 1)
  else s

/-- The next exchange of timestamps, with the estimate that it will bring. -/
def nextExchange (s : State) : State :=
  let n := s.free
  { s with free := s.free + 1 }.schedule (.gtc (s.gtc.toNat + 65536)) 0 .gtcSync { off := Config.clockOffset n, c := 15 }

/-- GTC_SYNC (R290): an exchange brings an estimate, which is 0 at the reference node itself; then one tick at most is corrected
every 4,096 ticks, fifteen before the next exchange. -/
def syncGtc (s : State) : State :=
  let s := if s.obj.ok then s.slewTick
    else s.nextExchange.setOffset (if s.refNode = s.node then 0 else s.obj.off)
  if s.gtcOff = 0 ∨ s.obj.c = 0 then s else s.schedule (.gtc (s.gtc.toNat + 4096)) 0 .gtcSync { c := s.obj.c - 1, ok := true }

/-! ### The governor (R7, R291) -/

/-- The clock at another frequency: the part of a tick already counted keeps its size. -/
def setClock (s : State) (mhz : Nat) : State := { s with gtcRem := s.gtcRem * mhz / s.mhz, mhz := mhz }

/-- One step of the governor. -/
def govern (s : State) (avg : Nat) : State :=
  let cap := s.pcap.toNat % 2 ^ 16
  let on := s.pcap.getLsbD 16
  if on ∧ cap < avg then
    if 1 < s.budget then { s with budget := s.budget - 1 }
    else if 1200 < s.mhz then s.setClock (s.mhz - 75) else s
  else if !on ∨ avg < cap then
    if s.mhz < 2400 then s.setClock (s.mhz + 75) else if s.budget < 8 then { s with budget := s.budget + 1 } else s
  else s

/-- The record of a window that has changed G or the clock. -/
def governorRecord (s old : State) : State :=
  let base := s.glbase.toNat / 2 ^ 12 % 2 ^ 40 * 2 ^ 12
  if base = 0 ∨ (s.budget = old.budget ∧ s.mhz = old.mhz) then s
  else
    s.writeHbm (base + 32 * (s.windows.toNat % 64))
      (leBytes 8 s.gtc.toNat ++ leBytes 2 s.avgw.toNat ++ leBytes 1 old.budget ++ leBytes 1 s.budget ++ leBytes 2 old.mhz ++ leBytes 2 s.mhz
        ++ List.replicate 16 0)

/-- The next window, with the power that will be measured. -/
def nextWindow (s : State) : State :=
  let w := Config.windowPower s.free
  { s with free := s.free + 1 }.schedule (.gtc (s.gtc.toNat + 2 ^ 20)) 0 .governorWindow { v := BitVec.ofNat 64 w }

/-- GOVERNOR_WINDOW (R7). -/
def endWindow (s : State) : State :=
  let s := { s with windows := s.windows + 1, avgw := s.obj.v.setWidth 16 }
  ((s.govern s.obj.v.toNat).governorRecord s).nextWindow

/-! ### The patrol (R282) -/

/-- A physical address that an entry of the address-range table places at a slice and channel offset, if it does (R268). -/
def artSource (e : ArtEntry) (g off : Nat) : Option Nat :=
  let u := 8 + e.slog
  let o := off - e.choff.toNat
  let pa := e.base.toNat + o / 2 ^ u * 2 ^ (u + e.nlog) + (g - e.first) * 2 ^ u + o % 2 ^ u
  if e.valid && decide (pa < e.base.toNat + e.size.toNat) && e.place pa == (g, off) then some pa else none

/-- The physical address of a storage place of HBM: one by the table, else by the default hash (R267, R282). -/
def placePa (s : State) (addr : Nat) : Nat :=
  let g := addr / 1000000000
  let off := addr % 1000000000
  let l := off / 256
  match (s.die 0).art.findSome? fun p => artSource p.2 g off with
  | some pa => pa
  | none => ((l * 1024) + (g ^^^ (l % 1024) ^^^ (l / 2 ^ 10 % 1024) ^^^ (l / 2 ^ 20 % 1024) ^^^ (l / 2 ^ 30 % 16))) * 256 + off % 256

/-- An ECC word of HBM or the L2 read by the patrol, and rewritten when it was corrected. -/
def patrolWord (s : State) (a : Nat) : State :=
  let k := (1, a)
  let pa := s.placePa a
  if s.lasting.contains k then s.logError k pa deviceSource 3
  else if s.transient.contains k then { s with transient := s.transient.erase k }.logError k pa deviceSource 2
  else if s.correctable.contains k then { s with correctable := s.correctable.erase k }.logError k pa deviceSource 1
  else s

/-- PATROL_SCRUB (R282): the patrol reads the ECC word of a storage place; or, every 2^36 ticks, those of the whole module, of which
those without an error leave no trace. -/
def patrol (s : State) : State :=
  if !s.obj.ok then s.patrolWord s.obj.a
  else
    let ks := ((s.lasting ++ s.transient ++ s.correctable).filter fun k => k.1 == 1).map (·.2)
    (ks.eraseDups.foldl patrolWord s).schedule (.gtc (s.gtc.toNat + 2 ^ 36)) 0 .patrolScrub { ok := true }

/-! ### Boot (R293) -/

/-- The images that a stage checks: one, or those of the eight compute dies as one image. -/
def stageImage (n : Nat) : List Byte := Config.bootImage n

/-- A failed check. -/
def bootFails (s : State) (n : Nat) : State := { s with bootFail := n, stopped := s.stopped || n == 1 }

/-- The work that the Welt and the link dies begin with the first stage. -/
def startPeriodic (s : State) : State :=
  ((s.nextWindow.nextExchange).schedule (.gtc (s.gtc.toNat + 65536)) 0 .laneSample).schedule (.gtc (s.gtc.toNat + 2 ^ 36)) 0
    .patrolScrub { ok := true }

/-- BOOT_STAGE (R293): the image checked, the chain extended, and the stage run. -/
def bootStep (s : State) : State :=
  let n := s.obj.a
  if n ≠ s.bootStage + 1 ∨ 3 < n ∨ s.bootFail ≠ 0 then s
  else if !Config.ed448Verify (stageImage n) then s.bootFails n
  else
    let digest := Config.shake256 (stageImage n) 64
    let m := Config.shake256 (s.chain.getLastD [] ++ digest) 64
    let s := { s with bootStage := n, chain := s.chain ++ [m], attLog := s.attLog ++ [digest] }
    let s := if n = 1 then s.startPeriodic else s
    if n < 3 then s.unclocked 0 .bootStage { a := n + 1 } else s

/-- ATTESTATION_QUOTE (R294): the measurements, the GTC and the log, with the signature. -/
def quote (s : State) : State :=
  let nonce := s.obj.bytes
  if nonce = [] ∨ 64 < nonce.length ∨ s.bootStage = 0 then s
  else
    let ms := (s.chain.drop 1).flatten
    let body := ms ++ leBytes 8 s.gtc.toNat
    { s with quotes := s.quotes ++ [body ++ s.attLog.flatten ++ Config.ed448Sign (nonce ++ body)] }

/-! ### Module reset (R283, R285, R293) -/

/-- HBM rows with a lasting error are repaired while spare rows last; the others stay listed. -/
def repairRow (s : State) (row : Nat) : State :=
  let c := s.choose 2
  if c.1 = 0 then { c.2 with lasting := c.2.lasting.filter fun k => !(k.1 == 1 && Config.hbmRow k.2 == row) }
  else { c.2 with badRows := c.2.badRows ++ [row] }

/-- The cores whose scratchpad has a lasting error, and a core kept out of placement. -/
def badCores (s : State) : List Nat := ((s.lasting.filter fun k => k.1 == 2).map fun k => k.2 / 2 ^ 19).eraseDups
def excludeCore (s : State) (cid : Nat) : State := s.modCore cid fun c => { c with excluded := true }

/-- The cores that a unit with a lasting error serves, and their feature bits that its loss clears (R56): the engines of a cluster
(storage 4), its SFU (7), the decoders of a die (8) and its collective engine (9, log 49). -/
def unitLost (k : Nat × Nat) : List Nat × Word :=
  match k.1 with
  | 4 => (rangeFrom (4 * (k.2 / 2 ^ 20)) 4, 0x18)
  | 7 => (rangeFrom (4 * k.2) 4, 0x4)
  | 8 | 9 => (rangeFrom (256 * k.2) 256, 0x80)
  | _ => ([], 0)

/-- A unit with a lasting error taken out of service (R283). -/
def disableUnit (s : State) (k : Nat × Nat) : State :=
  (unitLost k).1.foldl (fun s c => s.modCore c fun c => { c with feat := c.feat &&& ~~~ (unitLost k).2 }) s

/-- What a reset keeps of the faults that were logged. -/
def afterRepair (s : State) : State :=
  let rows := ((s.lasting.filter fun k => k.1 == 1).map fun k => Config.hbmRow k.2).eraseDups
  let fresh := { State.reset with node := s.node, lasting := s.lasting.filter fun k => k.1 != 3 && k.1 != 5, free := s.free, cxlDown := s.cxlDown, resets := s.resets + 1 }
  let fresh := rows.foldl repairRow fresh
  let fresh := s.badCores.foldl excludeCore fresh
  s.lasting.foldl disableUnit fresh

/-- MODULE_RESET (R293): ok tells that a die-to-die link cannot be retrained (R285). -/
def resetModule (s : State) : State :=
  let t := s.afterRepair
  if s.obj.ok then { t with stopped := true, agenda := [] } else t

end State

/-- ATTESTATION_QUOTE (R294). -/
def execAttestationQuote (s : State) : Host.Outcome State Fault Refusal := stepTo State.quote s
/-- MODULE_RESET (R293). -/
def execModuleReset (s : State) : Host.Outcome State Fault Refusal := stepTo State.resetModule s
/-- BOOT_STAGE (R293). -/
def execBootStage (s : State) : Host.Outcome State Fault Refusal := stepTo State.bootStep s
/-- GOVERNOR_WINDOW (R7). -/
def execGovernorWindow (s : State) : Host.Outcome State Fault Refusal := stepTo State.endWindow s
/-- PATROL_SCRUB (R282). -/
def execPatrolScrub (s : State) : Host.Outcome State Fault Refusal := stepTo State.patrol s
/-- GTC_SYNC (R290). -/
def execGtcSync (s : State) : Host.Outcome State Fault Refusal := stepTo State.syncGtc s
/-- LANE_SAMPLE (R288). -/
def execLaneSample (s : State) : Host.Outcome State Fault Refusal := stepTo State.sampleLanes s
/-- FLIT_RECEIVE (R285). -/
def execFlitReceive (s : State) : Host.Outcome State Fault Refusal := stepTo State.flitCame s
/-- LINK_RETRY_TIMEOUT (R285). -/
def execLinkRetryTimeout (s : State) : Host.Outcome State Fault Refusal := stepTo State.retryExpires s
/-- CXL_LINK_DROP (R275). -/
def execCxlLinkDrop (s : State) : Host.Outcome State Fault Refusal := stepTo State.dropCxl s
/-- CXL_LINK_RETURN (R275). -/
def execCxlLinkReturn (s : State) : Host.Outcome State Fault Refusal := stepTo State.returnCxl s

/-- The step of a word that is no instruction (R58): ILLEGAL, with word 0 in TVAL. -/
def execIllegalEncoding (w0 : BitVec 32) (s : State) : Host.Outcome State Fault Refusal :=
  issueChecked (.illegalEncoding w0) (fun _ => some (w0.setWidth 64)) (pure ()) s

end Sys2Proof.Machine
end

