-- ==== Sys2Proof/Machine/Control.lean ====
section
/-!
DEFINITION. Branches, jumps and calls (R70 to R72), and the SYS group (R73 to R80).
-/
namespace Sys2Proof.Machine

/-- The issuing context's PC: during its effect, the sequential successor (R17). -/
def getPc : Do Word := do pure (← get).here.pc
def setPc (a : Word) : Do Unit := modify fun s => s.modHere fun x => { x with pc := a }

/-- A target in words from the instruction's own address, n bytes before its successor. -/
def jumpWords (n : Nat) (off : Word) : Do Unit := do
  let pc ← getPc
  setPc (pc - BitVec.ofNat 64 n + 4 * off)

/-- BR: both operands are read whether or not the branch is taken (R70). -/
def branch (n : Nat) (off : Word) (cond : BitVec 3) (a b : BitVec 5) : Do Unit := do
  let x ← readS 1 a
  let y ← readS 2 b
  if condition cond x y then jumpWords n off

/-- The link of CALL (R71). -/
def link : Do Unit := do
  let pc ← getPc
  writeS 4 27 2 pc

/-- A jump to an address in a register (R72). -/
def jumpTo (a : Word) : Do Unit := if a.toNat % 4 ≠ 0 then trapOf .align a else setPc a

/-- BR (R70). -/
def execBr (f : BF) (s : State) : Host.Outcome State Fault Refusal :=
  issue (.br f) (branch 4 (f.off.signExtend 64) f.cond f.a f.b) s
/-- BR in its long form (R70). -/
def execBrLong (f : BL) (s : State) : Host.Outcome State Fault Refusal :=
  issue (.brLong f) (branch 12 (f.off.signExtend 64) f.cond f.a f.b) s
/-- JMP (R71). -/
def execJmp (f : JF) (s : State) : Host.Outcome State Fault Refusal := issue (.jmp f) (jumpWords 4 (f.off.signExtend 64)) s
/-- JMP to a literal (R71). -/
def execJmpLit (f : JL) (s : State) : Host.Outcome State Fault Refusal := issue (.jmpLit f) (setPc f.lit) s
/-- CALL (R71). -/
def execCall (f : JF) (s : State) : Host.Outcome State Fault Refusal :=
  issue (.call f) (do link; jumpWords 4 (f.off.signExtend 64)) s
/-- CALL to a literal (R71). -/
def execCallLit (f : JL) (s : State) : Host.Outcome State Fault Refusal :=
  issue (.callLit f) (do link; setPc f.lit) s
/-- JR (R72). -/
def execJr (f : RF) (s : State) : Host.Outcome State Fault Refusal :=
  issue (.jr f) (do let a ← readS 1 f.a; jumpTo a) s
/-- CALLR: a is read before the link is written (R72). -/
def execCallr (f : RF) (s : State) : Host.Outcome State Fault Refusal :=
  issue (.callr f) (do
    let a ← readS 1 f.a
    let pc ← getPc
    if a.toNat % 4 ≠ 0 then trapOf .align a
    writeS 4 f.d 2 pc
    setPc a) s

/-- The number n of SAFEPT, TRAP and BKPT (R73). -/
def RF.sysNumber (f : RF) : Nat := f.b.toNat * 1024 + f.a.toNat * 32 + f.d.toNat

/-- NOP (R73). -/
def execNop (f : RF) (s : State) : Host.Outcome State Fault Refusal := issue (.nop f) (pure ()) s

/-- SAFEPT (R74): with a pre-emption pending the context stops there. -/
def execSafept (f : RF) (s : State) : Host.Outcome State Fault Refusal :=
  issue (.safept f) (do
    let s ← get
    match s.group? s.here.gid with
    | none => pure ()
    | some g =>
      if g.header.nsafe ≤ RF.sysNumber f then trapOf .illegal ((word0 (.safept f)).setWidth 64)
      else if g.preempt && s.here.routine.isNone then set (s.modHere fun x => { x with stopped := some (some (RF.sysNumber f)) })
      else pure ()) s

/-- TRAP: it returns past itself (R75). -/
def execTrap (f : RF) (s : State) : Host.Outcome State Fault Refusal :=
  issue (.trap f) (throw (.trap { cause := .trap, tval := BitVec.ofNat 64 (RF.sysNumber f), after := true })) s
/-- BKPT: it returns to itself (R75). -/
def execBkpt (f : RF) (s : State) : Host.Outcome State Fault Refusal :=
  issue (.bkpt f) (trapOf .bkpt (BitVec.ofNat 64 (RF.sysNumber f))) s

/-- TRET (R76). -/
def execTret (f : RF) (s : State) : Host.Outcome State Fault Refusal :=
  issue (.tret f) (do
    let st ← readWord 0 wsTstatus 2
    if st / 16 % 2 = 0 then trapOf .illegal ((word0 (.tret f)).setWidth 64)
    let ret ← readWord 0 wsTretpc 8
    if ret % 4 ≠ 0 then trapOf .align (BitVec.ofNat 64 ret)
    modify fun s => s.returnFromTrap s.curCid s.curSlot) s

/-! ### System registers (R77 to R79) -/

/-- The offset from WP, the width in bytes and the bits that MTS refuses, of a register that lives in the workspace (R224,
R225). -/
def workspaceRegister (n : Nat) : Option (Nat × Nat × Word) :=
  match n with
  | 0 => some (wsRnd, 8, 0xFFFFE0F8)
  | 1 => some (wsSeed, 8, 0)
  | 2 => some (wsGctl, 8, ~~~ 0x33F)
  | 4 => some (wsTcause, 2, ~~~ 0xFFFF)
  | 5 => some (wsTval, 8, 0)
  | 6 => some (wsTretpc, 8, 0)
  | 7 => some (wsTstatus, 2, ~~~ 0xFF1F)
  | _ => none

/-- MODE (R78). -/
def modeWord (x : Slot) : Word :=
  BitVec.ofNat 64 (bitAt x.mode.det 0 + bitAt x.mode.gov 1 + bitAt x.mode.sbchk 2 + bitAt x.mode.task 3 + bitAt x.guest 4)

/-- WP (R77): a guest reads that of its home slot (R216). -/
def wpOf (s : State) : Word := BitVec.ofNat 64 ((if s.here.guest then s.here.homeSlot else s.curSlot) * 0x400)

/-- A system register outside the workspace; ISSUED as it stands before the reading instruction is counted. -/
def hardwareRegister (s : State) (n : Nat) : Word :=
  let c := s.hereCore
  match n with
  | 3 => modeWord s.here
  | 8 => wpOf s
  | 9 => match c.cload with
    | some v => v
    | none => BitVec.ofNat 64 (s.curCid * 2 ^ 26)
  | 10 => BitVec.ofNat 64 (s.ustore s.here.serial)
  | 11 => c.vlim
  | 12 => c.bankstall
  | 13 => c.issued - 1
  | 14 => tget c.lentIn s.curSlot 0
  | _ => tget c.lentOut s.curSlot 0

/-- A control word is read and written as a load and a store of it would be, which a range lock refuses (R77, R86). -/
def unlockedControl (off n : Nat) (write : Bool) : Do Unit := do
  let s ← get
  let a := s.curSlot * 0x400 + off
  if !s.here.guest && s.scratchLocked s.curCid a n write then trapOf .rangeLock (BitVec.ofNat 64 a) 0 write

/-- MFS (R77); TSTATUS bits [7:5] read 0 (R225). -/
def execMfs (f : RF) (s : State) : Host.Outcome State Fault Refusal :=
  issue (.mfs f) (do
    let v ← match workspaceRegister f.b.toNat with
      | some (off, n, _) => do
        unlockedControl off n false
        let v ← readWord 0 off n
        let v := BitVec.ofNat 64 v
        pure (if f.b = 7 then v &&& ~~~ 0xE0 else v)
      | none => do pure (hardwareRegister (← get) f.b.toNat)
    writeS 4 f.d 2 v) s

/-- A control word of the own workspace written as a store (R77); a guest's lies in its frame. -/
def storeControl (off n : Nat) (v : Word) (s : State) : State :=
  if s.here.guest then s.wsWrite s.curCid s.curSlot off (v.setWidth 128) (lowMask n)
  else s.storeChecked { home := .scratch s.curCid, addr := s.curSlot * 0x400 + off } (allOn (leBytes n v.toNat)) s.curCid

/-- A register of core or slot scope written. -/
def setHardware (n : Nat) (v : Word) (i : Nat) (c : Core) : Core :=
  match n with
  | 11 => { c with vlim := v }
  | 12 => { c with bankstall := v }
  | 13 => { c with issued := v }
  | 14 => { c with lentIn := tset c.lentIn i v }
  | _ => { c with lentOut := tset c.lentOut i v }

/-- MTS (R77): performed at issue; a reserved bit or a MODE of 6 or 7 is refused. -/
def execMts (f : RF) (s : State) : Host.Outcome State Fault Refusal :=
  issue (.mts f) (do
    let v ← readS 1 f.a
    match workspaceRegister f.b.toNat with
    | some (off, n, bad) =>
      if v &&& bad ≠ 0 ∨ (f.b = 0 ∧ 6 ≤ v.toNat % 8) then trapOf .illegal v
      unlockedControl off n true
      modify (storeControl off n v)
    | none =>
      if f.b = 11 ∧ v.toNat / 2 ^ 32 ≠ 0 then trapOf .illegal v
      modify fun s => s.modHereCore (setHardware f.b.toNat v s.curSlot)) s

/-- RDTIME (R80). -/
def execRdtime (f : RF) (s : State) : Host.Outcome State Fault Refusal :=
  issue (.rdtime f) (do
    let s ← get
    writeS 4 f.d 2 (s.gtcOf (dieOf s.curCid))) s

/-- The identifiers of GETID (R80). -/
def identifier (s : State) (sel : Nat) : Nat :=
  let x := s.here
  let pitch := match s.group? x.gid with | some g => g.pitch | none => []
  match sel with
  | 0 => s.curCid
  | 1 => x.idx
  | 2 => if x.guest then x.rank else pitch.idxOf x.home
  | 3 => if x.guest then x.ncore else pitch.length
  | 4 => s.node
  | 5 => x.home
  | 6 => s.regid x.region
  | _ => x.gid

/-- GETID (R80). -/
def execGetid (f : RF) (s : State) : Host.Outcome State Fault Refusal :=
  issue (.getid f) (do
    let s ← get
    writeS 4 f.d 2 (BitVec.ofNat 64 (identifier s f.b.toNat))) s

end Sys2Proof.Machine
end

