-- ==== Sys2Proof/Machine/Feed.lean ====
section
/-!
DEFINITION. Stream ports and channels bound and unbound (R115, R117, R118, R120).
-/
namespace Sys2Proof.Machine

/-- The base of a stream: a, the last's, or that of the handle that the last names (R115). -/
def streamBase (l : Last) (n : Nat) (write : Bool) (a : Word) : Do Word := do
  if l.hnd then
    let k := l.base.toNat
    let s ← get
    let h := s.handle s.curCid k
    if write || h.state != .full then trapOf .handle l.base
    else if h.swz ≠ l.swz then trapOf .swizzle l.base
    else if a ≠ 0 then trapOf .shape (BitVec.ofNat 64 n)
    else pure (BitVec.ofNat 64 h.base)
  else pure (if a = 0 then l.base else a)

/-- The walk of this core over a last, whose shape a stream accepts (R115). -/
def streamWalk (l : Last) (n rank : Nat) (write : Bool) (base : Word) : Do (List (Nat × Nat × Word)) := do
  let size := elementBits l.etype / 8
  let dims := (0, l.rowBytes / 16, (16 : Word)) :: [1, 2, 3].map fun d =>
    ((l.visit rank d write).1, (l.visit rank d write).2, l.stride d)
  let empty := dims.any fun d => d.2.1 == 0
  let aligned := (base + walkOffset dims 0).toNat % 16 == 0 && dims.all fun d => decide (d.2.1 ≤ 1) || d.2.2.toNat % 16 == 0
  if elementBits l.etype % 8 ≠ 0 ∨ size = 0 ∨ l.s0 ≠ size ∨ l.rowBytes % 16 ≠ 0 then trapOf .shape (BitVec.ofNat 64 n)
  else if !empty && !aligned then trapOf .shape (BitVec.ofNat 64 n)
  else pure dims

/-- A port bound, and the words that it may fetch ahead (R115, R116). -/
def State.bindStream (s : State) (cid port : Nat) (p : Stream) : State :=
  (s.modCore cid fun c => { c with streams := tset c.streams port p }).schedule (.cycle s.cycle) (rankOf cid) .streamPrefetch
    { a := cid, b := port }

/-- A write stream with writes that are not acknowledged, or not yet performed in the own scratchpad (R117). -/
def writesLeft (s : State) (port : Nat) : Bool :=
  match tfind s.hereCore.streams port with
  | some p => p.write && (decide (0 < p.unacked) || decide (0 < p.pending))
  | none => false

/-- STBIND (R115): on a bound port it first performs STEND.  What a handle has to meet is checked before the shape (log 61). -/
def execStbind (f : XF) (s : State) : Host.Outcome State Fault Refusal :=
  issue (.stbind f) (do
    let a ← readS 1 f.a
    let n := (f.aux32.extractLsb' 0 6).toNat
    let write := f.aux8.getLsbD 0
    let port := f.d.toNat - 16
    let l ← readLast n
    let base ← streamBase l n write a
    let s ← get
    let dims ← streamWalk l n s.hereCore.rank write base
    let p : Stream := { write := write, base := base, dims := dims, slot := s.curSlot, home := s.here.home }
    if writesLeft s port then wait (.stend port (some p)) (.stbind f)
    else modify fun s => s.bindStream s.curCid port p) s

/-- STEND (R117). -/
def execStend (f : XF) (s : State) : Host.Outcome State Fault Refusal :=
  issue (.stend f) (do
    let port := f.d.toNat - 16
    let s ← get
    if (tfind s.hereCore.streams port).isNone then trapOf .channel (BitVec.ofNat 64 f.d.toNat)
    else if writesLeft s port then wait (.stend port none) (.stend f)
    else modify fun s => s.modHereCore fun c => { c with streams := tdel c.streams port }) s

/-- The end of a channel now, or when its outbound queue has drained (R120). -/
def leaveChannel (ch : Nat) (b : Option Binding) (ins : Instr) : Do Unit := do
  let s ← get
  if s.drained s.curCid ch then modify fun s => s.endChannel s.curCid ch b
  else wait (.chend ch b) ins

/-- CHBIND (R118): on a bound channel it first performs CHEND. -/
def execChbind (f : XF) (s : State) : Host.Outcome State Fault Refusal :=
  issue (.chbind f) (do
    let a ← readS 1 f.a
    let ch := f.d.toNat - 28
    let s ← get
    let target := a.toNat % 2 ^ 11
    if a &&& ~~~ 0x37FF ≠ 0 then trapOf .channel a
    else if !s.livePitch target s.here.region then trapOf .peerGone a
    else
      let b : Binding := { cid := target, remote := a.toNat / 2 ^ 12 % 4, gid := (s.core target).gid }
      if (s.chan s.curCid ch).bound.isSome then leaveChannel ch (some b) (.chbind f)
      else modify fun s => s.bindChannel s.curCid ch b) s

/-- CHEND (R120). -/
def execChend (f : XF) (s : State) : Host.Outcome State Fault Refusal :=
  issue (.chend f) (do
    let ch := f.d.toNat - 28
    let s ← get
    if (s.chan s.curCid ch).bound.isNone then trapOf .channel (BitVec.ofNat 64 f.d.toNat)
    else leaveChannel ch none (.chend f)) s

end Sys2Proof.Machine
end

