-- ==== Sys2Proof/Machine/Fence.lean ====
section
/-!
DEFINITION. Fences (R98 to R100).
-/
namespace Sys2Proof.Machine

/-- The place of a stop among the checks of R82. -/
def Stop.order : Stop → Nat
  | .trap t =>
    match t.cause with
    | .align => 0
    | .xlate => 1
    | .perm => 2
    | _ => 3
  | .miss _ => 1
  | _ => 0

/-- Of two stops the one whose check comes first, and of one check the first met. -/
def firstStop : Option Stop → Stop → Stop
  | none, e => e
  | some d, e => if e.order < d.order then e else d

/-- The first n 16-byte units of a longer access: the stop of the first check of R82 that any of them fails, or their
places.  TVAL is the access's own address. -/
def checkUnits (s : State) (va : Word) (use : Nat) (k : Access) : Nat → Option Stop × List Loc × State
  | 0 => (none, [], s)
  | n + 1 =>
    let r := checkUnits s va use k n
    match checkAccess r.2.2 s.curCid s.here (va + BitVec.ofNat 64 (16 * n)) 16 use k with
    | .ok (l, t) => (r.1, r.2.1 ++ [l], t)
    | .error (.trap t) => (some (firstStop r.1 (.trap { t with tval := va })), r.2.1, r.2.2)
    | .error e => (some (firstStop r.1 e), r.2.1, r.2.2)

/-- The places of the units of a longer access. -/
def checkedUnits (va : Word) (n use : Nat) (k : Access) : Do (List Loc) := do
  let s ← get
  match checkUnits s va use k n with
  | (some e, _, _) => throw e
  | (none, ls, t) =>
    set t
    pure ls

/-- A fence of a scope: it ends at once when nothing is outstanding in it, else its context waits (R98). -/
def fence (scope : Nat) (ins : Instr) (d : Dest) (bitmap : Option (Word × List Loc)) (isS : Bool) : Do Unit := do
  let s ← get
  if s.unackedIn s.here.serial scope = 0 then
    set (s.fenceEffect s.curCid s.curSlot scope d bitmap isS 0 id)
  else wait (.fence scope d bitmap isS 0) ins

/-- FENCE.C (R98). -/
def execFenceC (f : RF) (s : State) : Host.Outcome State Fault Refusal := issue (.fenceC f) (fence 0 (.fenceC f) .none none false) s
/-- FENCE.K (R98). -/
def execFenceK (f : RF) (s : State) : Host.Outcome State Fault Refusal := issue (.fenceK f) (fence 1 (.fenceK f) .none none false) s
/-- FENCE.P (R98). -/
def execFenceP (f : RF) (s : State) : Host.Outcome State Fault Refusal := issue (.fenceP f) (fence 2 (.fenceP f) .none none false) s

/-- FENCE.S (R100): the bitmap address is checked at issue. -/
def execFenceS (f : RF) (s : State) : Host.Outcome State Fault Refusal :=
  issue (.fenceS f) (do
    let bitmap ← if f.a = 0 then pure none else do
      let va ← readS 1 f.a
      let ls ← checkedUnits va 8 1 .store
      pure (some (va, ls))
    let d ← destS 4 f.d
    fence 3 (.fenceS f) d bitmap true) s

end Sys2Proof.Machine
end

