-- ==== Sys2Proof/Machine/Gauss.lean ====
section
/-!
DEFINITION. Gaussian message instructions (R177 to R187) and the service of the special-function unit (R123, R180).
-/
namespace Sys2Proof.Machine

/-! ### Arithmetic (R181 to R186): FP32, one rounding by RNE to an assignment -/

namespace Gauss

/-- t − x·y. -/
def subMul (t x y : Nat) : Nat :=
  roundF f32 .rne (FVal.add false (decodeF f32 t) (FVal.mul (decodeF f32 x) (decodeF f32 y)).neg)

def div (a b : Nat) : Nat := divF f32 .rne a b

/-- √s of a positive number. -/
def sqrt (s : Nat) : Nat :=
  match decodeF f32 s with
  | .fin _ m e =>
    let x := if e % 2 = 0 then m * 2 ^ 80 else m * 2 ^ 81
    let h := if e % 2 = 0 then (e - 80) / 2 else (e - 81) / 2
    let r := Sfu.isqrtLoop x 0 (2 ^ 53) 54
    roundFin f32 .rne false r h (r * r != x)
  | _ => s

/-- t less the products of n pairs, each with its rounding. -/
def reduce (t : Nat) (x y : Nat → Nat) (ks : List Nat) : Nat := ks.foldl (fun t k => subMul t (x k) (y k)) t

/-- An entry of a list of columns. -/
def at_ (cols : List (List Nat)) (i k : Nat) : Nat := (cols.getD k []).getD i 0

/-- The columns of CHOL from j on, and whether a pivot has been clamped; the index of a singular pivot (R182). -/
def columns (M : Nat → Nat → Nat) (p base thr : Nat) (clamp : Bool) (cols : List (List Nat)) (cl : Bool) :
    List Nat → Except Nat (List (List Nat) × Bool)
  | [] => .ok (cols, cl)
  | j :: js =>
    let s := reduce (M j j) (at_ cols j) (at_ cols j) (List.range j)
    let v := decodeF f32 s
    let low := v.isNan || decide (FVal.cmp v (decodeF f32 thr) ≤ 0)
    if low && !clamp then .error (base + j)
    else
      let d := sqrt (if low then thr else s)
      let col := (List.range p).map fun i =>
        if i < j then 0 else if i = j then d else div (reduce (M i j) (at_ cols i) (at_ cols j) (List.range j)) d
      columns M p base thr clamp (cols ++ [col]) (cl || low) js

/-- CHOL (R182): the columns of L. -/
def chol (M : Nat → Nat → Nat) (p base eps : Nat) (clamp : Bool) : Except Nat (List (List Nat) × Bool) :=
  let diag := (List.range p).map fun i => decodeF f32 (M i i)
  if diag.any FVal.isNan then .error base
  else
    let mx := diag.foldl (fun a b => if FVal.cmp a b < 0 then b else a) (.inf true)
    match mx with
    | .fin false (m + 1) e =>
      let thr := Nat.max (roundF f32 .rne (.fin false (m + 1) (e - eps))) 1
      columns M p base thr clamp [] false (List.range p)
    | _ => .error base

/-- A forward substitution L·x = v. -/
def forward (L : List (List Nat)) (v : Nat → Nat) (p : Nat) : List Nat :=
  (List.range p).foldl (fun x i => x ++ [div (reduce (v i) (at_ L i) (fun k => x.getD k 0) (List.range i)) (at_ L i i)]) []

/-- The back substitution Lᵀ·x = y: the elements from the last one down. -/
def backward (L : List (List Nat)) (y : List Nat) (p : Nat) : List Nat :=
  (List.range p).foldl (fun x r =>
    let i := p - 1 - r
    div (reduce (y.getD i 0) (fun k => at_ L k i) (fun k => x.getD (k - i - 1) 0) (rangeFrom (i + 1) r)) (at_ L i i) :: x) []

/-- |v|. -/
def abs : FVal → FVal
  | .nan => .nan
  | .inf _ => .inf false
  | .fin _ m e => .fin false m e

/-- An element that a message meets (R185): a weight of 0 takes no part. -/
def blend1 (damp msg old : Nat) : Nat :=
  if damp = 0 then msg
  else roundF f32 .rne (FVal.add false (FVal.mul (.fin false (65536 - damp) (-16)) (decodeF f32 msg))
    (FVal.mul (.fin false damp (-16)) (decodeF f32 old)))

/-- The blend of a list of elements and its residual (R185, R186). -/
def blend (damp : Nat) (msgs olds : List Nat) : List Nat × Nat :=
  (msgs.zip olds).foldl (fun acc p =>
    let v := blend1 damp p.1 p.2
    let d := abs (FVal.add false (decodeF f32 v) (decodeF f32 p.2).neg)
    (acc.1 ++ [v], roundF f32 .rne (FVal.add false (decodeF f32 acc.2) d))) ([], 0)

end Gauss

/-! ### Records and joint blocks (R177) -/

/-- A word of a scratchpad. -/
def spWord (sp : Mem) (a : Nat) : Nat := leNat (sp.bytes a 4)

/-- The elements of a record of dimension n: η, then Λ row by row. -/
def recordElems (sp : Mem) (a n : Nat) : List Nat :=
  (List.range n).map (fun i => spWord sp (a + 32 + 4 * i))
    ++ (List.range n).flatMap fun i => (List.range n).map fun j => spWord sp (a + 64 + 32 * i + 4 * j)

/-- What a plain result writes: N, η and Λ with zeros beyond n (R181). -/
def plainOut (d n : Nat) (xs : List Nat) : List (Nat × List Byte) :=
  let eta := (List.range 8).flatMap fun i => leBytes 4 (if i < n then xs.getD i 0 else 0)
  let lam := (List.range 8).flatMap fun i => (List.range 8).flatMap fun j =>
    leBytes 4 (if i < n ∧ j < n then xs.getD (n + n * i + j) 0 else 0)
  [(d + 1, leBytes 1 n), (d + 32, eta ++ lam)]

/-- What a landing writes (R185): the leading block, and SEQ, RESID, SRC. -/
def landOut (d n seq resid src : Nat) (xs : List Nat) : List (Nat × List Byte) :=
  [(d + 4, leBytes 4 seq ++ leBytes 4 resid ++ leBytes 4 src), (d + 32, (xs.take n).flatMap fun x => leBytes 4 x)]
    ++ (List.range n).map fun i => (d + 64 + 32 * i, ((xs.drop (n + n * i)).take n).flatMap fun x => leBytes 4 x)

/-- The result of GMADD or GMSUB, plain or .J (R181). -/
def sumOut (sp : Mem) (sub joint : Bool) (n o a b d : Nat) : List (Nat × List Byte) :=
  let op := if sub then subF f32 .rne else addF f32 .rne
  if !joint then plainOut d n (((recordElems sp a n).zip (recordElems sp b n)).map fun p => op p.1 p.2)
  else
    let inBlock := fun i => decide (o ≤ i) && decide (i < o + n)
    let eta := (List.range 16).flatMap fun i =>
      let x := spWord sp (a + 4 * i)
      leBytes 4 (if inBlock i then op x (spWord sp (b + 32 + 4 * (i - o))) else x)
    let lam := (List.range 16).flatMap fun i => (List.range 16).flatMap fun j =>
      let x := spWord sp (a + 64 + 64 * i + 4 * j)
      leBytes 4 (if inBlock i && inBlock j then op x (spWord sp (b + 64 + 32 * (i - o) + 4 * (j - o))) else x)
    [(d, eta ++ lam)]

/-- What a request of the special-function unit computes: bytes to write and whether a pivot was clamped, or the index of a
singular pivot. -/
abbrev GaussOut := Except Nat (List (Nat × List Byte) × Bool)

/-- GMSCHUR (R182). -/
def schurOut (sp : Mem) (n m eps : Nat) (clamp : Bool) (a d : Nat) : GaussOut :=
  let lam := fun i j => spWord sp (a + 64 + 64 * i + 4 * j)
  let eta := fun i => spWord sp (a + 4 * i)
  let p := n - m
  let kept := fun (W : List (List Nat)) (z : List Nat) =>
    let ks := List.range p
    let l := fun i j => Gauss.reduce (lam i j) (fun k => Gauss.at_ W k i) (fun k => Gauss.at_ W k j) ks
    plainOut d m ((List.range m).map (fun i => Gauss.reduce (eta i) (fun k => Gauss.at_ W k i) (fun k => z.getD k 0) ks)
      ++ (List.range m).flatMap fun i => (List.range m).map fun j => if j ≤ i then l i j else l j i)
  if p = 0 then .ok (kept [] [], false)
  else
    match Gauss.chol (fun i j => lam (m + i) (m + j)) p m eps clamp with
    | .error j => .error j
    | .ok (L, cl) =>
      .ok (kept ((List.range m).map fun c => Gauss.forward L (fun i => lam (m + i) c) p) (Gauss.forward L (fun i => eta (m + i)) p), cl)

/-- GMMEAN (R183). -/
def meanOut (sp : Mem) (n eps : Nat) (clamp : Bool) (a d : Nat) : GaussOut :=
  match Gauss.chol (fun i j => spWord sp (a + 64 + 32 * i + 4 * j)) n 0 eps clamp with
  | .error j => .error j
  | .ok (L, cl) =>
    let mu := Gauss.backward L (Gauss.forward L (fun i => spWord sp (a + 32 + 4 * i)) n) n
    .ok ([(d, (List.range 8).flatMap fun i => leBytes 4 (mu.getD i 0))], cl)

/-- GMDAMP (R186). -/
def dampOut (sp : Mem) (n delta a b d : Nat) : List (Nat × List Byte) :=
  let r := Gauss.blend delta (recordElems sp a n) (recordElems sp b n)
  (d + 8, leBytes 4 r.2) :: plainOut d n r.1

/-! ### Fields (R178) -/

def XF.dim8 (f : XF) : Nat := f.aux8.toNat % 8 + 1
def XF.offset (f : XF) : Nat := f.aux32.toNat / 2 % 16

/-- The result of a request read at its service (R180); eps and clamp as the issue read them. -/
def gaussEval (sp : Mem) (gctl : Nat) (addrs : List Nat) (ins : Instr) : GaussOut :=
  let a := addrs.getD 0 0
  let b := addrs.getD 1 0
  let d := addrs.getD 2 0
  let eps := gctl % 64
  let clamp := gctl / 256 % 2 == 1
  match ins with
  | .gmadd f => .ok (sumOut sp false false (XF.dim8 f) 0 a b d, false)
  | .gmaddJ f => .ok (sumOut sp false true (XF.dim8 f) (XF.offset f) a b d, false)
  | .gmsub f => .ok (sumOut sp true false (XF.dim8 f) 0 a b d, false)
  | .gmsubJ f => .ok (sumOut sp true true (XF.dim8 f) (XF.offset f) a b d, false)
  | .gmschur f => schurOut sp (f.aux8.toNat % 16 + 1) (f.aux8.toNat / 16 % 8 + 1) eps clamp a d
  | .gmdamp f => .ok (dampOut sp (XF.dim8 f) (f.aux32.toNat % 2 ^ 16) a b d, false)
  | .gmmean f => meanOut sp (XF.dim8 f) eps clamp a d
  | _ => .ok ([], false)

/-- The cycles for which a request occupies the unit (R123, R180). -/
def sfuOccupancy (ins : Instr) : Nat :=
  match ins with
  | .gmadd _ | .gmaddJ _ | .gmsub _ | .gmsubJ _ | .gmdamp _ => 18
  | .gmschur f => 8 + 2 * (f.aux8.toNat % 16 + 1) ^ 2
  | .gmmean f => 8 + 2 * (XF.dim8 f) ^ 2
  | .srcp f | .srsq f | .sexp2 f | .slog2 f | .ssin f | .scos f | .stanh f | .ssigm f => (lanes f.et + 3) / 4
  | _ => 1

/-- A Gaussian request. -/
def isGauss (ins : Instr) : Bool := ins.major == 0x24

/-! ### Issue (R179, R180) -/

/-- The checks of a block in the own scratchpad: alignment, place, lock (R179). -/
def gaussBlock (a : Word) (align size use : Nat) (write : Bool) : Do Nat := do
  if a.toNat % align ≠ 0 then trapOf .align a use write
  else if a.toNat < 0x5000 ∨ 0x60000 < a.toNat + size then trapOf .shape a use write
  else
    scanLock a size use write
    pure a.toNat

/-- A request put into the queue (R180). -/
def gaussRequest (ins : Instr) (gctl : Nat) (addrs : List Nat) : Do Unit :=
  modify fun s => s.enqueueSfu s.curCid s.curSlot ins { lanes := 0, a := BitVec.ofNat 128 gctl } (.q 0) addrs

/-- GMADD, GMSUB and their .J forms (R181). -/
def gaussSum (ins : Instr) (f : XF) (joint : Bool) : Do Unit := do
  let a ← readS 1 f.a
  let b ← readS 2 f.b
  let d ← readS 4 f.d
  let size := if joint then 1088 else 320
  let x ← gaussBlock a 64 size 1 false
  let y ← gaussBlock b 64 320 2 false
  let z ← gaussBlock d 64 size 4 true
  gaussRequest ins 0 [x, y, z]

/-- GMADD (R181). -/
def execGmadd (f : XF) (s : State) : Host.Outcome State Fault Refusal := issue (.gmadd f) (gaussSum (.gmadd f) f false) s
/-- GMADD.J (R181). -/
def execGmaddJ (f : XF) (s : State) : Host.Outcome State Fault Refusal := issue (.gmaddJ f) (gaussSum (.gmaddJ f) f true) s
/-- GMSUB (R181). -/
def execGmsub (f : XF) (s : State) : Host.Outcome State Fault Refusal := issue (.gmsub f) (gaussSum (.gmsub f) f false) s
/-- GMSUB.J (R181). -/
def execGmsubJ (f : XF) (s : State) : Host.Outcome State Fault Refusal := issue (.gmsubJ f) (gaussSum (.gmsubJ f) f true) s

/-- GMSCHUR (R182). -/
def execGmschur (f : XF) (s : State) : Host.Outcome State Fault Refusal :=
  issue (.gmschur f) (do
    let a ← readS 1 f.a
    let d ← readS 4 f.d
    let x ← gaussBlock a 64 1088 1 false
    let z ← gaussBlock d 64 320 4 true
    let g ← readWord 0 wsGctl 8
    gaussRequest (.gmschur f) g [x, 0, z]) s

/-- GMDAMP (R186). -/
def execGmdamp (f : XF) (s : State) : Host.Outcome State Fault Refusal :=
  issue (.gmdamp f) (do
    let a ← readS 1 f.a
    let b ← readS 2 f.b
    let d ← readS 4 f.d
    let x ← gaussBlock a 64 320 1 false
    let y ← gaussBlock b 64 320 2 false
    let z ← gaussBlock d 64 320 4 true
    gaussRequest (.gmdamp f) 0 [x, y, z]) s

/-- GMMEAN (R183). -/
def execGmmean (f : XF) (s : State) : Host.Outcome State Fault Refusal :=
  issue (.gmmean f) (do
    let a ← readS 1 f.a
    let d ← readS 4 f.d
    let x ← gaussBlock a 64 320 1 false
    let z ← gaussBlock d 16 32 4 true
    let g ← readWord 0 wsGctl 8
    gaussRequest (.gmmean f) g [x, 0, z]) s

/-! ### GMSEND (R184, R185) -/

namespace State

/-- Bytes written at an offset of a scratchpad, in one step. -/
def spStore (s : State) (cid : Nat) (out : List (Nat × List Byte)) : State :=
  out.foldl (fun s p => s.storeChecked { home := .scratch cid, addr := p.1 } (allOn p.2) cid) s

/-- A message lands in a record, or is refused there (R185). -/
def landGauss (s : State) (m : Msg) : State :=
  match m.loc.home with
  | .scratch h =>
    let d := m.loc.addr
    let sp := (s.core h).sp
    let n := leNat (m.bytes.take 1)
    let tag := (sp.get d).toNat
    if (sp.get (d + 1)).toNat ≠ n ∨ 64 ≤ tag then
      (s.mbAbandon h (tag % 64)).setPeerError m.cid m.slot m.serial s.node true
    else
      let xs := (List.range (n + n * n)).map fun i => leNat ((m.bytes.drop (5 + 4 * i)).take 4)
      let r := Gauss.blend (leNat (sp.bytes (d + 2) 2)) xs (recordElems sp d n)
      (s.spStore h (landOut d n (leNat ((m.bytes.drop 1).take 4)) r.2 m.cid r.1)).mbCount h tag
  | _ => s

/-- GMSEND_LANDING: the check at the home, the landing, and the acknowledgement (R184, R185). -/
def gaussLands (s : State) : State :=
  match s.msg? s.obj.a with
  | none => s
  | some m =>
    let s := s.modMsg m.id fun x => { x with performed := true }
    let s := match s.homeRefuses m 320 true with
      | some _ => (s.setPeerError m.cid m.slot m.serial s.node true).modMsg m.id fun x => { x with resp := some .failed }
      | none => s.landGauss m
    s.respond m.id

end State

/-- The destination of a GMSEND (R184): a record in the own or a peer scratchpad, checked by R82. -/
def gaussDest (a : Word) : Do Loc := do
  if a.toNat % 64 ≠ 0 then trapOf .align a 1 true
  else
    let s ← get
    match windowOf a with
    | .global _ => trapOf .shape a 1 true
    | w =>
      let off := match w with | .scratch o => o | .peer _ o => o | _ => 0
      if 0x60000 < off + 320 then trapOf .xlate a 1 true
      else
        match checkPlace s s.curCid s.here a 320 1 .store with
        | .error e => throw e
        | .ok (l, s') =>
          set s'
          pure l

/-- GMSEND (R184): the source is read at issue. -/
def execGmsend (f : XF) (s : State) : Host.Outcome State Fault Refusal :=
  issue (.gmsend f) (do
    let a ← readS 1 f.a
    let b ← readS 2 f.b
    let l ← gaussDest a
    let y ← gaussBlock b 64 320 2 false
    let s ← get
    let sp := s.hereCore.sp
    let n := (sp.get (y + 1)).toNat
    if n < 1 ∨ 8 < n then trapOf .shape b 2
    else
      let _ ← readOwn 2 b { home := .scratch s.curCid, addr := y } 320
      let s ← get
      let bytes := leBytes 1 n ++ sp.bytes (y + 4) 4 ++ (recordElems sp y n).flatMap fun x => leBytes 4 x
      let m := { message s .gmsend 1 a l 320 (.gmsend f) with bytes := bytes }
      if l.home = .scratch s.curCid then set (s.landGauss m) else postStore m (.gmsend f)) s

/-- GMSEND_LANDING (R185). -/
def execGmsendLanding (s : State) : Host.Outcome State Fault Refusal := stepTo State.gaussLands s

/-! ### GMPOLL (R187) -/

/-- The rank of a residual: a NaN above every number, none where it is not positive. -/
def pollRank (x : Nat) : Nat := if (decodeF f32 x).isNan then 2 ^ 31 else if x < 2 ^ 31 then x else 0

/-- The first record of the highest rank among those of a list, with that rank. -/
def pollBest (sp : Mem) (a : Nat) : List Nat → Option (Nat × Nat)
  | [] => none
  | i :: is =>
    let r := pollRank (spWord sp (a + 320 * i + 8))
    match pollBest sp a is with
    | some (j, q) => if r = 0 ∨ r < q then some (j, q) else some (i, r)
    | none => if r = 0 then none else some (i, r)

/-- GMPOLL (R187): reads and writes as one access at issue. -/
def execGmpoll (f : XF) (s : State) : Host.Outcome State Fault Refusal :=
  issue (.gmpoll f) (do
    let a ← readS 1 f.a
    let k := f.aux8.toNat % 64 + 1
    let x ← gaussBlock a 64 (320 * k) 1 true
    let s ← get
    let _ ← readOwn 1 a { home := .scratch s.curCid, addr := x } (320 * k)
    let s ← get
    match pollBest s.hereCore.sp x (List.range k) with
    | none => writeS 4 f.d 6 (BitVec.allOnes 64)
    | some (i, _) => do
      writeS 4 f.d 6 (BitVec.ofNat 64 i)
      modify fun s => s.spStore s.curCid [(x + 320 * i + 8, [0, 0, 0, 0])]) s

/-! ### The special-function unit (R123, R180) -/

namespace State

/-- A request is older than another: it was issued in an earlier cycle, or in the same one on a lower core (R123). -/
def older (r q : SfuReq) : Bool := decide (r.cycle < q.cycle) || (r.cycle == q.cycle && decide (r.cid < q.cid))

/-- The oldest request that has not been served. -/
def nextRequest (s : State) (cl : Nat) : Option SfuReq :=
  (s.cluster cl).sfu.foldl (fun b r =>
    if r.served then b
    else match b with
      | some q => if older r q then some r else some q
      | none => some r) none

/-- A request changed. -/
def putRequest (s : State) (cl : Nat) (r : SfuReq) : State :=
  s.modCluster cl fun c => { c with sfu := c.sfu.map fun x => if x.id == r.id then r else x }

/-- The operands of a Gaussian request read in one step (R180). -/
def serveGauss (s : State) (r : SfuReq) : SfuReq :=
  match gaussEval (s.core r.cid).sp r.inputs.a.toNat r.addrs r.ins with
  | .ok (out, cl) => { r with served := true, out := out, clamped := cl }
  | .error j => { r with served := true, trap := some { cause := .singular, tval := BitVec.ofNat 64 j } }

/-- The operands of a request that is served are read in the order of the source number of its core (R180, R236). -/
def readSfu (s : State) (cl id : Nat) : State :=
  match (s.cluster cl).sfu.find? fun r => r.id == id with
  | some r => if isGauss r.ins then s.putRequest cl (s.serveGauss r) else s
  | none => s

/-- SFU_SERVICE_START (R123): the oldest request is served once the unit is free, no earlier than the cycle after its
issue; its operands are read in the same cycle. -/
def serveSfu (s : State) : State :=
  let cl := s.obj.a
  if s.obj.b ≠ 0 then s.readSfu cl s.obj.b
  else
  match s.nextRequest cl with
  | none => s
  | some r =>
    let t := Nat.max (r.cycle + 1) (s.cluster cl).sfuFree
    if s.cycle < t then s.schedule (.cycle t) 0 .sfuServiceStart { a := cl }
    else
      let occ := sfuOccupancy r.ins
      let s := s.putRequest cl { r with served := true }
      let s := s.modCluster cl fun c => { c with sfuFree := s.cycle + occ }
      let s := if isGauss r.ins then s.schedule (.cycle s.cycle) (rankOf r.cid) .sfuServiceStart { a := cl, b := r.id } else s
      let due := s.cycle + 24 + if isGauss r.ins then occ else 0
      let s := s.schedule (.cycle due) (rankOf r.cid) .sfuCompletion { a := cl, b := r.id }
      if (s.nextRequest cl).isSome then s.schedule (.cycle (s.cycle + occ)) 0 .sfuServiceStart { a := cl } else s

/-- The result of a request written, whether or not its helper is still live (R191). -/
def writeSfu (s : State) (r : SfuReq) : State :=
  let s := if r.clamped then s.setWord64 r.cid r.slot wsGctl (s.word64 r.cid r.slot wsGctl ||| 0x200) else s
  let o := vEval r.ins r.inputs
  if isGauss r.ins then s else s.placeV r.cid r.slot r.dest o.data o.mask

/-- SFU_COMPLETION (R123, R180): the result is written in one step with the return token, or the trap is taken. -/
def completeSfu (s : State) : State :=
  let cl := s.obj.a
  match (s.cluster cl).sfu.find? fun r => r.id == s.obj.b with
  | none => s
  | some r =>
    let s := s.modCluster cl fun c => { c with sfu := c.sfu.filter fun x => x.id != r.id }
    let s := if isGauss r.ins ∧ r.trap.isNone then s.spStore r.cid r.out else s
    let gid := (s.core r.cid).gid
    let s := if r.trap.isSome then s else s.writeSfu r
    let s := match s.ownerOf r.cid r.slot r.serial with
      | none => s
      | some (c, i) =>
        if (s.slot c i).wait ≠ Wait.sfu r.id then s
        else match r.trap with
          | some t => s.trapWaiting c i t
          | none => s.wakeLimited c i
    s.unitEnded gid

end State

/-- SFU_SERVICE_START (R123). -/
def execSfuServiceStart (s : State) : Host.Outcome State Fault Refusal := stepTo State.serveSfu s
/-- SFU_COMPLETION (R123). -/
def execSfuCompletion (s : State) : Host.Outcome State Fault Refusal := stepTo State.completeSfu s

end Sys2Proof.Machine
end

