-- ==== Sys2Proof/Machine/Scalar.lean ====
section
/-!
DEFINITION. Integer register operations and their immediate forms (R62 to R67).
-/
namespace Sys2Proof.Machine

/-- d := op(a, b), readable after a latency (R62). -/
def binary (f : RF) (lat : Nat) (op : Word → Word → Word) : Do Unit := do
  let a ← readS 1 f.a
  let b ← readS 2 f.b
  writeS 4 f.d lat (op a b)

/-- d := op(a) (R62). -/
def unary (f : RF) (lat : Nat) (op : Word → Word) : Do Unit := do
  let a ← readS 1 f.a
  writeS 4 f.d lat (op a)

/-- d := op(old d, a, b) (R62). -/
def ternary (f : RF) (lat : Nat) (op : Word → Word → Word → Word) : Do Unit := do
  let a ← readS 1 f.a
  let b ← readS 2 f.b
  let old ← readS 4 f.d
  writeS 4 f.d lat (op old a b)

/-- d := op(a, imm) (R67). -/
def immediate (d a : BitVec 5) (imm : Word) (op : Word → Word → Word) : Do Unit := do
  let a ← readS 1 a
  writeS 4 d 2 (op a imm)

/-- ADD (R63). -/
def execAdd (f : RF) (s : State) : Host.Outcome State Fault Refusal :=
  issue (.add f) (binary f 2 (· + ·)) s

/-- SUB (R63). -/
def execSub (f : RF) (s : State) : Host.Outcome State Fault Refusal :=
  issue (.sub f) (binary f 2 (· - ·)) s

/-- MUL (R63). -/
def execMul (f : RF) (s : State) : Host.Outcome State Fault Refusal :=
  issue (.mul f) (binary f 4 (· * ·)) s

/-- MULH (R63). -/
def execMulh (f : RF) (s : State) : Host.Outcome State Fault Refusal :=
  issue (.mulh f) (binary f 4 Alu.mulh) s

/-- MULHU (R63). -/
def execMulhu (f : RF) (s : State) : Host.Outcome State Fault Refusal :=
  issue (.mulhu f) (binary f 4 Alu.mulhu) s

/-- DIV (R65). -/
def execDiv (f : RF) (s : State) : Host.Outcome State Fault Refusal :=
  issue (.div f) (binary f 36 Alu.div) s

/-- DIVU (R65). -/
def execDivu (f : RF) (s : State) : Host.Outcome State Fault Refusal :=
  issue (.divu f) (binary f 36 Alu.divu) s

/-- REM (R65). -/
def execRem (f : RF) (s : State) : Host.Outcome State Fault Refusal :=
  issue (.rem f) (binary f 36 Alu.rem) s

/-- REMU (R65). -/
def execRemu (f : RF) (s : State) : Host.Outcome State Fault Refusal :=
  issue (.remu f) (binary f 36 Alu.remu) s

/-- AND (R63). -/
def execAnd (f : RF) (s : State) : Host.Outcome State Fault Refusal :=
  issue (.and f) (binary f 2 (· &&& ·)) s

/-- OR (R63). -/
def execOr (f : RF) (s : State) : Host.Outcome State Fault Refusal :=
  issue (.or f) (binary f 2 (· ||| ·)) s

/-- XOR (R63). -/
def execXor (f : RF) (s : State) : Host.Outcome State Fault Refusal :=
  issue (.xor f) (binary f 2 (· ^^^ ·)) s

/-- ANDN (R63). -/
def execAndn (f : RF) (s : State) : Host.Outcome State Fault Refusal :=
  issue (.andn f) (binary f 2 (fun a b => a &&& ~~~ b)) s

/-- SHL (R64). -/
def execShl (f : RF) (s : State) : Host.Outcome State Fault Refusal :=
  issue (.shl f) (binary f 2 Alu.shl) s

/-- SHR (R64). -/
def execShr (f : RF) (s : State) : Host.Outcome State Fault Refusal :=
  issue (.shr f) (binary f 2 Alu.shr) s

/-- SRA (R64). -/
def execSra (f : RF) (s : State) : Host.Outcome State Fault Refusal :=
  issue (.sra f) (binary f 2 Alu.sra) s

/-- ROTR (R64). -/
def execRotr (f : RF) (s : State) : Host.Outcome State Fault Refusal :=
  issue (.rotr f) (binary f 2 Alu.rotr) s

/-- SLT (R63). -/
def execSlt (f : RF) (s : State) : Host.Outcome State Fault Refusal :=
  issue (.slt f) (binary f 2 Alu.slt) s

/-- SLTU (R63). -/
def execSltu (f : RF) (s : State) : Host.Outcome State Fault Refusal :=
  issue (.sltu f) (binary f 2 Alu.sltu) s

/-- MIN (R63). -/
def execMin (f : RF) (s : State) : Host.Outcome State Fault Refusal :=
  issue (.min f) (binary f 2 Alu.min) s

/-- MAX (R63). -/
def execMax (f : RF) (s : State) : Host.Outcome State Fault Refusal :=
  issue (.max f) (binary f 2 Alu.max) s

/-- MINU (R63). -/
def execMinu (f : RF) (s : State) : Host.Outcome State Fault Refusal :=
  issue (.minu f) (binary f 2 Alu.minu) s

/-- MAXU (R63). -/
def execMaxu (f : RF) (s : State) : Host.Outcome State Fault Refusal :=
  issue (.maxu f) (binary f 2 Alu.maxu) s

/-- SEL (R63). -/
def execSel (f : RF) (s : State) : Host.Outcome State Fault Refusal :=
  issue (.sel f) (ternary f 2 fun old a b => if old ≠ 0 then a else b) s

/-- CLZ (R63). -/
def execClz (f : RF) (s : State) : Host.Outcome State Fault Refusal :=
  issue (.clz f) (unary f 2 Alu.clz) s

/-- CTZ (R63). -/
def execCtz (f : RF) (s : State) : Host.Outcome State Fault Refusal :=
  issue (.ctz f) (unary f 2 Alu.ctz) s

/-- POPC (R63). -/
def execPopc (f : RF) (s : State) : Host.Outcome State Fault Refusal :=
  issue (.popc f) (unary f 2 Alu.popc) s

/-- BFX (R66). -/
def execBfx (f : RF) (s : State) : Host.Outcome State Fault Refusal :=
  issue (.bfx f) (binary f 2 Alu.bfx) s

/-- BFXU (R66). -/
def execBfxu (f : RF) (s : State) : Host.Outcome State Fault Refusal :=
  issue (.bfxu f) (binary f 2 Alu.bfxu) s

/-- BFI (R66). -/
def execBfi (f : RF) (s : State) : Host.Outcome State Fault Refusal :=
  issue (.bfi f) (ternary f 2 Alu.bfi) s

/-- ADDI (R67). -/
def execAddi (f : IF) (s : State) : Host.Outcome State Fault Refusal :=
  issue (.addi f) (immediate f.d f.a (f.imm.signExtend 64) (· + ·)) s

/-- ADDI with a literal (R67). -/
def execAddiLit (f : IL) (s : State) : Host.Outcome State Fault Refusal :=
  issue (.addiLit f) (immediate f.d f.a f.lit (· + ·)) s

/-- ANDI (R67). -/
def execAndi (f : IF) (s : State) : Host.Outcome State Fault Refusal :=
  issue (.andi f) (immediate f.d f.a (f.imm.signExtend 64) (· &&& ·)) s

/-- ANDI with a literal (R67). -/
def execAndiLit (f : IL) (s : State) : Host.Outcome State Fault Refusal :=
  issue (.andiLit f) (immediate f.d f.a f.lit (· &&& ·)) s

/-- ORI (R67). -/
def execOri (f : IF) (s : State) : Host.Outcome State Fault Refusal :=
  issue (.ori f) (immediate f.d f.a (f.imm.signExtend 64) (· ||| ·)) s

/-- ORI with a literal (R67). -/
def execOriLit (f : IL) (s : State) : Host.Outcome State Fault Refusal :=
  issue (.oriLit f) (immediate f.d f.a f.lit (· ||| ·)) s

/-- XORI (R67). -/
def execXori (f : IF) (s : State) : Host.Outcome State Fault Refusal :=
  issue (.xori f) (immediate f.d f.a (f.imm.signExtend 64) (· ^^^ ·)) s

/-- XORI with a literal (R67). -/
def execXoriLit (f : IL) (s : State) : Host.Outcome State Fault Refusal :=
  issue (.xoriLit f) (immediate f.d f.a f.lit (· ^^^ ·)) s

/-- SHLI (R67). -/
def execShli (f : IF) (s : State) : Host.Outcome State Fault Refusal :=
  issue (.shli f) (immediate f.d f.a (f.imm.signExtend 64) Alu.shl) s

/-- SHLI with a literal (R67). -/
def execShliLit (f : IL) (s : State) : Host.Outcome State Fault Refusal :=
  issue (.shliLit f) (immediate f.d f.a f.lit Alu.shl) s

/-- SHRI (R67). -/
def execShri (f : IF) (s : State) : Host.Outcome State Fault Refusal :=
  issue (.shri f) (immediate f.d f.a (f.imm.signExtend 64) Alu.shr) s

/-- SHRI with a literal (R67). -/
def execShriLit (f : IL) (s : State) : Host.Outcome State Fault Refusal :=
  issue (.shriLit f) (immediate f.d f.a f.lit Alu.shr) s

/-- SRAI (R67). -/
def execSrai (f : IF) (s : State) : Host.Outcome State Fault Refusal :=
  issue (.srai f) (immediate f.d f.a (f.imm.signExtend 64) Alu.sra) s

/-- SRAI with a literal (R67). -/
def execSraiLit (f : IL) (s : State) : Host.Outcome State Fault Refusal :=
  issue (.sraiLit f) (immediate f.d f.a f.lit Alu.sra) s

/-- SLTI (R67). -/
def execSlti (f : IF) (s : State) : Host.Outcome State Fault Refusal :=
  issue (.slti f) (immediate f.d f.a (f.imm.signExtend 64) Alu.slt) s

/-- SLTI with a literal (R67). -/
def execSltiLit (f : IL) (s : State) : Host.Outcome State Fault Refusal :=
  issue (.sltiLit f) (immediate f.d f.a f.lit Alu.slt) s

/-- SLTIU (R67). -/
def execSltiu (f : IF) (s : State) : Host.Outcome State Fault Refusal :=
  issue (.sltiu f) (immediate f.d f.a (f.imm.signExtend 64) Alu.sltu) s

/-- SLTIU with a literal (R67). -/
def execSltiuLit (f : IL) (s : State) : Host.Outcome State Fault Refusal :=
  issue (.sltiuLit f) (immediate f.d f.a f.lit Alu.sltu) s

/-- MOVI (R67). -/
def execMovi (f : IF) (s : State) : Host.Outcome State Fault Refusal :=
  issue (.movi f) (writeS 4 f.d 2 (f.imm.signExtend 64)) s

/-- MOVI with a literal (R67). -/
def execMoviLit (f : IL) (s : State) : Host.Outcome State Fault Refusal :=
  issue (.moviLit f) (writeS 4 f.d 2 f.lit) s

end Sys2Proof.Machine
end

