-- ==== Sys2Proof/Machine/ScalarFloat.lean ====
section
/-!
DEFINITION. Scalar FP32 operations (R68, R69).
-/
namespace Sys2Proof.Machine

/-- Bits [31:0] of an operand as an FP32 encoding (R68). -/
def low32 (w : Word) : Nat := w.toNat % 2 ^ 32

/-- The result of an operation of a rounding kind on a and, where it is used, b and the old d; it consumes one value of
SRCTR under SR (R37, R68).  RND and SEED are read before the operands (log 61). -/
def roundedScalar (f : RF) (useB old : Bool) (op : Mode → Word → Word → Word → Word) : Do Unit := do
  let r ← readRounding 0
  let a ← readS 1 f.a
  let b ← if useB then readS 2 f.b else pure 0
  let c ← if old then readS 4 f.d else pure 0
  writeS 4 f.d 6 (op (r.1.rm 0) a b c)
  if r.1.mode = 5 then consume r.2 1

/-- The result of an operation that does not round. -/
def plainScalar (f : RF) (useB : Bool) (op : Word → Word → Word) : Do Unit := do
  let a ← readS 1 f.a
  let b ← if useB then readS 2 f.b else pure 0
  writeS 4 f.d 6 (op a b)

/-- FADD (R68). -/
def execFadd (f : RF) (s : State) : Host.Outcome State Fault Refusal :=
  issueChecked (.fadd f) (modeIllegal 0) (roundedScalar f true false fun m a b _ => BitVec.ofNat 64 (addF f32 m (low32 a) (low32 b))) s

/-- FSUB (R68). -/
def execFsub (f : RF) (s : State) : Host.Outcome State Fault Refusal :=
  issueChecked (.fsub f) (modeIllegal 0) (roundedScalar f true false fun m a b _ => BitVec.ofNat 64 (subF f32 m (low32 a) (low32 b))) s

/-- FMUL (R68). -/
def execFmul (f : RF) (s : State) : Host.Outcome State Fault Refusal :=
  issueChecked (.fmul f) (modeIllegal 0) (roundedScalar f true false fun m a b _ => BitVec.ofNat 64 (mulF f32 m (low32 a) (low32 b))) s

/-- FFMA (R68). -/
def execFfma (f : RF) (s : State) : Host.Outcome State Fault Refusal :=
  issueChecked (.ffma f) (modeIllegal 0) (roundedScalar f true true fun m a b c => BitVec.ofNat 64 (fmaF f32 m (low32 a) (low32 b) (low32 c))) s

/-- FMIN (R68). -/
def execFmin (f : RF) (s : State) : Host.Outcome State Fault Refusal :=
  issue (.fmin f) (plainScalar f true fun a b => BitVec.ofNat 64 (minF f32 (low32 a) (low32 b))) s

/-- FMAX (R68). -/
def execFmax (f : RF) (s : State) : Host.Outcome State Fault Refusal :=
  issue (.fmax f) (plainScalar f true fun a b => BitVec.ofNat 64 (maxF f32 (low32 a) (low32 b))) s

/-- FABS (R68). -/
def execFabs (f : RF) (s : State) : Host.Outcome State Fault Refusal :=
  issue (.fabs f) (plainScalar f false fun a _ => a &&& 0x7FFFFFFF) s

/-- FNEG (R68). -/
def execFneg (f : RF) (s : State) : Host.Outcome State Fault Refusal :=
  issue (.fneg f) (plainScalar f false fun a _ => (a &&& 0xFFFFFFFF) ^^^ 0x80000000) s

/-- FCMPEQ (R68). -/
def execFcmpeq (f : RF) (s : State) : Host.Outcome State Fault Refusal :=
  issue (.fcmpeq f) (plainScalar f true fun a b => boolWord (eqF f32 (low32 a) (low32 b))) s

/-- FCMPLT (R68). -/
def execFcmplt (f : RF) (s : State) : Host.Outcome State Fault Refusal :=
  issue (.fcmplt f) (plainScalar f true fun a b => boolWord (ltF f32 (low32 a) (low32 b))) s

/-- FCMPLE (R68). -/
def execFcmple (f : RF) (s : State) : Host.Outcome State Fault Refusal :=
  issue (.fcmple f) (plainScalar f true fun a b => boolWord (leF f32 (low32 a) (low32 b))) s

/-- FCVTIF (R39, R68). -/
def execFcvtif (f : RF) (s : State) : Host.Outcome State Fault Refusal :=
  issueChecked (.fcvtif f) (modeIllegal 0) (roundedScalar f false false fun m a _ _ => BitVec.ofNat 64 (roundF f32 m (intVal a.toInt))) s

/-- FCVTFI (R39, R68). -/
def execFcvtfi (f : RF) (s : State) : Host.Outcome State Fault Refusal :=
  issueChecked (.fcvtfi f) (modeIllegal 0) (roundedScalar f false false fun m a _ _ => BitVec.ofInt 64 (floatToInt 64 true m (decodeF f32 (low32 a)))) s

/-- FCLASS (R69). -/
def execFclass (f : RF) (s : State) : Host.Outcome State Fault Refusal :=
  issue (.fclass f) (plainScalar f false fun a _ => BitVec.ofNat 64 (classOf (low32 a))) s

end Sys2Proof.Machine
end

