-- ==== Sys2Proof/Machine/Dispatch.lean ====
section
/-!
DEFINITION. One arm for each row of spec/opcode_table.json: the meaning of each instruction and of each step that is no instruction.
-/
namespace Sys2Proof.Machine

/-- What an instruction or a step does. -/
def exec (i : Instr) (s : State) : Host.Outcome State Fault Refusal :=
  match i with
  | .add f => Sys2Proof.Machine.execAdd f s
  | .sub f => Sys2Proof.Machine.execSub f s
  | .mul f => Sys2Proof.Machine.execMul f s
  | .mulh f => Sys2Proof.Machine.execMulh f s
  | .mulhu f => Sys2Proof.Machine.execMulhu f s
  | .div f => Sys2Proof.Machine.execDiv f s
  | .divu f => Sys2Proof.Machine.execDivu f s
  | .rem f => Sys2Proof.Machine.execRem f s
  | .remu f => Sys2Proof.Machine.execRemu f s
  | .and f => Sys2Proof.Machine.execAnd f s
  | .or f => Sys2Proof.Machine.execOr f s
  | .xor f => Sys2Proof.Machine.execXor f s
  | .andn f => Sys2Proof.Machine.execAndn f s
  | .shl f => Sys2Proof.Machine.execShl f s
  | .shr f => Sys2Proof.Machine.execShr f s
  | .sra f => Sys2Proof.Machine.execSra f s
  | .rotr f => Sys2Proof.Machine.execRotr f s
  | .slt f => Sys2Proof.Machine.execSlt f s
  | .sltu f => Sys2Proof.Machine.execSltu f s
  | .min f => Sys2Proof.Machine.execMin f s
  | .max f => Sys2Proof.Machine.execMax f s
  | .minu f => Sys2Proof.Machine.execMinu f s
  | .maxu f => Sys2Proof.Machine.execMaxu f s
  | .sel f => Sys2Proof.Machine.execSel f s
  | .clz f => Sys2Proof.Machine.execClz f s
  | .ctz f => Sys2Proof.Machine.execCtz f s
  | .popc f => Sys2Proof.Machine.execPopc f s
  | .bfx f => Sys2Proof.Machine.execBfx f s
  | .bfxu f => Sys2Proof.Machine.execBfxu f s
  | .bfi f => Sys2Proof.Machine.execBfi f s
  | .addi f => Sys2Proof.Machine.execAddi f s
  | .addiLit f => Sys2Proof.Machine.execAddiLit f s
  | .andi f => Sys2Proof.Machine.execAndi f s
  | .andiLit f => Sys2Proof.Machine.execAndiLit f s
  | .ori f => Sys2Proof.Machine.execOri f s
  | .oriLit f => Sys2Proof.Machine.execOriLit f s
  | .xori f => Sys2Proof.Machine.execXori f s
  | .xoriLit f => Sys2Proof.Machine.execXoriLit f s
  | .shli f => Sys2Proof.Machine.execShli f s
  | .shliLit f => Sys2Proof.Machine.execShliLit f s
  | .shri f => Sys2Proof.Machine.execShri f s
  | .shriLit f => Sys2Proof.Machine.execShriLit f s
  | .srai f => Sys2Proof.Machine.execSrai f s
  | .sraiLit f => Sys2Proof.Machine.execSraiLit f s
  | .slti f => Sys2Proof.Machine.execSlti f s
  | .sltiLit f => Sys2Proof.Machine.execSltiLit f s
  | .sltiu f => Sys2Proof.Machine.execSltiu f s
  | .sltiuLit f => Sys2Proof.Machine.execSltiuLit f s
  | .movi f => Sys2Proof.Machine.execMovi f s
  | .moviLit f => Sys2Proof.Machine.execMoviLit f s
  | .fadd f => Sys2Proof.Machine.execFadd f s
  | .fsub f => Sys2Proof.Machine.execFsub f s
  | .fmul f => Sys2Proof.Machine.execFmul f s
  | .ffma f => Sys2Proof.Machine.execFfma f s
  | .fmin f => Sys2Proof.Machine.execFmin f s
  | .fmax f => Sys2Proof.Machine.execFmax f s
  | .fabs f => Sys2Proof.Machine.execFabs f s
  | .fneg f => Sys2Proof.Machine.execFneg f s
  | .fcmpeq f => Sys2Proof.Machine.execFcmpeq f s
  | .fcmplt f => Sys2Proof.Machine.execFcmplt f s
  | .fcmple f => Sys2Proof.Machine.execFcmple f s
  | .fcvtif f => Sys2Proof.Machine.execFcvtif f s
  | .fcvtfi f => Sys2Proof.Machine.execFcvtfi f s
  | .fclass f => Sys2Proof.Machine.execFclass f s
  | .br f => Sys2Proof.Machine.execBr f s
  | .brLong f => Sys2Proof.Machine.execBrLong f s
  | .jmp f => Sys2Proof.Machine.execJmp f s
  | .jmpLit f => Sys2Proof.Machine.execJmpLit f s
  | .call f => Sys2Proof.Machine.execCall f s
  | .callLit f => Sys2Proof.Machine.execCallLit f s
  | .jr f => Sys2Proof.Machine.execJr f s
  | .callr f => Sys2Proof.Machine.execCallr f s
  | .nop f => Sys2Proof.Machine.execNop f s
  | .safept f => Sys2Proof.Machine.execSafept f s
  | .trap f => Sys2Proof.Machine.execTrap f s
  | .tret f => Sys2Proof.Machine.execTret f s
  | .bkpt f => Sys2Proof.Machine.execBkpt f s
  | .mfs f => Sys2Proof.Machine.execMfs f s
  | .mts f => Sys2Proof.Machine.execMts f s
  | .rdtime f => Sys2Proof.Machine.execRdtime f s
  | .getid f => Sys2Proof.Machine.execGetid f s
  | .ld f => Sys2Proof.Machine.execLd f s
  | .ldLit f => Sys2Proof.Machine.execLdLit f s
  | .st f => Sys2Proof.Machine.execSt f s
  | .stLit f => Sys2Proof.Machine.execStLit f s
  | .ldAcq f => Sys2Proof.Machine.execLdAcq f s
  | .ldAcqLit f => Sys2Proof.Machine.execLdAcqLit f s
  | .stRel f => Sys2Proof.Machine.execStRel f s
  | .stRelLit f => Sys2Proof.Machine.execStRelLit f s
  | .pfetch f => Sys2Proof.Machine.execPfetch f s
  | .l1inv f => Sys2Proof.Machine.execL1inv f s
  | .waitv f => Sys2Proof.Machine.execWaitv f s
  | .amoadd f => Sys2Proof.Machine.execAmoadd f s
  | .amoand f => Sys2Proof.Machine.execAmoand f s
  | .amoor f => Sys2Proof.Machine.execAmoor f s
  | .amoxor f => Sys2Proof.Machine.execAmoxor f s
  | .amomin f => Sys2Proof.Machine.execAmomin f s
  | .amomax f => Sys2Proof.Machine.execAmomax f s
  | .amominu f => Sys2Proof.Machine.execAmominu f s
  | .amomaxu f => Sys2Proof.Machine.execAmomaxu f s
  | .amoswap f => Sys2Proof.Machine.execAmoswap f s
  | .amocas f => Sys2Proof.Machine.execAmocas f s
  | .amofadd f => Sys2Proof.Machine.execAmofadd f s
  | .amoamax f => Sys2Proof.Machine.execAmoamax f s
  | .fenceC f => Sys2Proof.Machine.execFenceC f s
  | .fenceK f => Sys2Proof.Machine.execFenceK f s
  | .fenceP f => Sys2Proof.Machine.execFenceP f s
  | .fenceS f => Sys2Proof.Machine.execFenceS f s
  | .vadd f => Sys2Proof.Machine.execVadd f s
  | .vsub f => Sys2Proof.Machine.execVsub f s
  | .vmul f => Sys2Proof.Machine.execVmul f s
  | .vmulh f => Sys2Proof.Machine.execVmulh f s
  | .vmad f => Sys2Proof.Machine.execVmad f s
  | .vmacw f => Sys2Proof.Machine.execVmacw f s
  | .vdot4 f => Sys2Proof.Machine.execVdot4 f s
  | .vmin f => Sys2Proof.Machine.execVmin f s
  | .vmax f => Sys2Proof.Machine.execVmax f s
  | .vabs f => Sys2Proof.Machine.execVabs f s
  | .vand f => Sys2Proof.Machine.execVand f s
  | .vor f => Sys2Proof.Machine.execVor f s
  | .vxor f => Sys2Proof.Machine.execVxor f s
  | .vshli f => Sys2Proof.Machine.execVshli f s
  | .vshri f => Sys2Proof.Machine.execVshri f s
  | .vsrai f => Sys2Proof.Machine.execVsrai f s
  | .vrshr f => Sys2Proof.Machine.execVrshr f s
  | .vfadd f => Sys2Proof.Machine.execVfadd f s
  | .vfsub f => Sys2Proof.Machine.execVfsub f s
  | .vfmul f => Sys2Proof.Machine.execVfmul f s
  | .vffma f => Sys2Proof.Machine.execVffma f s
  | .vfmin f => Sys2Proof.Machine.execVfmin f s
  | .vfmax f => Sys2Proof.Machine.execVfmax f s
  | .vld f => Sys2Proof.Machine.execVld f s
  | .vst f => Sys2Proof.Machine.execVst f s
  | .vsplat f => Sys2Proof.Machine.execVsplat f s
  | .vsplatLit f => Sys2Proof.Machine.execVsplatLit f s
  | .vperm f => Sys2Proof.Machine.execVperm f s
  | .vpermLit f => Sys2Proof.Machine.execVpermLit f s
  | .vslide f => Sys2Proof.Machine.execVslide f s
  | .vred f => Sys2Proof.Machine.execVred f s
  | .vsel f => Sys2Proof.Machine.execVsel f s
  | .vcmp f => Sys2Proof.Machine.execVcmp f s
  | .kand f => Sys2Proof.Machine.execKand f s
  | .kor f => Sys2Proof.Machine.execKor f s
  | .knot f => Sys2Proof.Machine.execKnot f s
  | .kmov f => Sys2Proof.Machine.execKmov f s
  | .kmovImm f => Sys2Proof.Machine.execKmovImm f s
  | .vfcvt f => Sys2Proof.Machine.execVfcvt f s
  | .vnarrow f => Sys2Proof.Machine.execVnarrow f s
  | .vwiden f => Sys2Proof.Machine.execVwiden f s
  | .srcp f => Sys2Proof.Machine.execSrcp f s
  | .srsq f => Sys2Proof.Machine.execSrsq f s
  | .sexp2 f => Sys2Proof.Machine.execSexp2 f s
  | .slog2 f => Sys2Proof.Machine.execSlog2 f s
  | .ssin f => Sys2Proof.Machine.execSsin f s
  | .scos f => Sys2Proof.Machine.execScos f s
  | .stanh f => Sys2Proof.Machine.execStanh f s
  | .ssigm f => Sys2Proof.Machine.execSsigm f s
  | .stbind f => Sys2Proof.Machine.execStbind f s
  | .stend f => Sys2Proof.Machine.execStend f s
  | .chbind f => Sys2Proof.Machine.execChbind f s
  | .chend f => Sys2Proof.Machine.execChend f s
  | .mxldw f => Sys2Proof.Machine.execMxldw f s
  | .mxswap f => Sys2Proof.Machine.execMxswap f s
  | .mxq f => Sys2Proof.Machine.execMxq f s
  | .mxwaitv f => Sys2Proof.Machine.execMxwaitv f s
  | .mxwaitvReg f => Sys2Proof.Machine.execMxwaitvReg f s
  | .mxdrain f => Sys2Proof.Machine.execMxdrain f s
  | .mxdrainCe f => Sys2Proof.Machine.execMxdrainCe f s
  | .mxzero f => Sys2Proof.Machine.execMxzero f s
  | .mxzeroLd f => Sys2Proof.Machine.execMxzeroLd f s
  | .mxcb f => Sys2Proof.Machine.execMxcb f s
  | .scacc f => Sys2Proof.Machine.execScacc f s
  | .mxstat f => Sys2Proof.Machine.execMxstat f s
  | .normref f => Sys2Proof.Machine.execNormref f s
  | .normrd f => Sys2Proof.Machine.execNormrd f s
  | .send f => Sys2Proof.Machine.execSend f s
  | .mbwait f => Sys2Proof.Machine.execMbwait f s
  | .mbread f => Sys2Proof.Machine.execMbread f s
  | .mbset f => Sys2Proof.Machine.execMbset f s
  | .hclaim f => Sys2Proof.Machine.execHclaim f s
  | .hwait f => Sys2Proof.Machine.execHwait f s
  | .hfree f => Sys2Proof.Machine.execHfree f s
  | .hstat f => Sys2Proof.Machine.execHstat f s
  | .gather f => Sys2Proof.Machine.execGather f s
  | .nzscan f => Sys2Proof.Machine.execNzscan f s
  | .rscat f => Sys2Proof.Machine.execRscat f s
  | .vdec f => Sys2Proof.Machine.execVdec f s
  | .gmadd f => Sys2Proof.Machine.execGmadd f s
  | .gmaddJ f => Sys2Proof.Machine.execGmaddJ f s
  | .gmsub f => Sys2Proof.Machine.execGmsub f s
  | .gmsubJ f => Sys2Proof.Machine.execGmsubJ f s
  | .gmschur f => Sys2Proof.Machine.execGmschur f s
  | .gmdamp f => Sys2Proof.Machine.execGmdamp f s
  | .gmsend f => Sys2Proof.Machine.execGmsend f s
  | .gmpoll f => Sys2Proof.Machine.execGmpoll f s
  | .gmmean f => Sys2Proof.Machine.execGmmean f s
  | .start f => Sys2Proof.Machine.execStart f s
  | .startR f => Sys2Proof.Machine.execStartR f s
  | .reap f => Sys2Proof.Machine.execReap f s
  | .exit f => Sys2Proof.Machine.execExit f s
  | .resole f => Sys2Proof.Machine.execResole f s
  | .launch f => Sys2Proof.Machine.execLaunch f s
  | .migrate f => Sys2Proof.Machine.execMigrate f s
  | .yield f => Sys2Proof.Machine.execYield f s
  | .rdvinit f => Sys2Proof.Machine.execRdvinit f s
  | .arrive f => Sys2Proof.Machine.execArrive f s
  | .rdvwait f => Sys2Proof.Machine.execRdvwait f s
  | .rdvwaitPhase f => Sys2Proof.Machine.execRdvwaitPhase f s
  | .fixedLatencyWrite => Sys2Proof.Machine.execFixedLatencyWrite s
  | .interlockedResult => Sys2Proof.Machine.execInterlockedResult s
  | .stallDistanceEnd => Sys2Proof.Machine.execStallDistanceEnd s
  | .yieldEnd => Sys2Proof.Machine.execYieldEnd s
  | .homeAccess => Sys2Proof.Machine.execHomeAccess s
  | .storeAck => Sys2Proof.Machine.execStoreAck s
  | .l1Fill => Sys2Proof.Machine.execL1Fill s
  | .waitvPoll => Sys2Proof.Machine.execWaitvPoll s
  | .streamPrefetch => Sys2Proof.Machine.execStreamPrefetch s
  | .channelWordDelivery => Sys2Proof.Machine.execChannelWordDelivery s
  | .channelCreditReturn => Sys2Proof.Machine.execChannelCreditReturn s
  | .engineQueueAccept => Sys2Proof.Machine.execEngineQueueAccept s
  | .taskStart => Sys2Proof.Machine.execTaskStart s
  | .swapStart => Sys2Proof.Machine.execSwapStart s
  | .codebookLoadStart => Sys2Proof.Machine.execCodebookLoadStart s
  | .drainStart => Sys2Proof.Machine.execDrainStart s
  | .zeroStart => Sys2Proof.Machine.execZeroStart s
  | .fillStart => Sys2Proof.Machine.execFillStart s
  | .scaleStart => Sys2Proof.Machine.execScaleStart s
  | .entryCompletion => Sys2Proof.Machine.execEntryCompletion s
  | .sfuServiceStart => Sys2Proof.Machine.execSfuServiceStart s
  | .sfuCompletion => Sys2Proof.Machine.execSfuCompletion s
  | .transferAccept => Sys2Proof.Machine.execTransferAccept s
  | .lockMessageArrival => Sys2Proof.Machine.execLockMessageArrival s
  | .gateRequest => Sys2Proof.Machine.execGateRequest s
  | .tokenGrant => Sys2Proof.Machine.execTokenGrant s
  | .tokenArrival => Sys2Proof.Machine.execTokenArrival s
  | .tokenExpiry => Sys2Proof.Machine.execTokenExpiry s
  | .packetLanding => Sys2Proof.Machine.execPacketLanding s
  | .notifyLatchDrain => Sys2Proof.Machine.execNotifyLatchDrain s
  | .lastSourceRead => Sys2Proof.Machine.execLastSourceRead s
  | .sendDone => Sys2Proof.Machine.execSendDone s
  | .cxlTransferFailure => Sys2Proof.Machine.execCxlTransferFailure s
  | .gatherRowFetch => Sys2Proof.Machine.execGatherRowFetch s
  | .gatherCompletion => Sys2Proof.Machine.execGatherCompletion s
  | .rscatCompletion => Sys2Proof.Machine.execRscatCompletion s
  | .vdecCommandStart => Sys2Proof.Machine.execVdecCommandStart s
  | .frameLanding => Sys2Proof.Machine.execFrameLanding s
  | .decodeBatchEnd => Sys2Proof.Machine.execDecodeBatchEnd s
  | .gmsendLanding => Sys2Proof.Machine.execGmsendLanding s
  | .rendezvousArrival => Sys2Proof.Machine.execRendezvousArrival s
  | .arriveResponse => Sys2Proof.Machine.execArriveResponse s
  | .phaseUpdate => Sys2Proof.Machine.execPhaseUpdate s
  | .rdvinitAtHome => Sys2Proof.Machine.execRdvinitAtHome s
  | .cloadRefresh => Sys2Proof.Machine.execCloadRefresh s
  | .migrationSend => Sys2Proof.Machine.execMigrationSend s
  | .migrationReservation => Sys2Proof.Machine.execMigrationReservation s
  | .migrationLanding => Sys2Proof.Machine.execMigrationLanding s
  | .remoteLoadMove => Sys2Proof.Machine.execRemoteLoadMove s
  | .guestLanding => Sys2Proof.Machine.execGuestLanding s
  | .guestReturn => Sys2Proof.Machine.execGuestReturn s
  | .guestHomeLanding => Sys2Proof.Machine.execGuestHomeLanding s
  | .resoleScrub => Sys2Proof.Machine.execResoleScrub s
  | .resoleSuccessorStart => Sys2Proof.Machine.execResoleSuccessorStart s
  | .pitchRelease => Sys2Proof.Machine.execPitchRelease s
  | .releaseScrubDone => Sys2Proof.Machine.execReleaseScrubDone s
  | .placement => Sys2Proof.Machine.execPlacement s
  | .saveRoutineStart => Sys2Proof.Machine.execSaveRoutineStart s
  | .preemptHwSave => Sys2Proof.Machine.execPreemptHwSave s
  | .preemptTimeout => Sys2Proof.Machine.execPreemptTimeout s
  | .restoreHwWriteback => Sys2Proof.Machine.execRestoreHwWriteback s
  | .pageWalk => Sys2Proof.Machine.execPageWalk s
  | .tlbMissRetry => Sys2Proof.Machine.execTlbMissRetry s
  | .instructionFetchDone => Sys2Proof.Machine.execInstructionFetchDone s
  | .portRcb => Sys2Proof.Machine.execPortRcb s
  | .portLaunch => Sys2Proof.Machine.execPortLaunch s
  | .portPreempt => Sys2Proof.Machine.execPortPreempt s
  | .portKill => Sys2Proof.Machine.execPortKill s
  | .portWriteDone => Sys2Proof.Machine.execPortWriteDone s
  | .artCtrlWrite => Sys2Proof.Machine.execArtCtrlWrite s
  | .invalidatePage => Sys2Proof.Machine.execInvalidatePage s
  | .invalidateRange => Sys2Proof.Machine.execInvalidateRange s
  | .invalidateRegion => Sys2Proof.Machine.execInvalidateRegion s
  | .invalidateAll => Sys2Proof.Machine.execInvalidateAll s
  | .invalidationDone => Sys2Proof.Machine.execInvalidationDone s
  | .multicastCommit => Sys2Proof.Machine.execMulticastCommit s
  | .commitAck => Sys2Proof.Machine.execCommitAck s
  | .resync => Sys2Proof.Machine.execResync s
  | .resyncDone => Sys2Proof.Machine.execResyncDone s
  | .attestationQuote => Sys2Proof.Machine.execAttestationQuote s
  | .moduleReset => Sys2Proof.Machine.execModuleReset s
  | .bootStage => Sys2Proof.Machine.execBootStage s
  | .governorWindow => Sys2Proof.Machine.execGovernorWindow s
  | .patrolScrub => Sys2Proof.Machine.execPatrolScrub s
  | .gtcSync => Sys2Proof.Machine.execGtcSync s
  | .laneSample => Sys2Proof.Machine.execLaneSample s
  | .flitReceive => Sys2Proof.Machine.execFlitReceive s
  | .e2eTimeout => Sys2Proof.Machine.execE2eTimeout s
  | .fabricPacketDelivery => Sys2Proof.Machine.execFabricPacketDelivery s
  | .registerWrite => Sys2Proof.Machine.execRegisterWrite s
  | .illegalEncoding w0 => Sys2Proof.Machine.execIllegalEncoding w0 s
  | .linkRetryTimeout => Sys2Proof.Machine.execLinkRetryTimeout s
  | .cxlLinkDrop => Sys2Proof.Machine.execCxlLinkDrop s
  | .cxlLinkReturn => Sys2Proof.Machine.execCxlLinkReturn s

end Sys2Proof.Machine
end

