-- ==== Sys2Proof/Machine/Step.lean ====
section
/-!
DEFINITION. One step of the module, and the placing of one instruction where the next step fetches it.
-/
namespace Sys2Proof.Machine

/-- One step: the earliest due entry of the agenda, or the turn of a core (R15, R236). -/
def step (s : State) : Host.Outcome State Fault Refusal :=
  match s.plan with
  | .stopped => .fault .moduleStopped
  | .done t => .next t
  | .event i t => exec i t
  | .issue cid i t =>
    match exec i t with
    | .next u => .next (u.endTurn cid)
    | .fault e => .fault e
    | .refused r => .refused r

/-- The address of the code, its physical page, and the region's control block that withFetchWord uses. -/
def placedVa : Nat := 0x100000
def placedPa : Nat := 0x200000
def placedRcb : Nat := 0x10000

/-- The module with one deterministic group of one core running, whose context 0 fetches the given instruction in the
next step: the state that a launch of such a group would have brought (R13, R231, R307). -/
def State.withFetchWord (s : State) (nbits w : Nat) : State :=
  let slot : Slot :=
    { live := true, serial := s.serial, gid := 1, region := placedRcb, mode := { det := true }, pc := BitVec.ofNat 64 placedVa }
  let core : Core :=
    { on := true, gid := 1, nextCycle := s.cycle, slots := [(0, slot)], sp := [(wsGctl, 0x14)]
      itlb := [{ region := placedRcb, va := placedVa, size := 0x10000, pa := placedPa, w := false, x := true, cls := 0 }]
      code := some { first := placedVa, words := (tableWords (w % 2 ^ nbits)).map .word } }
  let group : Group :=
    { gid := 1, region := placedRcb, header := { entry := BitVec.ofNat 64 placedVa }, pitch := [0], mode := { det := true }, cols := 1, rows := 1, die := 0
      state := .running }
  { s with
    bootStage := 3, stopped := false, agenda := [], net := [], serial := s.serial + 1
    regions := [(placedRcb, { regid := 1, modeb := 1 })], groups := [(1, group)], nextGid := 2, cores := [(0, core)]
    mem := s.mem.write (s.hbmLoc placedPa).addr (tableBytes nbits w) }

end Sys2Proof.Machine
end

