-- ==== Sys2Proof/Safety.lean ====
section
/-!
DEFINITION. The terms in which claims about the module are made: what lets an instruction issue, what its issue leaves
alone, and what a safe step is.
-/
namespace Sys2Proof.Machine

/-- An outcome that is a next state. -/
def Completes (o : Host.Outcome State Fault Refusal) : Prop := ∃ t, o = .next t

/-- All of a core but its slots, its pending results, and the counts of issues, collisions and stretches. -/
def Core.offTurn (c : Core) : Core := { c with slots := [], pend := [], issued := 0, bankstall := 0, stretch := 0 }

/-- All of a slot but where its context stands: PC, wait, STALL, YIELD, the turn it last issued in, what its instruction took at issue,
and what is kept of walks and fetches.  The registers of a guest, the error bits, the target phases, MODE, and what names the context
stay in it. -/
def Slot.offIssue (x : Slot) : Slot :=
  { x with pc := 0, wait := .ready, stall := none, yield := none, lent := false, since := 0, vlim := 0, own := false, ins := none, undo := []
           fetched := none, walked := none, trans := [], late := [], refusedNode := none, dest := .none }

namespace State

/-- The module is not stopped. -/
def Runs (s : State) : Prop := s.stopped = false

/-- No ECC word of the module has an error (R91, R280). -/
def sound (s : State) : Bool := s.errorFree

/-- The gates of an issue let an instruction through: no way home, operands that can be served, its feature present, no
STALL_CHECK, and no walk that it comes back from (R16, R17, R19, R22, R60, R217, R270). -/
def admits (s : State) (ins : Instr) : Bool :=
  !(s.here.guest && atHomeOnly ins) && !s.heldFor s.curCid s.curSlot ins && s.hereCore.feat.getLsbD ins.feature
    && !(s.here.mode.sbchk && (s.firstAwaited s.curCid s.curSlot (uses ins)).isSome) && s.here.late.isEmpty

/-- The value of a scalar register of the issuing context; w0 reads 0 (R18). -/
def hereW (s : State) (n : BitVec 5) : Word := if n = 0 then 0 else s.wreg s.curCid s.curSlot n.toNat

/-- The value of a vector register of the issuing context. -/
def hereQ (s : State) (n : BitVec 5) : VWord := s.qreg s.curCid s.curSlot n.toNat

/-- The value of a predicate register of the issuing context. -/
def hereK (s : State) (n : Nat) : BitVec 16 := s.kreg s.curCid s.curSlot n

/-- The fixed-latency result of a scalar register; a result for w0 is discarded (R18, R20). -/
def scalarResult (s : State) (d : BitVec 5) (lat : Nat) (v : Word) : List Pend :=
  if d = 0 then []
  else [{ due := s.hereCore.turn + lat, slot := s.curSlot, dest := .reg s.curSlot (8 * d.toNat), data := v.setWidth 128, mask := 0xFF }]

/-- The fixed-latency result of a vector register: the bytes that a mask enables (R101, R107). -/
def vectorResult (s : State) (d : Nat) (lat : Nat) (v : VWord) (mask : BitVec 16) : List Pend :=
  [{ due := s.hereCore.turn + lat, slot := s.curSlot, dest := .reg s.curSlot (wsQ d), data := v, mask := mask }]

/-- All of the module but its cores, its agenda and the banks of the turn. -/
def offCore (s : State) : State := { s with cores := [], agenda := [], banks := [] }

/-- What an instruction changes that works on registers only: its own core's counts, pending results and stretch, where its own
context stands, and the agenda.  Memory, every scratchpad and register, every other core and slot, and all else is as it was. -/
def OnlyIssue (s t : State) : Prop :=
  t.offCore = s.offCore
    ∧ (∀ c, c ≠ s.curCid → t.core c = s.core c)
    ∧ t.hereCore.offTurn = s.hereCore.offTurn
    ∧ (∀ i, i ≠ s.curSlot → t.slot s.curCid i = s.slot s.curCid i)
    ∧ t.here.offIssue = s.here.offIssue

/-- An instruction has issued: one more is counted, and its context goes on at an address (R17, R211). -/
def IssuedTo (s t : State) (pc : Word) : Prop :=
  t.hereCore.issued = s.hereCore.issued + 1 ∧ t.here.pc = pc ∧ t.here.wait = .ready

/-- The bytes in which the registers of the issuing context live are in canonical form (R13, log 2). -/
def canonHere (s : State) : Bool := (s.wsMem s.curCid s.curSlot).1.wf

/-- No byte of a range of a scratchpad was written by a fixed-latency write of the current turn, which would win over a
store of that turn (R22). -/
def unwritten (s : State) (cid off n : Nat) : Bool := (List.range n).all fun i => !s.overruled cid (off + i)

/-- No WAITV watches a byte of a range (R93). -/
def unwatched (s : State) (h : Home) (addr n : Nat) : Bool :=
  s.net.all fun m => !(m.kind == .watch && m.watching && m.loc.home == h && decide (m.loc.addr < addr + n) && decide (addr < m.loc.addr + 8))

/-- No WAITV watches a register of the issuing context at an offset from WP, with the bytes of a vector register from there
(R224, R246); the registers of a guest are watched by none. -/
def quietReg (s : State) (off : Nat) : Bool := s.here.guest || s.unwatched (.scratch s.curCid) (s.curSlot * 1024 + off) 16

/-- No turn is stretched and BANKSTALL is as it was (R24). -/
def NoStall (s t : State) : Prop := t.hereCore.stretch = 0 ∧ t.hereCore.bankstall = s.hereCore.bankstall

/-- A byte of the scratchpad of a core. -/
def spByte (s : State) (cid a : Nat) : Byte := (s.core cid).sp.get a

/-- A byte of HBM or of the CXL tier, by its place. -/
def memByte (s : State) (a : Nat) : Byte := s.mem.get a

/-- What an instruction changes that stores into the own scratchpad: besides what every issue changes, the stored bytes and
the marks of handles and norm slices (R148). -/
def StoresHere (s t : State) (off n : Nat) : Prop :=
  t.offCore = s.offCore
    ∧ (∀ c, c ≠ s.curCid → t.core c = s.core c)
    ∧ { t.hereCore.offTurn with sp := [], hs := [], norms := [] } = { s.hereCore.offTurn with sp := [], hs := [], norms := [] }
    ∧ (∀ i, i ≠ s.curSlot → t.slot s.curCid i = s.slot s.curCid i)
    ∧ ∀ a, a < off ∨ off + n ≤ a → t.spByte s.curCid a = s.spByte s.curCid a

/-- An address of the own scratchpad and its offset (R81, R83): in the local window, or in the peer window with the core
field 0xFFF of a context at home or the own CID. -/
def ownAddress (s : State) (va : Word) (off : Nat) : Prop :=
  off < 0x60000 ∧ (va.toNat = off
    ∨ (va.toNat = 2 ^ 55 + s.curCid * 2 ^ 19 + off ∧ s.curCid < 0x800)
    ∨ (va.toNat = 2 ^ 55 + 0xFFF * 2 ^ 19 + off ∧ s.here.home = s.curCid))

/-- An access of n bytes of the own scratchpad that passes the checks of R82, but for memory errors. -/
def ownRange (s : State) (va : Word) (n : Nat) (write : Bool) (off : Nat) : Prop :=
  s.ownAddress va off ∧ off % n = 0 ∧ s.here.guest = false ∧ s.scratchLocked s.curCid off n write = false

/-- The place of an access of the issuing context that passes the checks at the core (R82), if it does. -/
def placeOf (s : State) (va : Word) (n : Nat) (k : Access) : Option Loc :=
  match checkAccess s s.curCid s.here va n 1 k with
  | .ok (l, _) => some l
  | .error _ => none

/-- The trap of an access at the core (R82), if it traps. -/
def trapOfAccess (s : State) (va : Word) (n : Nat) (k : Access) : Option TrapInfo :=
  match checkAccess s s.curCid s.here va n 1 k with
  | .error (.trap t) => some t
  | _ => none

/-- All of the module but what carries accesses: the network, the links with their packets, the dies' queues of misses, and the
free values used. -/
def offRoads (s : State) : State :=
  { s.offCore with net := [], fabric := [], fabOut := [], links := [], dies := [], serial := 0, free := 0 }

/-- All of a die but its walks and the misses that wait. -/
def offWalks (s : State) (k : Nat) : Die := { s.die k with misses := [], overflow := [] }

/-- What an instruction changes whose access goes elsewhere: besides what every issue changes, what carries accesses, and the
own L1 and TLB.  No byte, register, accumulator or special register changes. -/
def OnlyAccess (s t : State) : Prop :=
  t.offRoads = s.offRoads ∧ (∀ k, t.offWalks k = s.offWalks k)
    ∧ (∀ c, c ≠ s.curCid → t.core c = s.core c)
    ∧ { t.hereCore.offTurn with l1 := [], tlb := [] } = { s.hereCore.offTurn with l1 := [], tlb := [] }
    ∧ (∀ i, i ≠ s.curSlot → t.slot s.curCid i = s.slot s.curCid i)
    ∧ t.here.frame = s.here.frame ∧ t.hereCore.pend = s.hereCore.pend

/-- What an instruction changes that acts on one part of the module: besides what every issue changes, the parts that f
hides of the module outside its cores, and those that g hides of the own core. -/
def Changes (s t : State) (f : State → State) (g : Core → Core) : Prop :=
  f t.offCore = f s.offCore
    ∧ (∀ c, c ≠ s.curCid → t.core c = s.core c)
    ∧ g t.hereCore.offTurn = g s.hereCore.offTurn
    ∧ (∀ i, i ≠ s.curSlot → t.slot s.curCid i = s.slot s.curCid i)
    ∧ t.hereCore.pend = s.hereCore.pend ∧ t.here.frame = s.here.frame

/-- No byte of HBM, of the CXL tier, of a scratchpad, or of the frame of a guest that is there, is another: memory and
registers are as they were. -/
def KeepsBytes (s t : State) : Prop :=
  t.mem = s.mem ∧ ∀ c, (t.core c).sp = (s.core c).sp
    ∧ ∀ i, (s.slot c i).live = true → (s.slot c i).guest = true → (s.slot c i).reserved = false → (t.slot c i).frame = (s.slot c i).frame

/-- Every context of a core is ready but for its next instruction. -/
def Settled (s : State) (cid : Nat) : Prop := ∀ i, (s.slot cid i).wait = .ready

/-- The network holds a new access, named by the identifier that was next. -/
def Sends (s t : State) (p : Msg → Prop) : Prop := ∃ m, m ∈ t.net ∧ m.id = s.serial ∧ p m

/-- A message is an access of the issuing context. -/
def isFromHere (s : State) (m : Msg) (va : Word) (l : Loc) (n : Nat) : Prop :=
  m.cid = s.curCid ∧ m.slot = s.curSlot ∧ m.serial = s.here.serial ∧ m.region = s.here.region ∧ m.va = va ∧ m.loc = l ∧ m.size = n

/-- The place of a scalar result that comes with a response: a register, or nothing for w0. -/
def scalarDest (s : State) (d : BitVec 5) : Dest := if d = 0 then .none else .reg s.curSlot (8 * d.toNat)

/-- The context has issued and waits. -/
def WaitsAt (s t : State) (pc : Word) (w : Wait) : Prop :=
  t.hereCore.issued = s.hereCore.issued + 1 ∧ t.here.pc = pc ∧ t.here.wait = w

/-- The address of the sequential successor of an instruction (R46). -/
def nextPc (s : State) (ins : Instr) : Word := s.here.pc + BitVec.ofNat 64 (instrBytes ins)

end State
end Sys2Proof.Machine
end

