-- ==== Sys2Proof/Certificates/Slice0/Obligations.lean ====
section
/-!
DEFINITION. The statements about the module, from the numbered rules of the spec.
-/
open Sys2Proof Sys2Proof.Machine

namespace Sys2Proof.Claims

/-! ### Scalar instructions -/

/-- The integer register operations (R63 to R66): the turns to the readable turn (R20), and the result from the old d, a
and b. -/
def integerOps : List ((RF → Instr) × Nat × (Word → Word → Word → Word)) :=
  [ (.add, 2, fun _ a b => a + b)
  , (.sub, 2, fun _ a b => a - b)
  , (.mul, 4, fun _ a b => a * b)
  , (.mulh, 4, fun _ a b => BitVec.ofInt 64 ((a.toInt * b.toInt) >>> (64 : Nat)))
  , (.mulhu, 4, fun _ a b => BitVec.ofNat 64 ((a.toNat * b.toNat) >>> 64))
  , (.div, 36, fun _ a b =>
      if b = 0 then BitVec.allOnes 64
      else if a = BitVec.intMin 64 ∧ b = BitVec.allOnes 64 then BitVec.intMin 64 else BitVec.ofInt 64 (a.toInt.tdiv b.toInt))
  , (.divu, 36, fun _ a b => if b = 0 then BitVec.allOnes 64 else a / b)
  , (.rem, 36, fun _ a b =>
      if b = 0 then a
      else if a = BitVec.intMin 64 ∧ b = BitVec.allOnes 64 then 0 else BitVec.ofInt 64 (a.toInt - a.toInt.tdiv b.toInt * b.toInt))
  , (.remu, 36, fun _ a b => if b = 0 then a else a - a / b * b)
  , (.and, 2, fun _ a b => a &&& b)
  , (.or, 2, fun _ a b => a ||| b)
  , (.xor, 2, fun _ a b => a ^^^ b)
  , (.andn, 2, fun _ a b => a &&& ~~~ b)
  , (.shl, 2, fun _ a b => a <<< Min.min b.toNat 64)
  , (.shr, 2, fun _ a b => a >>> Min.min b.toNat 64)
  , (.sra, 2, fun _ a b => a.sshiftRight (Min.min b.toNat 64))
  , (.rotr, 2, fun _ a b => (a >>> (b.toNat % 64)) ||| (a <<< (64 - b.toNat % 64)))
  , (.slt, 2, fun _ a b => if a.toInt < b.toInt then 1 else 0)
  , (.sltu, 2, fun _ a b => if a.toNat < b.toNat then 1 else 0)
  , (.min, 2, fun _ a b => BitVec.ofInt 64 (Min.min a.toInt b.toInt))
  , (.max, 2, fun _ a b => BitVec.ofInt 64 (Max.max a.toInt b.toInt))
  , (.minu, 2, fun _ a b => BitVec.ofNat 64 (Min.min a.toNat b.toNat))
  , (.maxu, 2, fun _ a b => BitVec.ofNat 64 (Max.max a.toNat b.toNat))
  , (.sel, 2, fun d a b => if d ≠ 0 then a else b)
  , (.clz, 2, fun _ a _ => if a = 0 then 64 else BitVec.ofNat 64 (63 - a.toNat.log2))
  , (.ctz, 2, fun _ a _ => BitVec.ofNat 64 (((List.range 64).findIdx a.getLsbD)))
  , (.popc, 2, fun _ a _ => BitVec.ofNat 64 ((List.range 64).countP a.getLsbD))
  , (.bfx, 2, fun _ a b =>
      let pos := b.toNat % 64
      let len := Min.min (b.toNat / 256 % 128) (64 - pos)
      BitVec.ofInt 64 (Int.bmod (a.toNat / 2 ^ pos) (2 ^ len)))
  , (.bfxu, 2, fun _ a b =>
      let pos := b.toNat % 64
      let len := Min.min (b.toNat / 256 % 128) (64 - pos)
      BitVec.ofNat 64 (a.toNat / 2 ^ pos % 2 ^ len))
  , (.bfi, 2, fun d a b =>
      let pos := b.toNat % 64
      let len := Min.min (b.toNat / 256 % 128) (64 - pos)
      BitVec.ofNat 64 (d.toNat / 2 ^ (pos + len) * 2 ^ (pos + len) + a.toNat % 2 ^ len * 2 ^ pos + d.toNat % 2 ^ pos)) ]

/-- The immediate forms (R67), short and with a literal: the result from a and the immediate. -/
def immediateOps : List ((IF → Instr) × (IL → Instr) × (Word → Word → Word)) :=
  [ (.addi, .addiLit, fun a b => a + b)
  , (.andi, .andiLit, fun a b => a &&& b)
  , (.ori, .oriLit, fun a b => a ||| b)
  , (.xori, .xoriLit, fun a b => a ^^^ b)
  , (.shli, .shliLit, fun a b => a <<< Min.min b.toNat 64)
  , (.shri, .shriLit, fun a b => a >>> Min.min b.toNat 64)
  , (.srai, .sraiLit, fun a b => a.sshiftRight (Min.min b.toNat 64))
  , (.slti, .sltiLit, fun a b => if a.toInt < b.toInt then 1 else 0)
  , (.sltiu, .sltiuLit, fun a b => if a.toNat < b.toNat then 1 else 0)
  , (.movi, .moviLit, fun _ b => b) ]

/-- The FP32 operations that round (R68): the result under a mode from the old d, a and b. -/
def roundedOps : List ((RF → Instr) × (Mode → Word → Word → Word → Word)) :=
  [ (.fadd, fun m _ a b => BitVec.ofNat 64 (roundF f32 m (FVal.add m.down (decodeF f32 (low32 a)) (decodeF f32 (low32 b)))))
  , (.fsub, fun m _ a b => BitVec.ofNat 64 (roundF f32 m (FVal.add m.down (decodeF f32 (low32 a)) (decodeF f32 (low32 b)).neg)))
  , (.fmul, fun m _ a b => BitVec.ofNat 64 (roundF f32 m (FVal.mul (decodeF f32 (low32 a)) (decodeF f32 (low32 b)))))
  , (.ffma, fun m d a b => BitVec.ofNat 64
      (roundF f32 m (FVal.add m.down (FVal.mul (decodeF f32 (low32 a)) (decodeF f32 (low32 b))) (decodeF f32 (low32 d)))))
  , (.fcvtif, fun m _ a _ => BitVec.ofNat 64 (roundF f32 m (.fin (decide (a.toInt < 0)) a.toInt.natAbs 0)))
  , (.fcvtfi, fun m _ a _ => BitVec.ofInt 64 (match decodeF f32 (low32 a) with
      | .nan => 0
      | .inf neg => if neg then -2 ^ 63 else 2 ^ 63 - 1
      | .fin neg k e => Max.max (-2 ^ 63) (Min.min (2 ^ 63 - 1) (roundInt m neg k e)))) ]

/-- The FP32 operations that do not round (R68, R69). -/
def plainOps : List ((RF → Instr) × (Word → Word → Word)) :=
  [ (.fmin, fun a b => BitVec.ofNat 64 (minF f32 (low32 a) (low32 b)))
  , (.fmax, fun a b => BitVec.ofNat 64 (maxF f32 (low32 a) (low32 b)))
  , (.fabs, fun a _ => BitVec.ofNat 64 (a.toNat % 2 ^ 31))
  , (.fneg, fun a _ => BitVec.ofNat 64 ((a.toNat + 2 ^ 31) % 2 ^ 32))
  , (.fcmpeq, fun a b => if eqF f32 (low32 a) (low32 b) then 1 else 0)
  , (.fcmplt, fun a b => if ltF f32 (low32 a) (low32 b) then 1 else 0)
  , (.fcmple, fun a b => if leF f32 (low32 a) (low32 b) then 1 else 0)
  , (.fclass, fun a _ => match decodeF f32 (low32 a) with
      | .nan => 256
      | .inf neg => if neg then 1 else 128
      | .fin neg k _ => if k = 0 then (if neg then 8 else 16) else if k < 2 ^ 23 then (if neg then 4 else 32) else (if neg then 2 else 64)) ]

/-- The rounding modes that RND.MODE numbers 0 to 4 (R33). -/
def modeNumbered : Nat → Mode
  | 0 => .rne
  | 1 => .rtz
  | 2 => .rdn
  | 3 => .rup
  | _ => .rna

/-- A scalar instruction by its fields: its bytes, the turns to its result (R20), and the result from the old d, a and b. -/
structure ScalarForm where
  ins : Instr
  a : BitVec 5
  b : BitVec 5
  d : BitVec 5
  bytes : Nat
  lat : Nat
  result : Word → Word → Word → Word

/-- The forms of major 0x01 and 0x02 on registers under a rounding mode, and the immediate forms in both lengths (R63 to R69). -/
def scalarForms (m : Mode) (f : RF) (g : IF) (l : IL) : List ScalarForm :=
  (integerOps.map fun p => ⟨p.1 f, f.a, f.b, f.d, 4, p.2.1, p.2.2⟩)
    ++ (roundedOps.map fun p => ⟨p.1 f, f.a, f.b, f.d, 4, 6, p.2 m⟩)
    ++ (plainOps.map fun p => ⟨p.1 f, f.a, f.b, f.d, 4, 6, fun _ a b => p.2 a b⟩)
    ++ (immediateOps.map fun p => ⟨p.1 g, g.a, 0, g.d, 4, 2, fun _ a _ => p.2.2 a (g.imm.signExtend 64)⟩)
    ++ immediateOps.map fun p => ⟨p.2.1 l, l.a, 0, l.d, 12, 2, fun _ a _ => p.2.2 a l.lit⟩

/-- The branches in both forms: condition, fields, the distance of the target, and bytes (R57, R70). -/
def branchForms (f : BF) (g : BL) : List (Instr × Nat × BitVec 5 × BitVec 5 × Word × Nat) :=
  [ (.br f, f.cond.toNat, f.a, f.b, 4 * f.off.signExtend 64, 4), (.brLong g, g.cond.toNat, g.a, g.b, 4 * g.off.signExtend 64, 12) ]

/-- What a scalar field gives that is read after k words of its channel have been popped by the same instruction (R18, R119). -/
def fieldValue (s : State) (c : BitVec 5) (k : Nat) : Word :=
  if c.toNat < 28 then s.hereW c else ((s.chan s.curCid (c.toNat - 28)).inq.map (·.word)).getD k 0

/-- The channel of every field of a list that names one is bound. -/
def channelsBound (s : State) (fs : List (BitVec 5)) : Prop :=
  ∀ n, n < 4 → (∃ c ∈ fs, c.toNat = 28 + n) → (s.chan s.curCid n).bound.isSome = true

/-- Of every channel the oldest words are gone, one for each field read that names it, and its outbound queue has one more place
where d names it (R119). -/
def MovesWords (s t : State) (reads : List (BitVec 5)) (d : BitVec 5) : Prop :=
  ∀ n, n < 4 → let c := s.chan s.curCid n
    (t.chan s.curCid n).inq = c.inq.drop (reads.countP fun x => x.toNat == 28 + n)
      ∧ (t.chan s.curCid n).out = c.out ++ (if d.toNat = 28 + n then
          [{ seq := c.nextSeq, word := none, cid := s.curCid, slot := s.curSlot, serial := s.here.serial }] else [])

/-- The RND word of the issuing context. -/
def rndHere (s : State) : Word := s.word64 s.curCid s.curSlot wsRnd

/-- A condition of BR (R57, R70). -/
def conditionHolds (cond : Nat) (a b : Word) : Bool :=
  match cond with
  | 0 => decide (a = b)
  | 1 => decide (a ≠ b)
  | 2 => decide (a.toInt < b.toInt)
  | 3 => decide (b.toInt ≤ a.toInt)
  | 4 => decide (a.toNat < b.toNat)
  | _ => decide (b.toNat ≤ a.toNat)

/-- The value that MFS reads (R77, R78, R225): of the workspace, or of the hardware. -/
def systemRegister (s : State) (n : Nat) : Word :=
  let ws := fun off size => BitVec.ofNat 64 (s.wsRead s.curCid s.curSlot off size)
  let bit := fun (b : Bool) (k : Nat) => if b then 2 ^ k else 0
  let m := s.here.mode
  match n with
  | 0 => ws 576 8
  | 1 => ws 584 8
  | 2 => ws 592 8
  | 3 => BitVec.ofNat 64 (bit m.det 0 + bit m.gov 1 + bit m.sbchk 2 + bit m.task 3 + bit s.here.guest 4)
  | 4 => ws 632 2
  | 5 => ws 600 8
  | 6 => ws 608 8
  | 7 => ws 634 2 &&& 0xFF1F
  | 8 => BitVec.ofNat 64 (1024 * (if s.here.guest then s.here.homeSlot else s.curSlot))
  | 9 => s.hereCore.cload.getD (BitVec.ofNat 64 (s.curCid * 2 ^ 26))
  | 10 => BitVec.ofNat 64 (s.ustore s.here.serial)
  | 11 => s.hereCore.vlim
  | 12 => s.hereCore.bankstall
  | 13 => s.hereCore.issued
  | 14 => tget s.hereCore.lentIn s.curSlot 0
  | _ => tget s.hereCore.lentOut s.curSlot 0

/-- A range lock refuses a read or a write of a register of the own workspace, as it would a load or store of its word (R77, R86). -/
def registerLocked (s : State) (off n : Nat) (write : Bool) : Bool :=
  !s.here.guest && s.scratchLocked s.curCid (s.curSlot * 1024 + off) n write

/-- The trap of a locked register: its address in the own scratchpad. -/
def lockedRegister (s : State) (off : Nat) (write : Bool) : TrapInfo :=
  { cause := .rangeLock, tval := BitVec.ofNat 64 (s.curSlot * 1024 + off), write := write }

/-- The workspace registers that MTS writes (R77, R224): number, offset, bytes, and the bits that may be set. -/
def workspaceRegisters : List (Nat × Nat × Nat × Word) :=
  [ (0, 576, 8, 0xFFFFFFFF00001F07), (1, 584, 8, BitVec.allOnes 64), (2, 592, 8, 0x33F), (4, 632, 2, 0xFFFF), (5, 600, 8, BitVec.allOnes 64)
  , (6, 608, 8, BitVec.allOnes 64), (7, 634, 2, 0xFF1F) ]

/-- The identifiers of GETID (R80): of the rank and number of cores in the own group, or those that a guest brought. -/
def identifierHere (s : State) (pitch : List Nat) (sel : Nat) : Nat :=
  match sel with
  | 0 => s.curCid
  | 1 => s.here.idx
  | 2 => if s.here.guest then s.here.rank else pitch.idxOf s.here.home
  | 3 => if s.here.guest then s.here.ncore else pitch.length
  | 4 => s.node
  | 5 => s.here.home
  | 6 => s.regid s.here.region
  | _ => s.here.gid

/-! ### Memory instructions -/

/-- The fields of a load or store (R87): d or s, base, displacement in bytes, SIZE, whether it acquires or releases, and
its length. -/
structure MemForm where
  d : BitVec 5
  base : BitVec 5
  disp : Word
  size : Nat
  ord : Bool
  bytes : Nat

/-- The bytes of an access (R57). -/
def MemForm.width (x : MemForm) : Nat := 2 ^ (x.size % 4)

/-- LD and LD.ACQ in both lengths (R49, R51, R87). -/
def loadOf : Instr → Option MemForm
  | .ld f => some ⟨f.d, f.base, f.disp.signExtend 64 * BitVec.ofNat 64 (2 ^ (f.size.toNat % 4)), f.size.toNat, false, 4⟩
  | .ldLit f => some ⟨f.d, f.base, f.lit, f.size.toNat, false, 12⟩
  | .ldAcq f => some ⟨f.d, f.base, f.disp.signExtend 64 * BitVec.ofNat 64 (2 ^ (f.size.toNat % 4)), f.size.toNat, true, 4⟩
  | .ldAcqLit f => some ⟨f.d, f.base, f.lit, f.size.toNat, true, 12⟩
  | _ => none

/-- ST and ST.REL in both lengths. -/
def storeOf : Instr → Option MemForm
  | .st f => some ⟨f.d, f.base, f.disp.signExtend 64 * BitVec.ofNat 64 (2 ^ (f.size.toNat % 4)), f.size.toNat, false, 4⟩
  | .stLit f => some ⟨f.d, f.base, f.lit, f.size.toNat, false, 12⟩
  | .stRel f => some ⟨f.d, f.base, f.disp.signExtend 64 * BitVec.ofNat 64 (2 ^ (f.size.toNat % 4)), f.size.toNat, true, 4⟩
  | .stRelLit f => some ⟨f.d, f.base, f.lit, f.size.toNat, true, 12⟩
  | _ => none

/-- The loaded value of the bytes of a width, extended as SIZE says (R57, R87). -/
def loadedValue (size v : Nat) : Word :=
  if size < 3 then BitVec.ofInt 64 (Int.bmod v (2 ^ (8 * 2 ^ size))) else BitVec.ofNat 64 v

/-- The number in n bytes of the own scratchpad, little-endian (R10). -/
def ownNumber (s : State) (off n : Nat) : Nat := ((List.range n).map fun k => (s.spByte s.curCid (off + k)).toNat * 256 ^ k).sum

/-- The lines of the own L1 but that of one address are as they were. -/
def OtherLines (s t : State) (pa : Nat) : Prop := ∀ q, q / 128 ≠ pa / 128 → t.l1Get s.curCid q = s.l1Get s.curCid q

/-- A store of those of the n low bytes of a value that are on writes through to the line of its address where the own L1 holds it,
and brings no line (R85). -/
def WritesThrough (s t : State) (pa n : Nat) (v : VWord) (on : Nat → Bool := fun _ => true) : Prop :=
  OtherLines s t pa ∧ (t.l1Get s.curCid pa).isSome = (s.l1Get s.curCid pa).isSome
    ∧ ∀ d e, s.l1Get s.curCid pa = some d → t.l1Get s.curCid pa = some e → ∀ k, k < 128 →
      e.extractLsb' (8 * k) 8 = if pa % 128 ≤ k ∧ k < pa % 128 + n ∧ on (k - pa % 128) = true then v.extractLsb' (8 * (k - pa % 128)) 8
        else d.extractLsb' (8 * k) 8

/-- The line of an address is not in the own L1, and the others are as they were (R85). -/
def LineDropped (s t : State) (pa : Nat) : Prop := OtherLines s t pa ∧ t.l1Get s.curCid pa = none

/-- The larger of two FP32 magnitudes (R96). -/
def largerMagnitude (x y : Nat) : Nat :=
  if decodeF f32 x = .nan ∨ decodeF f32 y = .nan then 0x7FC00000 else Max.max (x % 2 ^ 31) (y % 2 ^ 31)

/-- The AMOs (R95, R96): operation code, and the new word of the old word, b and the old d; none where nothing is written. -/
def amoOf : Instr → Option (AF × Nat × (Word → Word → Word → Option Word))
  | .amoadd f => some (f, 0, fun m b _ => some (m + b))
  | .amoand f => some (f, 1, fun m b _ => some (m &&& b))
  | .amoor f => some (f, 2, fun m b _ => some (m ||| b))
  | .amoxor f => some (f, 3, fun m b _ => some (m ^^^ b))
  | .amomin f => some (f, 4, fun m b _ => some (if b.toInt < m.toInt then b else m))
  | .amomax f => some (f, 5, fun m b _ => some (if m.toInt < b.toInt then b else m))
  | .amominu f => some (f, 6, fun m b _ => some (if b.toNat < m.toNat then b else m))
  | .amomaxu f => some (f, 7, fun m b _ => some (if m.toNat < b.toNat then b else m))
  | .amoswap f => some (f, 8, fun _ b _ => some b)
  | .amocas f => some (f, 9, fun m b d => if m = d then some b else none)
  | .amofadd f => some (f, 10, fun m b _ => some (BitVec.ofNat 64 (addF f32 .rne (low32 m) (low32 b))))
  | .amoamax f => some (f, 11, fun m b _ => some (BitVec.ofNat 64 (largerMagnitude (low32 m) (low32 b))))
  | _ => none

/-- The expected word of an AMO: the old d of AMOCAS. -/
def expectedWord (s : State) (f : AF) (op : Nat) : Word := if op = 9 then s.hereW f.d else 0

/-! ### Vector instructions -/

/-- The width of a lane of an element type (R52). -/
def laneWidth (et : Nat) : Nat :=
  match et with
  | 1 | 2 | 12 | 13 => 8
  | 3 | 4 | 10 | 11 => 16
  | 5 | 6 | 9 => 32
  | _ => 64

/-- Lane j of a value (R101). -/
def laneOf (w : Nat) (v : VWord) (j : Nat) : Nat := v.toNat / 2 ^ (w * j) % 2 ^ w

/-- A lane of an integer type, read as signed or unsigned (R52): the odd codes are signed. -/
def laneInt (et x : Nat) : Int := if et % 2 = 1 then Int.bmod x (2 ^ laneWidth et) else x

/-- An integer as a lane (R11). -/
def toLane (w : Nat) (x : Int) : Nat := (x % (2 ^ w : Nat)).toNat

/-- A lane is on (R101). -/
def laneOn (s : State) (f : XF) (j : Nat) : Bool := f.k == 0 || (s.hereK f.k.toNat).getLsbD j != f.kneg

/-- The bytes of the lanes of n lanes that satisfy a test. -/
def bytesOf (w : Nat) (on : Nat → Bool) (mask : BitVec 16) : Prop := ∀ i, i < 16 → mask.getLsbD i = on (i / (w / 8))

/-- The lanes that are on, of the n lowest, in ascending order. -/
def onLanes (s : State) (f : XF) (n : Nat) : List Nat := (List.range n).filter (laneOn s f)

/-- The integer lane operations (R103, R104): of the width, the shift amount, and the lanes of a, b and c. -/
def integerLanes : List ((XF → Instr) × (Nat → Nat → Int → Int → Int → Int)) :=
  [ (.vadd, fun _ _ a b _ => a + b)
  , (.vsub, fun _ _ a b _ => a - b)
  , (.vmul, fun _ _ a b _ => a * b)
  , (.vmulh, fun w _ a b _ => a * b / (2 ^ w : Nat))
  , (.vmad, fun _ _ a b c => a * b + c)
  , (.vmin, fun _ _ a b _ => if b < a then b else a)
  , (.vmax, fun _ _ a b _ => if a < b then b else a)
  , (.vabs, fun _ _ a _ _ => if a < 0 then -a else a)
  , (.vand, fun w _ a b _ => (toLane w a &&& toLane w b : Nat))
  , (.vor, fun w _ a b _ => (toLane w a ||| toLane w b : Nat))
  , (.vxor, fun w _ a b _ => (toLane w a ^^^ toLane w b : Nat))
  , (.vshli, fun w n a _ _ => if n < w then a * (2 ^ n : Nat) else 0)
  , (.vshri, fun w n a _ _ => if n < w then (toLane w a / 2 ^ n : Nat) else 0)
  , (.vsrai, fun w n a _ _ => if n < w then Int.bmod a (2 ^ w) / (2 ^ n : Nat) else if Int.bmod a (2 ^ w) < 0 then -1 else 0)
  , (.vrshr, fun w n a _ _ => if n = 0 then a else if w < n then 0 else (a + (2 ^ (n - 1) : Nat)) / (2 ^ n : Nat)) ]

/-- The format of a floating-point type (R30, R52). -/
def formatOf (et : Nat) : Fmt :=
  match et with
  | 9 => f32
  | 10 => f16
  | 11 => bf16
  | 12 => e4m3
  | _ => e5m2

/-- The floating-point lane operations that round (R106). -/
def floatLaneOps : List ((XF → Instr) × (Fmt → Mode → Nat → Nat → Nat → Nat)) :=
  [ (.vfadd, fun t m a b _ => roundF t m (FVal.add m.down (decodeF t a) (decodeF t b)))
  , (.vfsub, fun t m a b _ => roundF t m (FVal.add m.down (decodeF t a) (decodeF t b).neg))
  , (.vfmul, fun t m a b _ => roundF t m (FVal.mul (decodeF t a) (decodeF t b)))
  , (.vffma, fun t m a b c => roundF t m (FVal.add m.down (FVal.mul (decodeF t a) (decodeF t b)) (decodeF t c))) ]

/-- The number of the rounding mode of an extended instruction (R34): its override, or RND.MODE. -/
def roundingNumber (s : State) (f : XF) : Nat := if f.ro = 0 then (rndHere s).toNat % 8 else f.ro.toNat - 1

/-- The mode of the k-th rounding of an instruction (R33, R34, R37). -/
def roundingMode (s : State) (f : XF) (k : Nat) : Mode :=
  if roundingNumber s f = 5 then
    .sr (srBitsOf (rndHere s))
      (draw (s.word64 s.curCid s.curSlot wsSeed) (BitVec.ofNat 64 s.here.idx) (((rndHere s).toNat / 2 ^ 32 + k) % 2 ^ 32)).toNat
  else modeNumbered (roundingNumber s f)

/-- RND with the SRCTR that n draws leave (R37). -/
def rndAdvanced (s : State) (n : Nat) : Word :=
  ((rndHere s).extractLsb' 32 32 + BitVec.ofNat 32 n) ++ (rndHere s).extractLsb' 0 32

/-- The change that an instruction of a rounding kind makes to RND: nothing but under SR, where n draws are consumed. -/
def Draws (s t : State) (f : XF) (n : Nat) : Prop :=
  (roundingNumber s f ≠ 5 → s.OnlyIssue t)
    ∧ (roundingNumber s f = 5 → s.canonHere = true → rndHere t = rndAdvanced s n ∧ t.offCore = s.offCore)

/-- The rearrangements of lanes (R108, R110), without VSPLAT: the source lane, in a or in b, of each lane. -/
def laneMoves : List ((XF → Instr) × (XF → State → Nat → Nat → Bool × Nat)) :=
  [ (.vperm, fun f s l j => (false, (s.hereQ f.b).toNat / 16 ^ j % 16 % l))
  , (.vslide, fun f _ l j => if j + f.aux8.toNat < l then (false, j + f.aux8.toNat) else (true, j + f.aux8.toNat - l)) ]

/-- One step of a reduction (R109). -/
def reduced (et op : Nat) (m : Mode) (r x : Nat) : Nat :=
  let w := laneWidth et
  if 9 ≤ et then
    match op with
    | 0 => roundF (formatOf et) m (FVal.add m.down (decodeF (formatOf et) r) (decodeF (formatOf et) x))
    | 1 => minF (formatOf et) r x
    | _ => maxF (formatOf et) r x
  else
    match op with
    | 0 => (r + x) % 2 ^ w
    | 1 => if laneInt et x < laneInt et r then x else r
    | _ => if laneInt et r < laneInt et x then x else r

/-- The result of a reduction with no lane on (R109): of the types F32, F16 and BF16 the infinities. -/
def reducedNone (et op : Nat) : Nat :=
  let w := laneWidth et
  match op with
  | 0 => 0
  | 1 => if et = 9 then 0x7F800000 else if et = 10 then 0x7C00 else if et = 11 then 0x7F80 else if et % 2 = 1 then 2 ^ (w - 1) - 1 else 2 ^ w - 1
  | _ => if et = 9 then 0xFF800000 else if et = 10 then 0xFC00 else if et = 11 then 0xFF80 else if et % 2 = 1 then 2 ^ (w - 1) else 0

/-- A comparison of lanes (R111). -/
def laneCompare (et cond a b : Nat) : Bool :=
  let t := formatOf et
  if 9 ≤ et then
    match cond with
    | 0 => eqF t a b
    | 1 => !eqF t a b
    | 2 => ltF t a b
    | 3 => leF t a b
    | 4 => ltF t b a
    | _ => leF t b a
  else
    match cond with
    | 0 => laneInt et a == laneInt et b
    | 1 => laneInt et a != laneInt et b
    | 2 => decide (laneInt et a < laneInt et b)
    | 3 => decide (laneInt et a ≤ laneInt et b)
    | 4 => decide (laneInt et b < laneInt et a)
    | _ => decide (laneInt et b ≤ laneInt et a)

/-- A fixed-latency result of a predicate register. -/
def predicateResult (s : State) (d lat : Nat) (v : VWord) : List Pend :=
  [{ due := s.hereCore.turn + lat, slot := s.curSlot, dest := .reg s.curSlot (616 + 2 * d), data := v, mask := 3 }]

/-- A number as a lane of a type under a mode (R38, R39). -/
def convertedLane (d s : Nat) (m : Mode) (x : Nat) : Nat :=
  let v : FVal := if 9 ≤ s then decodeF (formatOf s) x else .fin (decide (laneInt s x < 0)) (laneInt s x).natAbs 0
  if 9 ≤ d then convertF (formatOf d) m v
  else
    let lo : Int := if d % 2 = 1 then -(2 ^ (laneWidth d - 1) : Nat) else 0
    let hi : Int := if d % 2 = 1 then (2 ^ (laneWidth d - 1) : Nat) - 1 else (2 ^ laneWidth d : Nat) - 1
    match v with
    | .nan => 0
    | .inf neg => toLane (laneWidth d) (if neg then lo else hi)
    | .fin neg k e => toLane (laneWidth d) (Max.max lo (Min.min hi (roundInt m neg k e)))

/-- The types between which VFCVT is exact and takes no draw (R37, R38). -/
def exactTypes (d s : Nat) : Bool := (d == 9 && (s == 10 || s == 11 || s == 12 || s == 13)) || ((d == 10 || d == 11) && (s == 12 || s == 13))

/-- The vector fields of an instruction, in the order of their uses, and how many of them before one name the same operand. -/
def vectorFields (f : XF) : List (BitVec 5) := [f.a, f.b, f.c, f.d]
def usedBefore (f : XF) (j : Nat) : Nat := ((vectorFields f).take j).count ((vectorFields f).getD j 0)

/-- The fields that name a pointer. -/
def pointerFields (f : XF) : List Nat := (List.range 4).filter fun j => decide (24 ≤ ((vectorFields f).getD j 0).toNat)

/-- A register of an operation's pointers is quiet, and the pointer's address, behind the earlier uses of it, lies in the own
scratchpad and away from the pointers. -/
def pointerGood (s : State) (f : XF) (j off : Nat) : Prop :=
  let n := ((vectorFields f).getD j 0).toNat - 24
  s.quietReg (512 + 8 * n) = true
    ∧ s.ownRange (s.preg s.curCid s.curSlot n + BitVec.ofNat 64 (16 * usedBefore f j)) 16 (decide (j = 3)) off
    ∧ (off + 16 ≤ s.curSlot * 1024 + 512 ∨ s.curSlot * 1024 + 576 ≤ off)

/-- What an instruction with a stream operand changes: besides what every issue changes, the own core's ports. -/
def OnlyPorts (s t : State) (n : Nat) : Prop :=
  t.offCore = s.offCore ∧ (∀ c, c ≠ s.curCid → t.core c = s.core c)
    ∧ { t.hereCore.offTurn with streams := [] } = { s.hereCore.offTurn with streams := [] }
    ∧ (∀ k, k ≠ n → tfind t.hereCore.streams k = tfind s.hereCore.streams k)
    ∧ (∀ i, i ≠ s.curSlot → t.slot s.curCid i = s.slot s.curCid i) ∧ t.here.offIssue = s.here.offIssue

/-! ### Special functions, streams, channels, and what comes back to a core -/

/-- The special functions (R121). -/
def specialFunctions : List (XF → Instr) := [.srcp, .srsq, .sexp2, .slog2, .ssin, .scos, .stanh, .ssigm]

/-- An integer as a significand with j bits below the point. -/
def scaled (neg : Bool) (m j : Nat) : FVal := .fin neg (m * 2 ^ j) (-(j : Int))

/-- An FP32 value is exactly an integer in units of 2^-149. -/
def isExactly (x : FVal) (v : Int) : Prop := ∃ n m e, x = .fin n m e ∧ -149 ≤ e ∧ (if n then -(m : Int) else m) * 2 ^ (e + 149).toNat = v

/-- A WAITV is the one access of its number and the one that watches, some byte of its word is among n bytes from an address of its
home, and its context is parked in it (R93). -/
def soleWatch (s : State) (w : Msg) (h : Home) (addr n : Nat) : Prop :=
  w ∈ s.net ∧ w.kind = .watch ∧ w.watching = true ∧ w.loc.home = h ∧ w.loc.addr < addr + n ∧ addr < w.loc.addr + 8
    ∧ (∀ x ∈ s.net, x.id = w.id ∨ (x.kind = .watch ∧ x.watching = true) → x = w)
    ∧ (s.slot w.cid w.slot).live = true ∧ (s.slot w.cid w.slot).serial = w.serial ∧ (s.slot w.cid w.slot).wait = .watch w.id

/-- A WAITV has read its word again: still its compared value, and it watches on; or another, and its context goes on at its next own
turn, in which its destination is written (R93, R246). -/
def Rewatched (t : State) (w : Msg) : Prop :=
  let v := BitVec.ofNat 64 (leNat (t.readLoc w.loc 8))
  let x := t.slot w.cid w.slot
  if v = w.expect then x.wait = .watch w.id ∧ t.msg? w.id = some w
  else x.wait = .ready ∧ x.own = true ∧ t.msg? w.id = none
    ∧ { due := t.nextOwnTurn w.cid w.slot, slot := w.slot, dest := w.dest, data := v.setWidth 128, mask := lowMask 8 } ∈ (t.core w.cid).pend

/-- The last n of the issuing core (R226, R230). -/
def lastHere (s : State) (n : Nat) : Last := parseLast ((List.range 64).map fun k => s.spByte s.curCid (0x4000 + 64 * n + k))

/-- A last that a stream accepts, with no partition and of one dimension (R115). -/
def plainStream (l : Last) (a : Word) : Prop :=
  l.valid = true ∧ l.hnd = false ∧ l.ndim = 1 ∧ l.splitcnt = 0 ∧ l.etype ≤ 13 ∧ l.s0 = elementBits l.etype / 8
    ∧ l.extent 0 * elementBits l.etype % 128 = 0 ∧ (if a = 0 then l.base else a).toNat % 16 = 0

/-- The state with the object of a step. -/
def withObject (s : State) (o : Obj) : State := { s with obj := o }

/-- The message of the network that a step is about, the only one of its number. -/
def stepMessage (s : State) (m : Msg) : Prop := m.id = s.obj.a ∧ ∃ pre post, s.net = pre ++ m :: post ∧ ∀ x ∈ pre ++ post, x.id ≠ m.id

/-- The bytes that a store message carries to one place. -/
def carriedByte (m : Msg) (k : Nat) : Byte := m.data.extractLsb' (8 * k) 8

/-- The offset in the scratchpad of an address of the own workspace (R13). -/
def workspaceAt (s : State) (off : Nat) : Nat := s.curSlot * 1024 + off

/-- TSTATUS as trap entry leaves it (R26), from word 0 of the instruction. -/
def statusAfterTrap (w0 : BitVec 32) (t : TrapInfo) : BitVec 16 :=
  BitVec.ofNat 16 (w0.toNat / 32 % 64 * 1024 + w0.toNat % 4 * 256 + 16 + (if t.write then 8 else 0) + t.use % 8)

/-- The number n of SAFEPT, TRAP and BKPT (R73). -/
def sysNumber (f : RF) : Nat := f.b.toNat * 1024 + f.a.toNat * 32 + f.d.toNat

/-- The state after the trap of an instruction that leaves the memory-error counters alone. -/
def trapOnly (ins : Instr) (s : State) (c : Cause) (v : Word) : Host.Outcome State Fault Refusal :=
  .next (s.trapHere ins { cause := c, tval := v })

/-- The fixed-latency result of a channel d: the word of the next place of its outbound queue (R119). -/
def placeResult (s : State) (n lat : Nat) (v : Word) : Pend where
  due := s.hereCore.turn + lat
  slot := s.curSlot
  dest := .place n (s.chan s.curCid n).nextSeq
  data := v.setWidth 128
  mask := 0xFF

/-- The fixed-latency result of a scalar field: of a register, or of a place of a channel (R18, R20, R119). -/
def fieldResult (s : State) (d : BitVec 5) (lat : Nat) (v : Word) : List Pend :=
  if d.toNat < 28 then s.scalarResult d lat v else [placeResult s (d.toNat - 28) lat v]

/-! ### Encodings and the step -/

/-- Words that the spec writes out, with the instructions that they are: an opcode family or a format each. -/
def writtenWords : List (List W32 × Instr) :=
  [ ([0x00000220], .nop ⟨0, 0, 0, 0⟩)
  , ([0xFF200960], .movi ⟨0, 1, 0, 0x7F9⟩)
  , ([0x00000962, 0x00005000, 0x00000000], .moviLit ⟨0, 1, 0, 0x5000⟩)
  , ([0x40600A60], .st ⟨0, 1, 0, 3, 0x40⟩)
  , ([0x14411834], .div ⟨5, 3, 1, 2⟩)
  , ([0x6CC74020], .bfx ⟨0, 8, 7, 6⟩)
  , ([0xFC0089A0], .br ⟨0, 1, 2, 0, 0xFC⟩)
  , ([0x000049E0], .call ⟨0, 9⟩)
  , ([0x001B0200], .jr ⟨0, 0, 27, 0⟩)
  , ([0x08002A20], .trap ⟨0, 5, 0, 0⟩)
  , ([0x02422280], .ldAcq ⟨0, 4, 2, 2, 2⟩)
  , ([0x006742A2, 0x00005000, 0x00000000], .stRelLit ⟨0, 8, 7, 3, 0x5000⟩)
  , ([0x0C020B00], .fenceS ⟨0, 1, 2, 0⟩)
  , ([0x0CC51AE0], .amoadd ⟨0, 3, 5, 6, 3⟩)
  , ([0x90A122E0], .amocas ⟨0, 4, 1, 5, 0⟩)
  , ([0x00000321, 0x01000510, 0x00000000], .vrshr ⟨0, 0, 0, 0, 0, 5, 0, false, 0, 1, 0⟩)
  , ([0x0338D341, 0x00000900, 0x00000000], .vfadd ⟨0, 26, 24, 25, 0, 9, 0, false, 0, 0, 0⟩)
  , ([0x0014D361, 0x00000100, 0x00000000], .vld ⟨0, 26, 20, 0, 0, 1, 0, false, 0, 0, 0⟩)
  , ([0x00653381, 0x00001904, 0x00000000], .vsel ⟨0, 6, 5, 3, 0, 9, 1, false, 0, 0, 0⟩)
  , ([0x00003B83, 0x00000900, 0x00000000, 0x3F000000, 0x00000000], .vsplatLit ⟨⟨0, 7, 0, 0, 0, 9, 0, false, 0, 0, 0⟩, 0x3F000000⟩)
  , ([0x000113A1, 0x05000900, 0x00000000], .vfcvt ⟨0, 2, 1, 0, 0, 9, 0, false, 0, 5, 0⟩)
  , ([0x000743C1, 0x00002900, 0x00000000], .srcp ⟨0, 8, 7, 0, 0, 9, 2, false, 0, 0, 0⟩)
  , ([0x000083E1, 0x00000000, 0x00000000], .stbind ⟨0, 16, 0, 0, 0, 0, 0, false, 0, 0, 0⟩)
  , ([0x00A41401, 0x00080F07, 0x00010002], .scacc ⟨0, 2, 4, 5, 1, 15, 0, false, 0, 0, 0x10002⟩)
  , ([0x00A30421, 0x40300000, 0x00000000], .send ⟨0, 0, 3, 5, 6, 0, 0, false, 0, 0x40, 0⟩)
  , ([0x00833441, 0x00280A01, 0x00000000], .nzscan ⟨0, 6, 3, 4, 5, 10, 0, false, 0, 0, 0⟩)
  , ([0x01464481, 0x01000000, 0x00000003], .gmaddJ ⟨0, 8, 6, 10, 0, 0, 0, false, 0, 1, 3⟩)
  , ([0x000204A1, 0x00000000, 0x00000019], .start ⟨0, 0, 2, 0, 0, 0, 0, false, 0, 0, 25⟩)
  , ([0x000004C1, 0x00000002, 0x00000000], .rdvwait ⟨0, 0, 0, 0, 0, 0, 0, false, 0, 0, 0⟩) ]

/-- Words that are no instruction (R58): the word of zeros, a major and a minor not assigned, a LEN that the major does not
take, a field that must be zero, and a type that the line does not take. -/
def reservedWords : List (List W32) :=
  [[0x00000000], [0x000004E0], [0x7C000020], [0x00000021, 0x00000000, 0x00000000], [0x00200962, 0x00005000, 0x00000000], [0x04000720, 0x00000000, 0x00000000]
  , [0x04000321, 0x00000500, 0x00000000], [0x00000321, 0x00000900, 0x00000000], [0x00000321, 0x00008500, 0x00000000], [0x00000321, 0x00070500, 0x00000000]]

/-- The code of a context holds words from an address on: each in the loaded code of a deterministic group's core, or in HBM, in a page
that may be executed (R59, R307). -/
def codeAt (s : State) (cid region : Nat) (det : Bool) (pc : Word) (ws : List W32) : Prop :=
  ∀ j, j < ws.length → 0x80000 ≤ pc.toNat + 4 * j ∧ pc.toNat + 4 * j < 2 ^ 55
    ∧ match if det then s.codeIndex cid (pc + BitVec.ofNat 64 (4 * j)) else none with
      | some k => ∃ c, (s.core cid).code = some c ∧ c.words[k]? = some (.word (ws.getD j 0))
      | none => ∃ l, s.fetchPlace cid region (pc.toNat + 4 * j) = .ok l ∧ leNat (s.readLoc l 4) = (ws.getD j 0).toNat

/-- A context of a core can issue a well-formed instruction in its core's turn: it is ready and not held, and the instruction stands at
its PC (R16, R19, R59). -/
def canIssue (s : State) (cid i : Nat) (ins : Instr) : Prop :=
  (s.slot cid i).guest = false ∧ s.ready cid i = true ∧ s.fetchReady cid i = true ∧ s.blocked cid i ins = false
    ∧ codeAt s cid (s.slot cid i).region (s.slot cid i).mode.det (s.slot cid i).pc (encode ins)

/-- No slot of a list uses a turn that is lent (R210). -/
def noneBorrows (s : State) (cid : Nat) (js : List Nat) : Prop := ∀ j ∈ js, s.borrows cid j = true → s.offer cid j = none

/-- A state but for the L2, in which a fetch uses lines. -/
def offL2 (s : State) : State := { s with l2 := [] }

/-- The step of an instruction: exec of it, and the end of the turn. -/
def issued (cid : Nat) (o : Host.Outcome State Fault Refusal) : Host.Outcome State Fault Refusal :=
  match o with
  | .next t => .next (t.endTurn cid)
  | .fault e => .fault e
  | .refused r => .refused r

/-- The next turn is that of a core, and no step of the agenda comes before it (R15, R236). -/
def nextTurnOf (s : State) (cid : Nat) (k : Nat × Nat) : Prop :=
  s.stopped = false ∧ State.firstTurn s.cores = some (cid, k) ∧ ∀ e q, s.firstEvent s.agenda = some (e, q) → State.keyLt k q = true

/-- The next step is one of the agenda. -/
def nextEventIs (s : State) (e : Event) (k : Nat × Nat) : Prop :=
  s.stopped = false ∧ s.firstEvent s.agenda = some (e, k) ∧ ∀ cid q, State.firstTurn s.cores = some (cid, q) → State.keyLt q k = false

/-- Every byte list that holds memory or registers is in canonical form: HBM and the CXL tier, the scratchpads, and the
frames of contexts, in their slots, on their way and saved. -/
def canonical (s : State) : Bool :=
  s.mem.wf && (s.cores.all fun p => p.2.sp.wf && p.2.slots.all fun q => q.2.frame.wf) && (s.moves.all fun m => m.ctx.frame.wf)
    && (s.fabric.all fun p => match p.kind with | .context c => c.frame.wf | _ => true)
    && (s.groups.all fun p => match p.2.saved with | some v => v.slots.all fun q => q.2.all fun r => r.2.frame.wf | none => true)

/-- n bytes of the own scratchpad. -/
def ownBytes (s : State) (off n : Nat) : List Byte := (List.range n).map fun k => s.spByte s.curCid (off + k)

/-- n units of 16 bytes from an address lie in the own scratchpad, and each passes the checks of R82. -/
def ownUnits (s : State) (va : Word) (off n : Nat) (write : Bool) : Prop :=
  ∀ j, j < n → s.ownRange (va + BitVec.ofNat 64 (16 * j)) 16 write (off + 16 * j)

/-- A word delivered to a scalar register at the instruction's own turn; w0 takes nothing (R18, R23). -/
def Delivers (s t : State) (d : BitVec 5) (v : Word) : Prop :=
  if d = 0 then s.OnlyIssue t else s.StoresHere t (1024 * s.curSlot + 8 * d.toNat) 8 ∧ t.hereW d = v

/-- The cluster of the issuing core. -/
def myCluster (s : State) : Nat := clusterOf s.curCid

/-- The cluster queue takes an entry that needs a number of lock entries (R126, R127). -/
def queueTakes (s : State) (need : Nat) : Bool :=
  let c := s.cluster (myCluster s)
  c.waiting.isEmpty && decide (c.queue.length < 32) && decide (need ≤ 32 - c.locks.length)

/-- An entry posted (R126, R127): last in the queue of the cluster, at the lowest index that no entry there has (R232), or where it cannot
be taken, last of those that wait; and nothing else but locks and pins changes. -/
def Posts (s t : State) (need : Nat) (kind : EntryKind) (units : List (Word × Loc)) : Prop :=
  let k := myCluster s
  let e : Entry := { id := s.serial, cid := s.curCid, slot := s.curSlot, serial := s.here.serial, gid := s.here.gid, kind := kind, units := units }
  s.Changes t (fun u => { u with clusters := [], serial := 0 }) (fun c => { c with hs := [] })
    ∧ (∀ j, j ≠ k → t.cluster j = s.cluster j)
    ∧ { t.cluster k with queue := [], waiting := [], locks := [] } = { s.cluster k with queue := [], waiting := [], locks := [] }
    ∧ (if queueTakes s need then (t.cluster k).waiting = []
        ∧ (∃ n, n < 32 ∧ (t.cluster k).queue = (s.cluster k).queue ++ [{ e with place := n }] ∧ (∀ x ∈ (s.cluster k).queue, x.place ≠ n)
            ∧ ∀ m, m < n → ∃ x ∈ (s.cluster k).queue, x.place = m)
        ∧ (t.cluster k).locks.length = (s.cluster k).locks.length + need
      else (t.cluster k).queue = (s.cluster k).queue ∧ (t.cluster k).waiting = (s.cluster k).waiting ++ [e]
        ∧ (t.cluster k).locks = (s.cluster k).locks)

/-- A posted entry's instruction goes on once its entry is taken (R126). -/
def PostedBy (s t : State) (need : Nat) (kind : EntryKind) : Prop :=
  Posts s t need kind [] ∧ (if queueTakes s need then s.IssuedTo t (s.here.pc + 12) else s.WaitsAt t (s.here.pc + 12) .enqueue)

/-- An operand of a task that passes the checks of R134 step 3: rows in the own scratchpad, or the range of a FULL handle,
which a sampled task asks for a norm table. -/
def operandGood (s : State) (samp hnd : Bool) (addr stride : Word) (swz rows bytes : Nat) (needs : NormShape → Bool) (o : Operand) : Prop :=
  if hnd then
    let h := s.handle s.curCid addr.toNat
    let step := match h.norm with | some t => (normShape t.desc).pitch | none => bytes
    let n := (rows - 1) * step + bytes
    h.state = .full ∧ h.swz = swz ∧ (samp = true → ∃ t, h.norm = some t ∧ needs (normShape t.desc) = true)
      ∧ step % 16 = 0 ∧ bytes ≤ step ∧ n ≤ h.len ∧ s.here.guest = false ∧ h.base + n ≤ 0x60000 ∧ s.scratchLocked s.curCid h.base n false = false
      ∧ o = { cid := some s.curCid, base := h.base, stride := step, len := h.len, handle := some addr.toNat, swz := swz, dense := h.norm.isNone }
  else
    let n := (rows - 1) * stride.toNat + bytes
    swz = 0 ∧ addr.toNat % 16 = 0 ∧ stride.toNat % 16 = 0 ∧ bytes ≤ stride.toNat ∧ s.here.guest = false
      ∧ s.ownAddress addr o.base ∧ o.base + n ≤ 0x60000 ∧ s.scratchLocked s.curCid o.base n false = false
      ∧ o = { cid := some s.curCid, base := o.base, stride := stride.toNat, len := n }

/-- A value that was read without error. -/
def readValue (x : Elem) : FVal := match x with | .ok v => v | .error _ => .fin false 0 0

/-- The terms that pass j of word (r, n) of a task on an engine adds (R136): elements of its operands and of the active plane.  The rows
of a handle without a norm table are as long as the elements of that plane (R247). -/
def taskTerms (s : State) (cl cid region eng : Nat) (k : TaskRec) (r n j : Nat) : List FVal :=
  let en := s.engine cl eng
  let c := State.taskCoding k en.active (State.codebook en k.cbslot)
  let oa := if k.a.dense = true ∧ k.mode ≠ 2 then { k.a with stride := (if k.mode = 0 then 64 else 32) * c.bits / 8 } else k.a
  let a := fun m x => readValue ((s.operandRow cid region oa c m [x]).headD (.ok (.fin false 0 0)))
  let b := fun m x => readValue ((s.operandRow cid region k.b c m [x]).headD (.ok (.fin false 0 0)))
  let w := fun m x => readValue (c.read (fun o => .ok (en.active.byte m o)) x)
  match k.mode with
  | 0 => (List.range 64).map fun x => FVal.mul (a r x) (w x n)
  | 1 => (List.range 32).map fun x => FVal.mul (w r x) (a n x)
  | _ => (rangeFrom (64 * j) (Nat.min 64 (k.klen - 64 * j))).map fun x => FVal.mul (a r x) (b x n)

/-- The elements of a task are integers. -/
def taskInt (s : State) (cl eng : Nat) (k : TaskRec) : Bool := (State.taskCoding k (s.engine cl eng).active []).isInt

/-- The loops of a task name word (r, n) (R136). -/
def taskNames (k : TaskRec) (r n : Nat) : Prop := (k.mode = 1 ∧ n < k.rows) ∨ (k.mode ≠ 1 ∧ r < k.rows)

/-- The word (r, n) of an accumulator after a task that is neither sampled nor MX and that no error ends, and whether one of its passes
overflowed (R44, R136). -/
def taskCell (s : State) (cl cid region eng : Nat) (k : TaskRec) (old : Tab (BitVec 32)) (r n : Nat) : BitVec 32 × Bool :=
  let passes := if k.mode = 2 then (k.klen + 63) / 64 else 1
  (List.range passes).foldl (fun c j =>
    let p := pass (taskInt s cl eng k) c.1 (taskTerms s cl cid region eng k r n j)
    (p.1, c.2 || p.2)) (accWord old (32 * r + n), false)

/-- The same for the two blocks of an MX task (R137). -/
def mxCell (s : State) (cl cid region eng : Nat) (k : TaskRec) (second : Bool) (r n : Nat) : BitVec 32 × Bool :=
  let ts := taskTerms s cl cid region eng k r n 0
  pass (taskInt s cl eng k) 0 (if second then ts.drop 32 else ts.take 32)

/-- The status word of a task that is not sampled (R143): of error 0, with the overflow of its cells. -/
def taskStatusWord (s : State) (gid eng : Nat) (exceeds : Bool) : Word :=
  BitVec.ofNat 64 ((if exceeds then 2 ^ 34 else 0) + (if 4 ≤ (s.pitchOf gid).length ∧ eng = 1 then 2 ^ 33 else 0) + 2 ^ 32)

/-- One of the cells that a task names overflowed. -/
def cellsOver (k : TaskRec) (cell : Nat → Nat → BitVec 32 × Bool) : Prop :=
  ∃ r n, r < 64 ∧ n < 32 ∧ taskNames k r n ∧ (cell r n).2 = true

/-- The norm of slice j of a handle as a sampled task uses it: a stale one computed anew (R147, R153). -/
def usedNorm (s : State) (cid n : Nat) (t : NormTab) (j : Nat) : BitVec 32 :=
  let e := s.normEntry cid (t.first + j)
  if e.stale then normOf ((s.sliceElems cid n (s.handle cid n) t j).map readValue) else e.norm

/-- The stale slices of a table. -/
def staleCount (s : State) (cid : Nat) (t : NormTab) : Nat := (List.range t.count).countP fun j => (s.normEntry cid (t.first + j)).stale

/-- How often slice k is drawn: the draws i with q[0] + … + q[k−1] ≤ r < q[0] + … + q[k] (R154). -/
def drawnOf (seed tag : Word) (q : List Nat) (n k : Nat) : Nat :=
  (List.range n).countP fun i =>
    let r := (draw seed tag i).toNat * q.sum / 2 ^ 32
    decide ((q.take k).sum ≤ r) && decide (r < (q.take (k + 1)).sum)

/-- A sum of terms in passes of 64 from +0 (R153, R155). -/
def passesOf (ts : List FVal) : BitVec 32 :=
  (List.range ((ts.length + 63) / 64)).foldl (fun c j => (pass false c ((ts.drop (64 * j)).take 64)).1) 0

/-- The product of A[r][x] and B[x][n] of a sampled task. -/
def sampledTerm (s : State) (cid region : Nat) (k : TaskRec) (r n x : Nat) : FVal × FVal :=
  let c : Coding := { etype := k.etype }
  (readValue ((s.operandRow cid region k.a c r [x]).headD (.ok (.fin false 0 0))), readValue ((s.operandRow cid region k.b c x [n]).headD (.ok (.fin false 0 0))))

/-- The exact product, and the estimate from the draws (R153, R155), of word (r, n). -/
def exactWord (s : State) (cid region : Nat) (k : TaskRec) (r n : Nat) : BitVec 32 :=
  passesOf ((List.range k.klen).map fun x => let p := sampledTerm s cid region k r n x; FVal.mul p.1 p.2)
def estimateWord (s : State) (cid region : Nat) (k : TaskRec) (q : List Nat) (m : Nat → Nat) (draws r n : Nat) : BitVec 32 :=
  passesOf ((List.range k.slices).flatMap fun i =>
    if m i = 0 then [] else
      let c := decodeF f32 (roundRatio f32 (m i * q.sum) (draws * q.getD i 1))
      (rangeFrom (i * 2 ^ k.wlog) (2 ^ k.wlog)).map fun x => let p := sampledTerm s cid region k r n x; FVal.mul (FVal.mul c p.1) p.2)

/-- The words of the tile that a sampled task writes, in order. -/
def tileList (k : TaskRec) (w : Nat → Nat → BitVec 32) : List (BitVec 32) := (List.range (32 * k.rows)).map fun i => w (i / 32) (i % 32)

/-- The status word of a sampled task that no error ends (R159). -/
def sampledWord (nrec : Nat) (aud exact : Bool) (rho : BitVec 32) : Word :=
  BitVec.ofNat 64 (Min.min nrec 255 * 2 ^ 56 + (if aud then 2 ^ 36 else 0) + (if exact then 2 ^ 35 else 0) + 2 ^ 32 + rho.toNat)

/-- What a sampled task computes first (R153 to R158): the norms of its slices, their weights, the number of draws, how often each
slice is drawn, the slices recomputed, the exact and the estimated words, RHO, and what decides between them. -/
structure Sampling where
  na : List (BitVec 32)
  nb : List (BitVec 32)
  q : List Nat
  draws : Nat
  drawn : Nat → Nat
  nrec : Nat
  exact : Nat → Nat → BitVec 32
  estimate : Nat → Nat → BitVec 32
  rho : BitVec 32
  finite : Bool
  exceeds : Bool
  audited : Bool

def samplingOf (s : State) (e : Entry) (k : TaskRec) (ha hb : Nat) (ta tb : NormTab) : Sampling :=
  let region := s.regionOf e.gid
  let na := (List.range k.slices).map (usedNorm s e.cid ha ta)
  let nb := (List.range k.slices).map (usedNorm s e.cid hb tb)
  let v := (na.zip nb).map fun p => sqrtProduct p.1 p.2
  let total := v.foldl (fun x y => BitVec.ofNat 32 (addF f32 .rne x.toNat y.toNat)) 0
  let q := v.map fun x => if fixed x = 0 then 0 else Max.max 1 (fixed x * 2 ^ 24 / fixed total)
  let n := if s.governed e.cid then Max.max 2 (k.samples * s.budget / 8) else k.samples
  let m := drawnOf k.seed k.tag q n
  let est := estimateWord s e.cid region k q m n
  let rho := rhoOf ((List.range k.slices).filterMap fun i => if m i = 0 then none else some (i, m i)) q na nb n (tileList k est)
  { na, nb, q, draws := n, drawn := m, nrec := staleCount s e.cid ta + staleCount s e.cid tb
    exact := exactWord s e.cid region k, estimate := est, rho
    finite := (na ++ nb).all (fun x => !notFinite x) && total != 0x7F800000
    exceeds := FVal.cmp (decodeF f32 rho.toNat) (decodeF f32 k.vlim.toNat) == 1
    audited := s.governed e.cid && decide ((draw k.seed k.tag 0xFFFFFFFF).toNat < s.effAudthr region) }

/-- The words, the status and the audit of a sampled task (R153 to R157, R159): exact where a norm or their sum is not finite, where
there are as many draws as slices with a weight, or where RHO exceeds VLIM; zero where no slice has a weight. -/
def sampledOutcome (k : TaskRec) (z : Sampling) : (Nat → Nat → BitVec 32) × Word × Option (Option Word × Bool) :=
  if !z.finite then (z.exact, sampledWord z.nrec false true 0, none)
  else if z.q.all (· == 0) then (fun _ _ => 0, sampledWord z.nrec false false 0, none)
  else if z.q.countP (· ≠ 0) ≤ z.draws then (z.exact, sampledWord z.nrec false true 0, none)
  else if z.exceeds then (z.exact, sampledWord z.nrec false true z.rho, none)
  else if z.audited then (z.exact, sampledWord z.nrec true false z.rho, some (auditError (tileList k z.estimate) (tileList k z.exact) z.rho))
  else (z.estimate, sampledWord z.nrec false false z.rho, none)

/-- A sampled task on handles of its own core, whose ranges and tables agree with its record (R145, R152). -/
def sampledGood (s : State) (cid : Nat) (k : TaskRec) (ha hb : Nat) (ta tb : NormTab) : Prop :=
  k.samp = true ∧ k.mode = 2 ∧ 10 ≤ k.etype ∧ k.etype ≤ 13 ∧ k.klen = k.slices * 2 ^ k.wlog ∧ k.rows ≤ 64 ∧ 1 ≤ k.samples
    ∧ k.a.handle = some ha ∧ k.b.handle = some hb ∧ k.a.cid = some cid ∧ k.b.cid = some cid
    ∧ (s.handle cid ha).norm = some ta ∧ (s.handle cid hb).norm = some tb ∧ ta.count = k.slices ∧ tb.count = k.slices
    ∧ (ta.first + ta.count ≤ tb.first ∨ tb.first + tb.count ≤ ta.first)

/-- Word, version and status of an accumulator after an entry completes (R129, R136, R141 to R143). -/
def wordAfter (s : State) (cl : Nat) (e : Entry) (n w : Nat) : BitVec 32 :=
  let old := accWord (s.acc cl n).words w
  match e.kind with
  | .task _ x y => if n = x ∨ n = y then accWord ((tfind e.words n).getD (s.acc cl n).words) w else old
  | .zero x => if n = x then 0 else old
  | .fill x ws => if n = x then ws.getD w 0 else old
  | .scale d x fmt a b =>
    if n = d then scaleWord fmt old (accWord (s.acc cl x).words w) (a.getD (w / 32) 0).toNat (b.getD (w % 32) 0).toNat else old
  | _ => old
def versionAfter (s : State) (cl : Nat) (e : Entry) (n : Nat) : BitVec 16 :=
  let old := (s.acc cl n).version
  match e.kind with
  | .task _ x y => if n = x ∨ n = y then old + 1 else old
  | .zero x | .fill x _ | .scale x _ _ _ _ => if n = x then old + 1 else old
  | _ => old
def statusAfter (s : State) (cl : Nat) (e : Entry) (n : Nat) : Word :=
  let old := (s.acc cl n).status
  match e.kind with
  | .task _ x y => if n = x ∨ n = y then e.status else old
  | .zero x | .fill x _ => if n = x then 0 else old
  | _ => old

/-- The oldest entry of a cluster's queue that has not started, for a step of the agenda (R128). -/
def headIs (s : State) (cl : Nat) (e : Entry) : Prop := s.obj.a = cl ∧ (s.cluster cl).queue.find? (fun x => !x.started) = some e

/-- A running task names a codebook slot of an engine (R128). -/
def codebookUsed (s : State) (cl n slot : Nat) : Bool :=
  (s.engine cl n).active.tag == 14 && (s.cluster cl).queue.any fun x => x.started && x.engine == n
    && match x.kind with | .task k _ _ => k.mode != 2 && k.cbslot == slot | _ => false

/-- An entry runs: it has started, everything else of the queue is as it was, and its completion is due. -/
def Runs (s t : State) (cl : Nat) (e : Entry) : Prop :=
  e.started = true ∧ e ∈ (t.cluster cl).queue ∧ (t.cluster cl).queue.map (·.id) = (s.cluster cl).queue.map (·.id)
    ∧ (∀ x ∈ (s.cluster cl).queue, x.id ≠ e.id → x ∈ (t.cluster cl).queue)
    ∧ (t.cluster cl).accs = (s.cluster cl).accs
    ∧ ∃ x ∈ t.agenda, x.ins = .entryCompletion ∧ x.obj.a = cl ∧ x.obj.b = e.id

/-- The transfer unit takes a posting of a kind that needs a number of lock entries (R161, R167). -/
def unitTakes (s : State) (kind : TransferKind) (need : Nat) : Bool :=
  decide ((s.unitHolds s.curCid kind).length < State.unitSize (State.TransferKind.tag kind)) && decide (need ≤ 32 - (s.cluster (myCluster s)).locks.length)

/-- A transfer posted (R161): it is the last of the transfers, taken by its unit, or its context waits for that. -/
def Transfers (s t : State) (bytes : Nat) (need : Nat) (kind : TransferKind) : Prop :=
  s.KeepsBytes t ∧ (if unitTakes s kind need then s.IssuedTo t (s.here.pc + BitVec.ofNat 64 bytes) else s.WaitsAt t (s.here.pc + BitVec.ofNat 64 bytes) .accept)
    ∧ t.transfers.dropLast = s.transfers
    ∧ ∃ p, t.transfers.getLast? = some p ∧ p.id = s.serial ∧ p.kind = kind ∧ p.cid = s.curCid ∧ p.slot = s.curSlot ∧ p.serial = s.here.serial
        ∧ p.gid = s.here.gid ∧ p.region = s.here.region ∧ p.accepted = unitTakes s kind need

/-- A block in the own scratchpad that a Gaussian instruction may use (R179). -/
def gaussGood (s : State) (a : Word) (align size : Nat) (write : Bool) : Prop :=
  a.toNat % align = 0 ∧ 0x5000 ≤ a.toNat ∧ a.toNat + size ≤ 0x60000 ∧ s.scratchLocked s.curCid a.toNat size write = false

/-- The Gaussian instructions that the special-function unit serves (R180 to R183, R186): their blocks, the offsets of a, b and d
that the request keeps, and whether it keeps GCTL. -/
def gaussRequests (s : State) (f : XF) : List (Instr × List (Word × Nat × Nat × Bool) × List Nat × Bool) :=
  let a := s.hereW f.a
  let b := s.hereW f.b
  let d := s.hereW f.d
  let plain := [(a, 64, 320, false), (b, 64, 320, false), (d, 64, 320, true)]
  let joint := [(a, 64, 1088, false), (b, 64, 320, false), (d, 64, 1088, true)]
  [ (.gmadd f, plain, [a.toNat, b.toNat, d.toNat], false), (.gmsub f, plain, [a.toNat, b.toNat, d.toNat], false)
  , (.gmaddJ f, joint, [a.toNat, b.toNat, d.toNat], false), (.gmsubJ f, joint, [a.toNat, b.toNat, d.toNat], false)
  , (.gmdamp f, plain, [a.toNat, b.toNat, d.toNat], false)
  , (.gmschur f, [(a, 64, 1088, false), (d, 64, 320, true)], [a.toNat, 0, d.toNat], true)
  , (.gmmean f, [(a, 64, 320, false), (d, 16, 32, true)], [a.toNat, 0, d.toNat], true) ]

/-- A message of dimension n at the record at d of core h (R185): refused, with ABANDON of the record's tag, or blended element by
element, with RESID, SEQ, SRC and COUNT. -/
def GaussLands (s t : State) (h d n seq src : Nat) (msg : List Nat) : Prop :=
  let sp := (s.core h).sp
  let sp' := (t.core h).sp
  let tag := (sp.get d).toNat
  let damp := leNat (sp.bytes (d + 2) 2)
  if (sp.get (d + 1)).toNat ≠ n ∨ 64 ≤ tag then
    sp' = sp ∧ t.mailbox h (tag % 64) = { s.mailbox h (tag % 64) with abandon := Nat.min ((s.mailbox h (tag % 64)).abandon + 1) 0xFFFF }
  else
    (∀ i, i < n → spWord sp' (d + 32 + 4 * i) = Gauss.blend1 damp (msg.getD i 0) (spWord sp (d + 32 + 4 * i)))
      ∧ (∀ i j, i < n → j < n →
          spWord sp' (d + 64 + 32 * i + 4 * j) = Gauss.blend1 damp (msg.getD (n + n * i + j) 0) (spWord sp (d + 64 + 32 * i + 4 * j)))
      ∧ spWord sp' (d + 4) = seq ∧ spWord sp' (d + 8) = (Gauss.blend damp (msg.take (n + n * n)) (recordElems sp d n)).2 ∧ spWord sp' (d + 12) = src
      ∧ t.mailbox h tag = { s.mailbox h tag with count := Nat.min ((s.mailbox h tag).count + 1) 0xFFFFFFFF }
      ∧ ∀ a, a < d ∨ d + 320 ≤ a → sp'.get a = sp.get a

/-- The step of the agenda concerns a Gaussian request that is being served, and whose context will go on: its bytes from d on are
watched by none and written by no other result of the turn (R180). -/
def gaussReady (s : State) (r : SfuReq) (d size : Nat) : Prop :=
  s.obj.b = r.id ∧ r.id ≠ 0 ∧ r ∈ (s.cluster s.obj.a).sfu ∧ (∀ x ∈ (s.cluster s.obj.a).sfu, x.id = r.id → x = r) ∧ r.trap = none ∧ r.clamped = false
    ∧ s.sound = true ∧ (s.core r.cid).sp.wf = true ∧ s.unwritten r.cid d size = true ∧ s.unwatched (.scratch r.cid) d size = true
    ∧ s.ownerOf r.cid r.slot r.serial = some (r.cid, r.slot) ∧ (s.slot r.cid r.slot).wait = .sfu r.id ∧ (s.slot r.cid r.slot).guest = false
    ∧ s.ustore r.serial ≤ 64 ∧ (s.core r.cid).idleAt ≠ some s.cycle ∧ ∀ g, s.group? (s.core r.cid).gid = some g → g.state = .running

/-- Both steps of a request: its operands are read, and its result is written as its context goes on. -/
def Serves (s : State) (r : SfuReq) (after : State → Prop) : Prop :=
  ∃ t, exec .sfuServiceStart s = .next t ∧ s.KeepsBytes t ∧ t.obj = s.obj
    ∧ ∃ u, exec .sfuCompletion t = .next u ∧ (u.slot r.cid r.slot).wait = .ready ∧ (u.slot r.cid r.slot).own = true ∧ u.mem = s.mem ∧ after u

/-- A record of dimension n with elements as given and zeros beyond (R181); of its other fields only N, and RESID where it is given,
change, and of other bytes those of GCTL where a pivot was clamped. -/
def RecordIs (s u : State) (r : SfuReq) (d n : Nat) (eta : Nat → Nat) (lam : Nat → Nat → Nat) (resid : Option Nat) (clamped : Bool) : Prop :=
  let gctl := 1024 * r.slot + wsGctl
  (u.spByte r.cid (d + 1)).toNat = n
    ∧ (∀ i, i < 8 → spWord (u.core r.cid).sp (d + 32 + 4 * i) = if i < n then eta i else 0)
    ∧ (∀ i j, i < 8 → j < 8 → spWord (u.core r.cid).sp (d + 64 + 32 * i + 4 * j) = if i < n ∧ j < n then lam i j else 0)
    ∧ (∀ x, resid = some x → spWord (u.core r.cid).sp (d + 8) = x)
    ∧ ∀ x, x < d + 1 ∨ (d + 1 < x ∧ x < d + 32 ∧ (resid = none ∨ x < d + 8 ∨ d + 12 ≤ x)) ∨ d + 320 ≤ x →
        (clamped = false ∨ x < gctl ∨ gctl + 8 ≤ x) → u.spByte r.cid x = s.spByte r.cid x

/-- CLAMPED is set in GCTL where a pivot was clamped (R182). -/
def ClampTold (s u : State) (r : SfuReq) (clamped : Bool) : Prop :=
  clamped = true → u.word64 r.cid r.slot wsGctl = s.word64 r.cid r.slot wsGctl ||| 0x200

/-- A number less the products of numbered pairs, each with its own rounding (R182). -/
def lessProducts (t : Nat) (x y : Nat → Nat) (ks : List Nat) : Nat :=
  ks.foldl (fun t k => roundF f32 .rne (FVal.add false (decodeF f32 t) (FVal.mul (decodeF f32 (x k)) (decodeF f32 (y k))).neg)) t

/-- The threshold of the pivots of a block whose largest diagonal element is m·2^e, a positive finite number (R182). -/
def isThreshold (M : Nat → Nat → Nat) (p eps m : Nat) (e : Int) (thr : Nat) : Prop :=
  0 < m ∧ (∃ i, i < p ∧ decodeF f32 (M i i) = .fin false m e)
    ∧ (∀ i, i < p → (decodeF f32 (M i i)).isNan = false ∧ FVal.cmp (decodeF f32 (M i i)) (.fin false m e) ≤ 0)
    ∧ thr = Max.max (roundF f32 .rne (.fin false m (e - eps))) 1

/-- The diagonal of a block has no largest positive finite element, or holds a NaN (R182). -/
def noThreshold (M : Nat → Nat → Nat) (p : Nat) : Prop :=
  (∃ i, i < p ∧ (decodeF f32 (M i i)).isNan = true) ∨ (∃ i, i < p ∧ decodeF f32 (M i i) = .inf false)
    ∨ ∀ i, i < p → FVal.cmp (decodeF f32 (M i i)) (.fin false 0 0) ≤ 0

/-- Pivot j of a factor, and whether it is too small (R182). -/
def pivotOf (M L : Nat → Nat → Nat) (j : Nat) : Nat := lessProducts (M j j) (L j) (L j) (List.range j)
def lowPivot (M L : Nat → Nat → Nat) (thr j : Nat) : Bool :=
  let v := decodeF f32 (pivotOf M L j)
  v.isNan || decide (FVal.cmp v (decodeF f32 thr) ≤ 0)

/-- The first columns of the factor of a block: of a pivot that is too small, the threshold is taken (R182). -/
def isFactor (M : Nat → Nat → Nat) (p thr : Nat) (L : Nat → Nat → Nat) (cols : Nat) : Prop :=
  ∀ j, j < cols → L j j = Gauss.sqrt (if lowPivot M L thr j then thr else pivotOf M L j)
    ∧ ∀ i, j < i → i < p → L i j = divF f32 .rne (lessProducts (M i j) (L i) (L j) (List.range j)) (L j j)

/-- A request stops at a singular pivot (R180, R182): the read step keeps its trap, with which the completion ends. -/
def Singular (s : State) (r : SfuReq) (j : Nat) : Prop :=
  let x : TrapInfo := { cause := .singular, tval := BitVec.ofNat 64 j }
  ∃ t, exec .sfuServiceStart s = .next t ∧ s.KeepsBytes t ∧ t.obj = s.obj
    ∧ ((s.slot r.cid r.slot).routine = none → s.inhibited r.cid r.slot = false →
        exec .sfuCompletion t = .next (({ t with clusters := (t.modCluster s.obj.a fun c => { c with sfu := c.sfu.filter fun q => q.id != r.id }).clusters }).trapWaiting r.cid r.slot x))

/-- A step of the agenda is there. -/
def Due_ (t : State) (ins : Instr) (o : Obj) : Prop := ∃ x ∈ t.agenda, x.ins = ins ∧ x.obj = o

/-- The step of the agenda concerns a transfer, and no other bears its identifier. -/
def stepTransfer (s : State) (p : Transfer) : Prop := s.transfer? s.obj.a = some p ∧ ∀ q ∈ s.transfers, q.id = p.id → q = p

/-- Every group runs, so that no end of work lets a pitch go. -/
def allRun (s : State) : Prop := ∀ k g, s.group? k = some g → g.state = .running

/-- A tag of a core with one count more (R162). -/
def Counted (s t : State) (cid tag : Nat) : Prop := t.mailbox cid tag = { s.mailbox cid tag with count := Nat.min ((s.mailbox cid tag).count + 1) 0xFFFFFFFF }

/-- A tag of a core with one abandonment more (R162). -/
def Abandoned (s t : State) (cid tag : Nat) : Prop := t.mailbox cid tag = { s.mailbox cid tag with abandon := Nat.min ((s.mailbox cid tag).abandon + 1) 0xFFFF }

/-- Bytes land at a place of a scratchpad, and no other byte of it changes. -/
def LandsAt (s t : State) (cid off : Nat) (bs : List Byte) : Prop :=
  (∀ k, k < bs.length → t.spByte cid (off + k) = bs.getD k 0) ∧ ∀ a, a < off ∨ off + bs.length ≤ a → t.spByte cid a = s.spByte cid a

/-- A range of a scratchpad is open to a landing of this turn: no fixed-latency write and no watch meets it. -/
def landable (s : State) (cid off n : Nat) : Bool := s.unwritten cid off n && s.unwatched (.scratch cid) off n && (s.core cid).sp.wf


/-- An entry of the agenda that is due at a GTC value. -/
def DueAt (t : State) (gtc : Nat) (ins : Instr) (o : Obj) : Prop := ∃ x ∈ t.agenda, x.due = .gtc gtc ∧ x.ins = ins ∧ x.obj = o

/-- The frame that bits 51 to 12 of a register name. -/
def frameBase (v : Word) : Nat := 4096 * (v.extractLsb' 12 40).toNat

/-- Bytes stand in HBM from a physical address on, and every place that does not belong to them is as it was. -/
def HbmHolds (s t : State) (pa : Nat) (bs : List Byte) : Prop :=
  (∀ k, k < bs.length → t.memByte (s.hbmLoc (pa + k)).addr = bs.getD k 0)
    ∧ ∀ a, (∀ k, k < bs.length → (s.hbmLoc (pa + k)).addr ≠ a) → t.memByte a = s.memByte a

/-- The memory-error record of the patrol (R282). -/
def patrolRecord (s : State) (kind : Nat) : List Byte :=
  leBytes 8 s.gtc.toNat ++ [0xFF, 0xFF, BitVec.ofNat 8 kind, 1, 0, 0, 0, 0] ++ leBytes 8 (s.placePa s.obj.a) ++ List.replicate 8 0

/-- A ring of 64 records after one more. -/
def ringAfter (ring : List (List Byte)) (r : List Byte) : List (List Byte) := (ring ++ [r]).drop (ring.length + 1 - 64)

/-- The budget factor and the clock after a window (R7). -/
def governed (budget mhz avg cap : Nat) (on : Bool) : Nat × Nat :=
  if on = true ∧ cap < avg then (if 1 < budget then (budget - 1, mhz) else if 1200 < mhz then (budget, mhz - 75) else (budget, mhz))
  else if on = false ∨ avg < cap then (if mhz < 2400 then (budget, mhz + 75) else if budget < 8 then (budget + 1, mhz) else (budget, mhz))
  else (budget, mhz)

/-- A port is down, and a node is unreachable exactly where no path to it begins with a link that is up. -/
def PortLost (s t : State) (p : Nat) (l : Link) : Prop :=
  { t with links := [], unreachable := [] } = { s with links := [], unreachable := [] }
    ∧ tget t.links p {} = { l with down := true, buffer := [], queue := [] } ∧ (∀ q, q ≠ p → tget t.links q {} = tget s.links q {})
    ∧ ∀ n, n < 993 → (n ∈ t.unreachable ↔ t.pathBy t.upNodes n = false)

/-- A port after a flit that was not received (R285, R289). -/
def FlitLost (s t : State) (p : Nat) : Prop :=
  let l := tget s.links p {}
  (l.down = true → t = s)
    ∧ (l.down = false → l.retries < 8 → t = { s with links := tset s.links p { l with retries := l.retries + 1 } })
    ∧ (l.down = false → 8 ≤ l.retries → PortLost s t p l)


/-- A flit sent again, with the time-out after which it is lost once more (R285, R288). -/
def Resent (s : State) (p seq : Nat) : State :=
  s.schedule (.cycle (s.cycle + 1 + Config.retryTimeout * (if (tget s.links p {}).half then 2 else 1))) 0 .linkRetryTimeout { a := p, c := seq }

/-- A table of address ranges after a write to a register of an entry (R268): one that is in force keeps all but CTRL, and CTRL puts
only an entry within the limits in force. -/
def ArtAfter (old new : Tab ArtEntry) (k off : Nat) (w : Word) : Prop :=
  let e := tget old k {}
  let v := w.toNat
  let nlog := v / 2 ^ 16 % 16
  let within := v / 2 ^ 32 = 0 ∧ v / 2 ^ 24 % 128 = 0 ∧ v / 2 ^ 20 % 16 ≤ 12 ∧ nlog ≤ 10 ∧ v / 2 ^ 10 % 64 = 0 ∧ v % 1024 % 2 ^ nlog = 0 ∧ e.base.toNat % 1048576 = 0
    ∧ e.size.toNat % 1048576 = 0 ∧ e.base.toNat + e.size.toNat ≤ hbmTop ∧ e.choff.toNat + e.size.toNat / 2 ^ nlog ≤ 1000000000
  (∀ j, j ≠ k → tget new j {} = tget old j {})
    ∧ (off = 0 → tget new k {} = if e.valid then e else { e with base := w }) ∧ (off = 8 → tget new k {} = if e.valid then e else { e with size := w })
    ∧ (off = 24 → tget new k {} = if e.valid then e else { e with choff := w })
    ∧ (off = 16 → (v / 2 ^ 31 % 2 = 0 ∨ within → tget new k {} = { e with ctrl := w })
        ∧ (v / 2 ^ 31 % 2 = 1 → ¬within → tget new k {} = { e with ctrl := w &&& 0xFFFFFFFF7FFFFFFF }))

/-- A page-table entry that no walk refuses (R264, R265). -/
abbrev entryGood (e : Nat) : Prop := e % 2 = 1 ∧ e / 2 ^ 52 = 0 ∧ e / 2 ^ 6 % 2 ^ 10 = 0

/-- The physical frame that an entry names. -/
def entryFrame (e : Nat) : Nat := e / 2 ^ 16 % 2 ^ 36 * 2 ^ 16

/-- The translation that a leaf gives for an address. -/
def leafEntry (region va size e : Nat) : TlbEntry :=
  { region := region, va := va / size * size, size := size, pa := entryFrame e, w := e / 4 % 2 == 1, x := e / 8 % 2 == 1, cls := e / 16 % 4 }

/-- The step of the agenda concerns a live context of a core. -/
def stepContext (s : State) (c i : Nat) : Prop := s.obj = { a := c, b := i, v := BitVec.ofNat 64 (s.slot c i).serial }

/-- A slot of a core is as said, and every other slot of every core is as it was. -/
def OnlySlot (s t : State) (c i : Nat) (x : Slot) : Prop :=
  t.slot c i = x ∧ ∀ d j, d ≠ c ∨ j ≠ i → t.slot d j = s.slot d j

/-- A port is being written: it reads busy until the step that shows the outcome. -/
def PortBusy (s t : State) (status gid : Nat) : Prop :=
  (t.port s.obj.a).status = 1 ∧ (∀ p, p ≠ s.obj.a → t.port p = s.port p) ∧ Due_ t .portWriteDone { a := s.obj.a, b := status, c := gid }

/-- A write to a port is taken: the port exists, the application die runs, and nothing is being handled. -/
def portOpen (s : State) : Prop := s.obj.a < 1024 ∧ 2 ≤ s.bootStage ∧ (s.port s.obj.a).status ≠ 1

/-- The translations that an invalidation removes (R272). -/
def removes (s : State) (ins : Instr) (e : TlbEntry) : Bool :=
  let meets := fun (size : Nat) => decide (e.va < s.invAddr.toNat / size * size + size) && decide (s.invAddr.toNat / size * size < e.va + e.size)
  match ins with
  | .invalidatePage => s.regid e.region == s.obj.a && meets 65536
  | .invalidateRange => s.regid e.region == s.obj.a && meets 536870912
  | .invalidateRegion => s.regid e.region == s.obj.a
  | _ => true


/-- Memory and every scratchpad are as they were. -/
def KeepsMemory (s t : State) : Prop := t.mem = s.mem ∧ ∀ c, (t.core c).sp = (s.core c).sp

/-- A packet with a context has been sent to a node, and its end-to-end time-out is due (R215, R218, R286). -/
def PacketSent (s t : State) (x : Slot) (node addr cid slot : Nat) : Prop :=
  ∃ p ∈ t.fabric, p.id = s.serial ∧ p.node = node ∧ p.addr = addr ∧ p.region = s.regid x.region ∧ p.cid = cid ∧ p.slot = slot ∧ p.sends = 1
    ∧ p.kind = .context x ∧ DueAt t (s.gtc.toNat + 1048576) .e2eTimeout { a := p.id }

/-- The step of the agenda concerns a packet that brings a context, and no other bears its identifier. -/
def stepPacket (s : State) (p : FabricPacket) (x : Slot) : Prop :=
  s.fabric.find? (fun q => q.id == s.obj.a) = some p ∧ p.kind = .context x ∧ ∀ q ∈ s.fabric, q.id = p.id → q = p

/-- A packet of another module is the next of its source, and no other has come (R286). -/
def FirstToCome (s : State) (p : FabricPacket) : Prop :=
  p.came = true ∧ p.seq = tget s.fabIn (p.node * 4096 + p.cid) 0 ∧ ∀ q ∈ s.fabric, q.came = true → q = p

/-- A packet of another module has been performed or refused: it is gone, and the next one of its source is awaited. -/
def Taken (s t : State) (p : FabricPacket) : Prop :=
  (∀ q ∈ t.fabric, q.id ≠ p.id) ∧ tget t.fabIn (p.node * 4096 + p.cid) 0 = tget s.fabIn (p.node * 4096 + p.cid) 0 + 1

/-- The state with a packet taken out of the fabric. -/
def withoutPacket (s : State) (p : FabricPacket) : State := { s with fabric := s.fabric.filter fun q => q.id != p.id }

/-- The step of the agenda concerns a group. -/
def stepGroup (s : State) (g : Group) : Prop := s.group? s.obj.a = some g ∧ g.gid = s.obj.a

/-- A core has left its pitch: no group, no context and no object is on it, it takes no turns, and its scratchpad is being scrubbed
(R191, R231). -/
def Released (s t : State) (c : Nat) : Prop :=
  (t.core c).gid = 0 ∧ (t.core c).on = false ∧ (t.core c).sp = [] ∧ (t.core c).slots = [] ∧ (t.core c).mbs = [] ∧ (t.core c).hs = [] ∧ (t.core c).streams = []
    ∧ (t.core c).scrubUntil = s.cycle + 8192

/-- A core as at a group's start: context 0 alone live at the entry, turn 0 next, and its registers as at the start (R13, R231, R249). -/
def Started (t : State) (g : Group) (c : Nat) : Prop :=
  let k := t.core c
  let x := t.slot c 0
  k.on = true ∧ k.gid = g.gid ∧ k.rank = g.pitch.idxOf c ∧ k.turn = 0 ∧ k.vlim = 0x7F800000 ∧ k.issued = 0 ∧ k.bankstall = 0 ∧ k.mbs = [] ∧ k.hs = [] ∧ k.tlb = []
    ∧ x.live = true ∧ x.pc = g.header.entry ∧ x.idx = 0 ∧ x.home = c ∧ x.gid = g.gid ∧ x.region = g.region ∧ x.mode = g.mode ∧ x.wait = .ready
    ∧ ∀ i, 1 ≤ i → (t.slot c i).live = false

end Sys2Proof.Claims
open Sys2Proof.Claims

/-- R62 to R66: an integer operation on registers issues, and its result becomes a pending result of d for its readable
turn; besides the count of issues, the context's place and the agenda, nothing else of the state changes.
R67: the immediate operations, in both lengths. -/
def Obligations.IntegerResults : Prop :=
  (∀ p ∈ integerOps, ∀ (f : RF) (s : State), s.admits (p.1 f) = true → s.here.wait = .ready → s.sound = true →
    f.a.toNat < 28 → f.b.toNat < 28 → f.d.toNat < 28 →
    ∃ t, exec (p.1 f) s = .next t ∧ s.OnlyIssue t ∧ s.NoStall t ∧ s.IssuedTo t (s.here.pc + 4)
      ∧ t.hereCore.pend = s.hereCore.pend ++ s.scalarResult f.d p.2.1 (p.2.2 (s.hereW f.d) (s.hereW f.a) (s.hereW f.b)))
  ∧ (∀ p ∈ immediateOps,
    (∀ (f : IF) (s : State), s.admits (p.1 f) = true → s.here.wait = .ready → s.sound = true → f.a.toNat < 28 → f.d.toNat < 28 →
      ∃ t, exec (p.1 f) s = .next t ∧ s.OnlyIssue t ∧ s.NoStall t ∧ s.IssuedTo t (s.here.pc + 4)
        ∧ t.hereCore.pend = s.hereCore.pend ++ s.scalarResult f.d 2 (p.2.2 (s.hereW f.a) (f.imm.signExtend 64)))
    ∧ ∀ (f : IL) (s : State), s.admits (p.2.1 f) = true → s.here.wait = .ready → s.sound = true → f.a.toNat < 28 → f.d.toNat < 28 →
      ∃ t, exec (p.2.1 f) s = .next t ∧ s.OnlyIssue t ∧ s.NoStall t ∧ s.IssuedTo t (s.here.pc + 12)
        ∧ t.hereCore.pend = s.hereCore.pend ++ s.scalarResult f.d 2 (p.2.2 (s.hereW f.a) f.lit))

/-- R68 and R69 with R33 to R35: the FP32 operations on registers. -/
def Obligations.FloatOperationResults : Prop :=
  (∀ p ∈ roundedOps, ∀ (f : RF) (s : State), s.admits (p.1 f) = true → s.here.wait = .ready → s.sound = true →
    f.a.toNat < 28 → f.b.toNat < 28 → f.d.toNat < 28 → (rndHere s).toNat % 8 < 5 →
    ∃ t, exec (p.1 f) s = .next t ∧ s.OnlyIssue t ∧ s.NoStall t ∧ s.IssuedTo t (s.here.pc + 4)
      ∧ t.hereCore.pend = s.hereCore.pend
          ++ s.scalarResult f.d 6 (p.2 (modeNumbered ((rndHere s).toNat % 8)) (s.hereW f.d) (s.hereW f.a) (s.hereW f.b)))
  ∧ ∀ p ∈ plainOps, ∀ (f : RF) (s : State), s.admits (p.1 f) = true → s.here.wait = .ready → s.sound = true →
    f.a.toNat < 28 → f.b.toNat < 28 → f.d.toNat < 28 →
    ∃ t, exec (p.1 f) s = .next t ∧ s.OnlyIssue t ∧ s.NoStall t ∧ s.IssuedTo t (s.here.pc + 4)
      ∧ t.hereCore.pend = s.hereCore.pend ++ s.scalarResult f.d 6 (p.2 (s.hereW f.a) (s.hereW f.b))

/-- R33, R37, R68: under SR a rounded result takes the draw of SRCTR and consumes one value of it; a MODE of 6 or 7 is
ILLEGAL with the RND value. -/
def Obligations.StochasticRoundingDraws : Prop :=
  ∀ p ∈ roundedOps, ∀ (f : RF) (s : State), s.admits (p.1 f) = true → s.here.wait = .ready → s.sound = true → s.canonHere = true →
    s.quietReg wsRnd = true → f.a.toNat < 28 → f.b.toNat < 28 → f.d.toNat < 28 →
    ((rndHere s).toNat % 8 = 5 →
      ∃ t, exec (p.1 f) s = .next t ∧ s.IssuedTo t (s.here.pc + 4) ∧ t.offCore = s.offCore
        ∧ t.hereCore.pend = s.hereCore.pend ++ s.scalarResult f.d 6
            (p.2 (.sr (srBitsOf (rndHere s))
                (draw (s.word64 s.curCid s.curSlot wsSeed) (BitVec.ofNat 64 s.here.idx) ((rndHere s).toNat / 2 ^ 32)).toNat)
              (s.hereW f.d) (s.hereW f.a) (s.hereW f.b))
        ∧ rndHere t = (((rndHere s).extractLsb' 32 32 + 1) ++ (rndHere s).extractLsb' 0 32 : BitVec 64))
    ∧ (6 ≤ (rndHere s).toNat % 8 → exec (p.1 f) s = .next (s.trapHere (p.1 f) { cause := .illegal, tval := rndHere s }))

/-- R19, R62, R67, R68, R70, R72, R119: each channel operand of a scalar instruction gives the oldest inbound word that is left, and
a channel d takes the next place of the outbound queue; a channel that is not bound traps CHANNEL with the code of the first
operand that names one. Of the FP32 operations that round, under a mode that takes no draw. -/
def Obligations.ChannelOperands : Prop :=
  (∀ (f : RF) (g : IF) (l : IL) (s : State), s.sound = true →
    ∀ x ∈ scalarForms (modeNumbered ((rndHere s).toNat % 8)) f g l, x.ins.wf = true → s.admits x.ins = true →
    (x.lat = 6 → (rndHere s).toNat % 8 < 5) →
    (s.here.wait = .ready → channelsBound s [x.a, x.b, x.d] →
      ∃ t, exec x.ins s = .next t ∧ s.IssuedTo t (s.here.pc + BitVec.ofNat 64 x.bytes) ∧ MovesWords s t [x.a, x.b] x.d
        ∧ t.hereCore.pend = s.hereCore.pend ++ fieldResult s x.d x.lat
            (x.result (s.hereW x.d) (fieldValue s x.a 0) (fieldValue s x.b (if x.b = x.a then 1 else 0))))
    ∧ ∀ n, n < 4 → (s.chan s.curCid n).bound = none →
      let trapped := fun (use : Nat) (write : Bool) =>
        exec x.ins s = .next (s.trapHere x.ins { cause := .channel, tval := BitVec.ofNat 64 (28 + n), use := use, write := write })
      (x.a.toNat = 28 + n → trapped 1 false)
      ∧ (x.b.toNat = 28 + n → x.a.toNat < 28 → trapped 2 false)
      ∧ (x.d.toNat = 28 + n → x.a.toNat < 28 → x.b.toNat < 28 → trapped 4 true))
  ∧ (∀ (f : BF) (g : BL) (s : State) (ins : Instr) (cond : Nat) (a b : BitVec 5) (taken : Word) (bytes : Nat),
    (ins, cond, a, b, taken, bytes) ∈ branchForms f g → cond < 6 → s.admits ins = true → s.sound = true →
    (s.here.wait = .ready → channelsBound s [a, b] →
      ∃ t, exec ins s = .next t ∧ MovesWords s t [a, b] 0 ∧ t.hereCore.pend = s.hereCore.pend
        ∧ s.IssuedTo t (s.here.pc + if conditionHolds cond (fieldValue s a 0) (fieldValue s b (if b = a then 1 else 0)) then taken
            else BitVec.ofNat 64 bytes))
    ∧ ∀ n, n < 4 → (s.chan s.curCid n).bound = none →
      (a.toNat = 28 + n → exec ins s = .next (s.trapHere ins { cause := .channel, tval := BitVec.ofNat 64 (28 + n), use := 1 }))
      ∧ (b.toNat = 28 + n → a.toNat < 28 →
          exec ins s = .next (s.trapHere ins { cause := .channel, tval := BitVec.ofNat 64 (28 + n), use := 2 })))
  ∧ ∀ (f : RF) (s : State) (ins : Instr) (d : BitVec 5), (ins, d) ∈ [(Instr.jr f, 0), (Instr.callr f, f.d)] → s.admits ins = true →
    s.sound = true →
    (s.here.wait = .ready → channelsBound s [f.a, d] → (fieldValue s f.a 0).toNat % 4 = 0 →
      ∃ t, exec ins s = .next t ∧ MovesWords s t [f.a] d ∧ s.IssuedTo t (fieldValue s f.a 0)
        ∧ t.hereCore.pend = s.hereCore.pend ++ fieldResult s d 2 (s.here.pc + 4))
    ∧ ∀ n, n < 4 → (s.chan s.curCid n).bound = none → f.a.toNat = 28 + n →
      exec ins s = .next (s.trapHere ins { cause := .channel, tval := BitVec.ofNat 64 (28 + n), use := 1 })

/-- R70 to R72: branches, jumps and calls set PC, a call writes its link, and a misaligned register target traps ALIGN,
under operand use 0, which is the model's reading (log 20). -/
def Obligations.BranchesAndJumps : Prop :=
  (∀ (f : BF) (s : State), s.admits (.br f) = true → s.here.wait = .ready → s.sound = true → f.a.toNat < 28 → f.b.toNat < 28 →
    f.cond.toNat < 6 →
    ∃ t, exec (.br f) s = .next t ∧ s.OnlyIssue t ∧ s.NoStall t ∧ t.hereCore.pend = s.hereCore.pend
      ∧ s.IssuedTo t (s.here.pc + if conditionHolds f.cond.toNat (s.hereW f.a) (s.hereW f.b) then 4 * f.off.signExtend 64 else 4))
  ∧ (∀ (f : BL) (s : State), s.admits (.brLong f) = true → s.here.wait = .ready → s.sound = true → f.a.toNat < 28 → f.b.toNat < 28 →
    f.cond.toNat < 6 →
    ∃ t, exec (.brLong f) s = .next t ∧ s.OnlyIssue t ∧ s.NoStall t ∧ t.hereCore.pend = s.hereCore.pend
      ∧ s.IssuedTo t (s.here.pc + if conditionHolds f.cond.toNat (s.hereW f.a) (s.hereW f.b) then 4 * f.off.signExtend 64 else 12))
  ∧ (∀ (f : JF) (s : State), s.admits (.jmp f) = true → s.here.wait = .ready →
    ∃ t, exec (.jmp f) s = .next t ∧ s.OnlyIssue t ∧ s.NoStall t ∧ t.hereCore.pend = s.hereCore.pend ∧ s.IssuedTo t (s.here.pc + 4 * f.off.signExtend 64))
  ∧ (∀ (f : JL) (s : State), s.admits (.jmpLit f) = true → s.here.wait = .ready →
    ∃ t, exec (.jmpLit f) s = .next t ∧ s.OnlyIssue t ∧ s.NoStall t ∧ t.hereCore.pend = s.hereCore.pend ∧ s.IssuedTo t f.lit)
  ∧ (∀ (f : JF) (s : State), s.admits (.call f) = true → s.here.wait = .ready →
    ∃ t, exec (.call f) s = .next t ∧ s.OnlyIssue t ∧ s.NoStall t ∧ t.hereCore.pend = s.hereCore.pend ++ s.scalarResult 27 2 (s.here.pc + 4)
      ∧ s.IssuedTo t (s.here.pc + 4 * f.off.signExtend 64))
  ∧ (∀ (f : JL) (s : State), s.admits (.callLit f) = true → s.here.wait = .ready →
    ∃ t, exec (.callLit f) s = .next t ∧ s.OnlyIssue t ∧ s.NoStall t ∧ t.hereCore.pend = s.hereCore.pend ++ s.scalarResult 27 2 (s.here.pc + 12)
      ∧ s.IssuedTo t f.lit)
  ∧ (∀ (f : RF) (s : State), s.admits (.jr f) = true → s.here.wait = .ready → s.sound = true → f.a.toNat < 28 →
    ((s.hereW f.a).toNat % 4 = 0 →
      ∃ t, exec (.jr f) s = .next t ∧ s.OnlyIssue t ∧ s.NoStall t ∧ t.hereCore.pend = s.hereCore.pend ∧ s.IssuedTo t (s.hereW f.a))
    ∧ ((s.hereW f.a).toNat % 4 ≠ 0 → exec (.jr f) s = .next (s.trapHere (.jr f) { cause := .align, tval := s.hereW f.a })))
  ∧ ∀ (f : RF) (s : State), s.admits (.callr f) = true → s.here.wait = .ready → s.sound = true → f.a.toNat < 28 → f.d.toNat < 28 →
    ((s.hereW f.a).toNat % 4 = 0 →
      ∃ t, exec (.callr f) s = .next t ∧ s.OnlyIssue t ∧ s.NoStall t ∧ t.hereCore.pend = s.hereCore.pend ++ s.scalarResult f.d 2 (s.here.pc + 4)
        ∧ s.IssuedTo t (s.hereW f.a))
    ∧ ((s.hereW f.a).toNat % 4 ≠ 0 → exec (.callr f) s = .next (s.trapHere (.callr f) { cause := .align, tval := s.hereW f.a }))

/-- R26: trap entry writes the four trap words and PC, and nothing else of the workspace; the context goes on in an own turn.
R26, R278, R218: with INH set, or in a routine of the scheduler, a trap acts on the fault domain; a guest takes its trap
home. -/
def Obligations.TrapEntry : Prop :=
  (∀ (s : State) (cid i : Nat) (t : TrapInfo) (w0 : BitVec 32) (ret : Word) (g : Group),
    (s.slot cid i).guest = false → (s.slot cid i).routine = none → s.inhibited cid i = false → (s.core cid).sp.wf = true →
    s.unwatched (.scratch cid) (i * 1024 + 600) 40 = true → s.group? (s.slot cid i).gid = some g →
    let u := s.takeTrap cid i t w0 ret
    u.word16 cid i 632 = BitVec.ofNat 16 t.cause.code ∧ u.word64 cid i 600 = t.tval ∧ u.word64 cid i 608 = ret
      ∧ u.word16 cid i 634 = statusAfterTrap w0 t
      ∧ (u.slot cid i).pc = g.header.handler ∧ (u.slot cid i).wait = .ready ∧ (u.slot cid i).own = true
      ∧ (∀ a, a < i * 1024 + 600 ∨ (i * 1024 + 616 ≤ a ∧ a < i * 1024 + 632) ∨ i * 1024 + 636 ≤ a → u.spByte cid a = s.spByte cid a)
      ∧ u.offCore = s.offCore ∧ (∀ c, c ≠ cid → u.core c = s.core c) ∧ ∀ j, j ≠ i → u.slot cid j = s.slot cid j)
  ∧ (∀ (s : State) (cid i : Nat) (t : TrapInfo) (w0 : BitVec 32) (ret : Word),
    ((s.slot cid i).guest = false → s.inhibited cid i = true ∨ (s.slot cid i).routine.isSome = true →
      s.takeTrap cid i t w0 ret = s.faultDomain cid (s.slot cid i).gid t.cause.code t.tval)
    ∧ ((s.slot cid i).guest = true →
      let u := s.takeTrap cid i t w0 ret
      (u.slot cid i).wait = .goHome (some t) ∧ (u.slot cid i).pc = ret ∧ u.offCore = s.offCore
        ∧ u.agenda = s.agenda ++ [{ due := .cycle s.cycle, rank := rankOf cid, ins := .guestReturn, obj := { a := cid, b := i } }])
    ∧ ∀ g, s.group? (s.slot cid i).gid = some g → g.state = .running →
      s.faultDomain cid (s.slot cid i).gid t.cause.code t.tval
        = if s.effFdom g.region = 2 then s.killRegion cid g.region t.cause.code t.tval
          else s.killGroup cid (s.slot cid i).gid t.cause.code t.tval)

/-- R73 to R76: NOP, the safe point, the two traps, and the return from a trap. -/
def Obligations.SystemInstructions : Prop :=
  (∀ (f : RF) (s : State), s.admits (.nop f) = true → s.here.wait = .ready →
    ∃ t, exec (.nop f) s = .next t ∧ s.OnlyIssue t ∧ s.IssuedTo t (s.here.pc + 4) ∧ t.hereCore.pend = s.hereCore.pend)
  ∧ (∀ (f : RF) (s : State) (g : Group), s.admits (.safept f) = true → s.here.wait = .ready → s.group? s.here.gid = some g →
    (g.header.nsafe ≤ sysNumber f → exec (.safept f) s = trapOnly (.safept f) s .illegal ((word0 (.safept f)).setWidth 64))
    ∧ (sysNumber f < g.header.nsafe →
      ∃ t, exec (.safept f) s = .next t ∧ s.OnlyIssue (t.modHere fun x => { x with stopped := s.here.stopped }) ∧ s.IssuedTo t (s.here.pc + 4) ∧ t.hereCore.pend = s.hereCore.pend
        ∧ t.here.stopped = if g.preempt = true ∧ s.here.routine = none then some (some (sysNumber f)) else s.here.stopped))
  ∧ (∀ (f : RF) (s : State), s.admits (.trap f) = true →
    exec (.trap f) s = .next (s.trapHere (.trap f) { cause := .trap, tval := BitVec.ofNat 64 (sysNumber f), after := true }))
  ∧ (∀ (f : RF) (s : State), s.admits (.bkpt f) = true →
    exec (.bkpt f) s = trapOnly (.bkpt f) s .bkpt (BitVec.ofNat 64 (sysNumber f)))
  ∧ ∀ (f : RF) (s : State), s.admits (.tret f) = true → s.here.wait = .ready → s.sound = true → s.canonHere = true →
    s.quietReg 634 = true →
    (s.inhibited s.curCid s.curSlot = false → exec (.tret f) s = trapOnly (.tret f) s .illegal ((word0 (.tret f)).setWidth 64))
    ∧ (s.inhibited s.curCid s.curSlot = true →
      let ret := s.word64 s.curCid s.curSlot 608
      (ret.toNat % 4 ≠ 0 → exec (.tret f) s = trapOnly (.tret f) s .align ret)
      ∧ (ret.toNat % 4 = 0 →
        ∃ t, exec (.tret f) s = .next t ∧ s.IssuedTo t ret ∧ s.StoresHere t (workspaceAt s 634) 2 ∧ t.hereCore.pend = s.hereCore.pend
          ∧ t.word16 s.curCid s.curSlot 634 = s.word16 s.curCid s.curSlot 634 &&& 0xFFEF))

/-- R77, R78, R80, R225: MFS, RDTIME and GETID give the register, the die's GTC and the identifier; that ISSUED does not count the
MFS that reads it is the model's choice (log 20).
R77, R86, R224, R225: MTS writes its register and no other; a reserved bit, or a MODE of 6 or 7, is ILLEGAL with the value; a register
of the workspace whose word is locked is RANGE_LOCK. -/
def Obligations.SpecialRegisters : Prop :=
  ((∀ (f : RF) (s : State), s.admits (.mfs f) = true → s.here.wait = .ready → s.sound = true → f.d.toNat < 28 → f.b.toNat < 16 →
    (∀ p ∈ workspaceRegisters, p.1 = f.b.toNat → registerLocked s p.2.1 p.2.2.1 false = true →
      exec (.mfs f) s = .next (s.trapHere (.mfs f) (lockedRegister s p.2.1 false)))
    ∧ ((∀ p ∈ workspaceRegisters, p.1 = f.b.toNat → registerLocked s p.2.1 p.2.2.1 false = false) →
      ∃ t, exec (.mfs f) s = .next t ∧ s.OnlyIssue t ∧ s.IssuedTo t (s.here.pc + 4)
        ∧ t.hereCore.pend = s.hereCore.pend ++ s.scalarResult f.d 2 (systemRegister s f.b.toNat)))
  ∧ (∀ (f : RF) (s : State), s.admits (.rdtime f) = true → s.here.wait = .ready → f.d.toNat < 28 →
    ∃ t, exec (.rdtime f) s = .next t ∧ s.OnlyIssue t ∧ s.IssuedTo t (s.here.pc + 4)
      ∧ t.hereCore.pend = s.hereCore.pend ++ s.scalarResult f.d 2 (s.gtcOf (s.curCid / 256)))
  ∧ ∀ (f : RF) (s : State) (g : Group), s.admits (.getid f) = true → s.here.wait = .ready → f.d.toNat < 28 → f.b.toNat < 8 →
    s.group? s.here.gid = some g ∨ s.here.guest = true →
    ∃ t, exec (.getid f) s = .next t ∧ s.OnlyIssue t ∧ s.IssuedTo t (s.here.pc + 4)
      ∧ t.hereCore.pend = s.hereCore.pend ++ s.scalarResult f.d 2 (BitVec.ofNat 64 (identifierHere s g.pitch f.b.toNat)))
  ∧ ((∀ p ∈ workspaceRegisters, ∀ (f : RF) (s : State), f.b.toNat = p.1 → s.admits (.mts f) = true → s.here.wait = .ready → s.sound = true →
    f.a.toNat < 28 →
    let v := s.hereW f.a
    (v &&& ~~~ p.2.2.2 ≠ 0 ∨ (p.1 = 0 ∧ 6 ≤ v.toNat % 8) → exec (.mts f) s = trapOnly (.mts f) s .illegal v)
    ∧ (v &&& ~~~ p.2.2.2 = 0 → ¬(p.1 = 0 ∧ 6 ≤ v.toNat % 8) → registerLocked s p.2.1 p.2.2.1 true = true →
      exec (.mts f) s = .next (s.trapHere (.mts f) (lockedRegister s p.2.1 true)))
    ∧ (v &&& ~~~ p.2.2.2 = 0 → ¬(p.1 = 0 ∧ 6 ≤ v.toNat % 8) → s.canonHere = true → s.here.guest = false →
        registerLocked s p.2.1 p.2.2.1 true = false →
        s.unwritten s.curCid (workspaceAt s p.2.1) p.2.2.1 = true →
        s.unwatched (.scratch s.curCid) (workspaceAt s p.2.1) p.2.2.1 = true →
      ∃ t, exec (.mts f) s = .next t ∧ s.IssuedTo t (s.here.pc + 4) ∧ s.StoresHere t (workspaceAt s p.2.1) p.2.2.1
        ∧ t.hereCore.pend = s.hereCore.pend ∧ systemRegister t p.1 = v)
    ∧ (v &&& ~~~ p.2.2.2 = 0 → ¬(p.1 = 0 ∧ 6 ≤ v.toNat % 8) → s.canonHere = true → s.here.guest = true →
      ∃ t, exec (.mts f) s = .next t ∧ s.IssuedTo t (s.here.pc + 4) ∧ s.OnlyIssue t ∧ t.hereCore.pend = s.hereCore.pend
        ∧ systemRegister t p.1 = v))
  ∧ ∀ (f : RF) (s : State), 11 ≤ f.b.toNat → f.b.toNat < 16 → s.admits (.mts f) = true → s.here.wait = .ready → s.sound = true →
    f.a.toNat < 28 →
    let v := s.hereW f.a
    (f.b.toNat = 11 → v.toNat / 2 ^ 32 ≠ 0 → exec (.mts f) s = trapOnly (.mts f) s .illegal v)
    ∧ (f.b.toNat ≠ 11 ∨ v.toNat / 2 ^ 32 = 0 →
      ∃ t, exec (.mts f) s = .next t ∧ t.here.pc = s.here.pc + 4 ∧ t.here.wait = .ready ∧ t.offCore = s.offCore
        ∧ (∀ c, c ≠ s.curCid → t.core c = s.core c) ∧ (∀ i, i ≠ s.curSlot → t.slot s.curCid i = s.slot s.curCid i)
        ∧ t.hereCore.sp = s.hereCore.sp ∧ t.hereCore.pend = s.hereCore.pend
        ∧ systemRegister t f.b.toNat = v
        ∧ ∀ m, m < 16 → m ≠ f.b.toNat → m ≠ 13 → systemRegister t m = systemRegister s m))

/-- R81, R87, R89, R20: a load of the own scratchpad gives its bytes, extended, six turns later.
R23, R85, R89, R92, R275: a load whose home is elsewhere leaves as an access of the context, which waits for its value; a line
in the L1 answers it, but not of the tier while its link is down.
R88, R215: a load of a node that has refused the context's move completes with 0 and sets the error bit of the node. -/
def Obligations.LoadResults : Prop :=
  (∀ (ins : Instr) (x : MemForm) (s : State) (off : Nat), loadOf ins = some x → x.size < 7 → s.admits ins = true → s.here.wait = .ready →
    s.sound = true → x.base.toNat < 28 → x.d.toNat < 28 → s.ownRange (s.hereW x.base + x.disp) x.width false off →
    ∃ t, exec ins s = .next t ∧ s.OnlyIssue t ∧ s.IssuedTo t (s.here.pc + BitVec.ofNat 64 x.bytes)
      ∧ t.hereCore.pend = s.hereCore.pend ++ s.scalarResult x.d 6 (loadedValue x.size (ownNumber s off x.width)))
  ∧ (∀ (ins : Instr) (x : MemForm) (s : State) (l : Loc), loadOf ins = some x → x.size < 7 → s.admits ins = true → s.sound = true →
    x.base.toNat < 28 → x.d.toNat < 28 → s.placeOf (s.hereW x.base + x.disp) x.width .load = some l → l.home ≠ .scratch s.curCid →
    l.home.isNode = false →
    ∃ t, exec ins s = .next t ∧ s.OnlyAccess t ∧ s.WaitsAt t (s.here.pc + BitVec.ofNat 64 x.bytes) (.result s.serial)
      ∧ s.Sends t fun m => s.isFromHere m (s.hereW x.base + x.disp) l x.width ∧ m.kind = .load ∧ m.dest = s.scalarDest x.d
          ∧ m.signed = decide (x.size < 3) ∧ m.acq = x.ord
          ∧ m.resp = (match l.home, s.l1Get s.curCid l.pa with
              | .slice _, some line => if l.tier && s.tierLost l.pa then none
                  else some (.value (BitVec.ofNat 128 (leNat (State.lineBytes line (l.pa % 128) x.width))))
              | _, _ => none))
  ∧ (∀ (ins : Instr) (x : MemForm) (s : State) (l : Loc) (k : Nat), loadOf ins = some x → x.size < 7 → s.admits ins = true → s.here.wait = .ready →
    s.sound = true → x.base.toNat < 28 → x.d.toNat < 28 → s.placeOf (s.hereW x.base + x.disp) x.width .load = some l → l.home = .node k →
    s.here.refusedNode = some k →
    ∃ t, exec ins s = .next t ∧ s.IssuedTo t (s.here.pc + BitVec.ofNat 64 x.bytes) ∧ s.KeepsBytes t
      ∧ t.hereCore.pend = s.hereCore.pend ++ s.scalarResult x.d 6 0 ∧ t.here.perr = s.here.perr ||| BitVec.twoPow 1024 k ∧ t.here.own = true
      ∧ (x.ord = true → t.hereCore.l1 = []))

/-- R81, R87, R89, R22: a store to the own scratchpad is performed at issue: its bytes become those of s, and no others
change.
R85: a store that leaves for memory writes through to its line in the L1.
R88, R89: a store whose home is elsewhere retires at issue and counts in USTORE, and a 65th makes its context wait; a
release first waits for the earlier stores of its scope. -/
def Obligations.StoreEffects : Prop :=
  (∀ (ins : Instr) (x : MemForm) (s : State) (off : Nat), storeOf ins = some x → x.size < 4 → s.admits ins = true → s.here.wait = .ready →
    s.sound = true → s.hereCore.sp.wf = true → x.base.toNat < 28 → x.d.toNat < 28 →
    s.ownRange (s.hereW x.base + x.disp) x.width true off →
    s.unwritten s.curCid off x.width = true → s.unwatched (.scratch s.curCid) off x.width = true →
    ∃ t, exec ins s = .next t ∧ s.IssuedTo t (s.here.pc + BitVec.ofNat 64 x.bytes) ∧ s.StoresHere t off x.width
      ∧ t.hereCore.pend = s.hereCore.pend
      ∧ ∀ k, k < x.width → t.spByte s.curCid (off + k) = (s.hereW x.d).extractLsb' (8 * k) 8)
  ∧ (∀ (ins : Instr) (x : MemForm) (s : State) (l : Loc), storeOf ins = some x → x.size < 4 → s.admits ins = true → s.here.wait = .ready →
    s.sound = true → x.base.toNat < 28 → x.d.toNat < 28 → s.placeOf (s.hereW x.base + x.disp) x.width .store = some l →
    l.home ≠ .scratch s.curCid →
    let waits := x.ord = true ∧ s.unackedIn s.here.serial (scopeOf s.curCid l.home) ≠ 0
    let pc := s.here.pc + BitVec.ofNat 64 x.bytes
    let stores : State → Bool → Prop := fun t now => s.Sends t fun m => s.isFromHere m (s.hereW x.base + x.disp) l x.width
      ∧ m.kind = .store ∧ m.data = (s.hereW x.d).setWidth 128 ∧ m.mask = lowMask x.width ∧ m.sent = now
    (¬waits → ∃ t, exec ins s = .next t ∧ s.OnlyAccess t ∧ stores t true
      ∧ (∀ g, l.home = .slice g → WritesThrough s t l.pa x.width ((s.hereW x.d).setWidth 128)) ∧ ((∀ g, l.home ≠ .slice g) → t.hereCore.l1 = s.hereCore.l1)
      ∧ t.ustore s.here.serial = s.ustore s.here.serial + 1
      ∧ s.WaitsAt t pc (if 64 ≤ s.ustore s.here.serial then .ustore else .ready))
    ∧ (waits → ∃ t, exec ins s = .next t ∧ s.OnlyAccess t ∧ stores t false ∧ t.hereCore.l1 = s.hereCore.l1
      ∧ s.WaitsAt t pc (.release (scopeOf s.curCid l.home) s.serial)))

/-- R94 to R96: an AMO on the own scratchpad reads and writes its word at issue, and d gets the old word six turns later;
an AMOCAS whose comparison fails writes nothing; the next instruction issues in an own turn.
R23, R85, R94, R97: an AMO whose home is elsewhere leaves as one access, the line of its word is dropped from the L1, and its
context waits for the old word. -/
def Obligations.AtomicEffects : Prop :=
  (∀ (ins : Instr) (f : AF) (op : Nat) (new : Word → Word → Word → Option Word) (s : State) (off : Nat), amoOf ins = some (f, op, new) →
    s.admits ins = true → s.here.wait = .ready → s.sound = true → s.hereCore.sp.wf = true →
    f.a.toNat < 28 → f.b.toNat < 28 → f.d.toNat < 28 → s.ownRange (s.hereW f.a) 8 true off →
    s.unwritten s.curCid off 8 = true → s.unwatched (.scratch s.curCid) off 8 = true →
    let old := BitVec.ofNat 64 (ownNumber s off 8)
    ∃ t, exec ins s = .next t ∧ s.IssuedTo t (s.here.pc + 4) ∧ t.here.own = true ∧ s.StoresHere t off 8
      ∧ t.hereCore.pend = s.hereCore.pend ++ s.scalarResult f.d 6 old
      ∧ BitVec.ofNat 64 (ownNumber t off 8) = (new old (s.hereW f.b) (expectedWord s f op)).getD old)
  ∧ (∀ (ins : Instr) (f : AF) (op : Nat) (new : Word → Word → Word → Option Word) (s : State) (l : Loc), amoOf ins = some (f, op, new) →
    s.admits ins = true → s.sound = true → f.a.toNat < 28 → f.b.toNat < 28 → f.d.toNat < 28 →
    s.placeOf (s.hereW f.a) 8 .amo = some l → l.home ≠ .scratch s.curCid →
    let waits := f.ord.getLsbD 1 = true ∧ s.unackedIn s.here.serial (scopeOf s.curCid l.home) ≠ 0
    let asks : State → Bool → Prop := fun t now => s.Sends t fun m => s.isFromHere m (s.hereW f.a) l 8 ∧ m.kind = .amo op
      ∧ m.data = (s.hereW f.b).setWidth 128 ∧ m.expect = expectedWord s f op ∧ m.acq = f.ord.getLsbD 0 ∧ m.dest = s.scalarDest f.d
      ∧ m.sent = now
    (¬waits → ∃ t, exec ins s = .next t ∧ s.OnlyAccess t ∧ asks t true
      ∧ (∀ g, l.home = .slice g → LineDropped s t l.pa) ∧ ((∀ g, l.home ≠ .slice g) → t.hereCore.l1 = s.hereCore.l1) ∧ s.WaitsAt t (s.here.pc + 4) (.result s.serial))
    ∧ (waits → ∃ t, exec ins s = .next t ∧ s.OnlyAccess t ∧ asks t false
      ∧ s.WaitsAt t (s.here.pc + 4) (.release (scopeOf s.curCid l.home) s.serial)))

/-- R82, R87, R94, R215, R274: an access that fails a check at the core traps with the cause and the address of the first that fails.
What these rules leave open is read as in log 20, the model's own choices. -/
def Obligations.FailedChecksTrap : Prop :=
  (∀ (ins : Instr) (x : MemForm) (s : State) (t : TrapInfo), loadOf ins = some x → s.admits ins = true → s.sound = true →
    x.base.toNat < 28 → s.trapOfAccess (s.hereW x.base + x.disp) x.width .load = some t → exec ins s = .next (s.trapHere ins t))
  ∧ (∀ (ins : Instr) (x : MemForm) (s : State) (t : TrapInfo), storeOf ins = some x → s.admits ins = true → s.sound = true →
    x.base.toNat < 28 → s.trapOfAccess (s.hereW x.base + x.disp) x.width .store = some t → exec ins s = .next (s.trapHere ins t))
  ∧ (∀ (ins : Instr) (f : AF) (op : Nat) (new : Word → Word → Word → Option Word) (s : State) (t : TrapInfo),
    amoOf ins = some (f, op, new) → s.admits ins = true → s.sound = true → f.a.toNat < 28 →
    s.trapOfAccess (s.hereW f.a) 8 .amo = some t → exec ins s = .next (s.trapHere ins t))
  ∧ ∀ (s : State) (a : Word) (n : Nat) (k : Access),
    let fails := fun (c : Cause) => s.trapOfAccess a n k = some { cause := c, tval := a, use := 1, write := k.writes }
    (a.toNat % n ≠ 0 → fails .align)
    ∧ (a.toNat % n = 0 → 2 ^ 56 ≤ a.toNat → fails .xlate)
    ∧ (a.toNat % n = 0 → a.toNat < 0x80000 → 0x60000 ≤ a.toNat → fails .xlate)
    ∧ (a.toNat % n = 0 → a.toNat / 2 ^ 55 = 1 → a.toNat / 2 ^ 31 % 2 ^ 24 ≠ 0 → fails .xlate)
    ∧ (a.toNat % n = 0 → a.toNat / 2 ^ 55 = 1 → 0x60000 ≤ a.toNat % 2 ^ 19 → fails .xlate)
    ∧ (a.toNat % n = 0 → a.toNat / 2 ^ 55 = 1 → 0x800 ≤ a.toNat / 2 ^ 19 % 2 ^ 12 → a.toNat / 2 ^ 19 % 2 ^ 12 < 0xFFF → fails .xlate)
    ∧ (∀ off, s.ownAddress a off → off % n = 0 → n ∈ [1, 2, 4, 8, 16] → s.here.guest = false →
        s.scratchLocked s.curCid off n k.writes = true → fails .rangeLock)
    ∧ (a.toNat % n = 0 → 0x80000 ≤ a.toNat → a.toNat < 2 ^ 55 → s.translation s.curCid s.here a.toNat = none →
        s.here.walkFailed a.toNat = true → s.sound = true → fails .xlate)
    ∧ ∀ e, a.toNat % n = 0 → 0x80000 ≤ a.toNat → a.toNat < 2 ^ 55 → s.translation s.curCid s.here a.toNat = some e →
      (k.writes = true → e.w = false → fails .perm)
      ∧ ((k.writes = true → e.w = true) → let l := s.paLoc (e.pa + a.toNat % e.size) (dieOf s.curCid)
        (l.tier = true → k.tierOk = false → fails .perm)
        ∧ (l.home.isNode = true → k ∈ [.watch, .engineRead, .bulkLoad] → fails .perm))

/-- R215, R217, R270: a load homed on another module moves its context, a guest whose load is homed on its home module and one that
accesses a scratchpad go home, and a missing translation makes the context wait, all with PC at the instruction. That an instruction
that misses is not yet counted in ISSUED is the model's choice (log 14). -/
def Obligations.AccessesThatWait : Prop :=
  ∀ (ins : Instr) (x : MemForm) (s : State), loadOf ins = some x → x.size < 7 → s.admits ins = true → s.sound = true →
    x.base.toNat < 28 →
    let va := s.hereW x.base + x.disp
    (∀ (l : Loc) (k : Nat), s.placeOf va x.width .load = some l → l.home = .node k → s.here.refusedNode ≠ some k →
      ∃ t, exec ins s = .next t ∧ s.OnlyIssue t ∧ t.here.pc = s.here.pc ∧ t.hereCore.issued = s.hereCore.issued
        ∧ t.here.wait = if s.here.guest = true ∧ k = s.here.homeNode then .goHome none else .depart k l.addr)
    ∧ (∀ off, s.ownAddress va off → off % x.width = 0 → s.here.guest = true →
      ∃ t, exec ins s = .next t ∧ s.OnlyIssue t ∧ t.here.pc = s.here.pc ∧ t.hereCore.issued = s.hereCore.issued
        ∧ t.here.wait = .goHome none)
    ∧ (va.toNat % x.width = 0 → 0x80000 ≤ va.toNat → va.toNat < 2 ^ 55 → s.translation s.curCid s.here va.toNat = none →
        s.here.walkFailed va.toNat = false → s.here.walkedTogether = false →
      ∃ t, exec ins s = .next t ∧ t.here.pc = s.here.pc ∧ t.hereCore.issued = s.hereCore.issued ∧ t.here.wait = .walk va
        ∧ t.mem = s.mem ∧ t.hereCore.sp = s.hereCore.sp ∧ t.here.frame = s.here.frame ∧ t.hereCore.pend = s.hereCore.pend)

/-- R92: PFETCH asks for the line of a global address that it can reach and does nothing else; L1INV empties the L1. R240: the lines on
their way, of prefetches too, are not kept, which is the model's reading (log 19). -/
def Obligations.PrefetchAndInvalidate : Prop :=
  (∀ (f : RF) (s : State), s.admits (.pfetch f) = true → s.here.wait = .ready → s.sound = true → f.a.toNat < 28 →
    ∃ t, exec (.pfetch f) s = .next t ∧ s.OnlyAccess t ∧ s.IssuedTo t (s.here.pc + 4)
      ∧ ((s.hereW f.a).toNat < 0x80000 ∨ 2 ^ 55 ≤ (s.hereW f.a).toNat → s.OnlyIssue t)
      ∧ (0x80000 ≤ (s.hereW f.a).toNat → (s.hereW f.a).toNat < 2 ^ 55 →
          (∀ l, s.placeOf (s.hereW f.a) 1 .engineRead = some l → if (s.l1Get s.curCid l.pa).isSome then t.net = s.net
              else s.Sends t fun m => s.isFromHere m (s.hereW f.a) l 1 ∧ m.kind = .fill)
          ∧ (s.placeOf (s.hereW f.a) 1 .engineRead = none → t.net = s.net)))
  ∧ ∀ (f : RF) (s : State), s.admits (.l1inv f) = true → s.here.wait = .ready →
    ∃ t, exec (.l1inv f) s = .next t ∧ s.OnlyAccess t ∧ s.IssuedTo t (s.here.pc + 4) ∧ t.hereCore.l1 = []
      ∧ t.net.length = s.net.length ∧ ∀ m ∈ t.net, m.cid = s.curCid → m.keepLine = false

/-- R85, R93: WAITV reads its word, at once in the own scratchpad and else at its home, where its line is dropped from the L1, and
waits; while the word of the own scratchpad equals b it is watched.
R93, R246: a store that reaches a watched word, at its home or at issue in the own scratchpad, makes the WAITV read it again.
R93: at its home a WAITV whose word differs from b is answered; else it takes a watch while one is free, and without
one polls 1,024 turns later. What these rules leave open is read as in log 44, the model's own
choices. -/
def Obligations.WatchedWords : Prop :=
  (∀ (f : RF) (s : State) (l : Loc), s.admits (.waitv f) = true → s.sound = true → f.a.toNat < 28 → f.b.toNat < 28 → f.d.toNat < 28 →
    s.placeOf (s.hereW f.a) 8 .watch = some l →
    ∃ t, exec (.waitv f) s = .next t ∧ s.OnlyAccess t ∧ s.WaitsAt t (s.here.pc + 4) (.watch s.serial)
      ∧ (∀ g, l.home = .slice g → LineDropped s t l.pa)
      ∧ s.Sends t fun m => s.isFromHere m (s.hereW f.a) l 8 ∧ m.kind = .watch ∧ m.expect = s.hereW f.b ∧ m.dest = s.scalarDest f.d
          ∧ (l.home = .scratch s.curCid →
              let v := BitVec.ofNat 64 (ownNumber s l.addr 8)
              m.watching = decide (v = s.hereW f.b)
                ∧ m.resp = if v = s.hereW f.b then none else some (.value (v.setWidth 128))))
  ∧ (∀ (s : State) (m w : Msg), stepMessage s m → s.sound = true → m.kind = .store → m.units = [] → m.bytes = [] → m.size ≤ 16 → 0 < m.size →
    s.homeRefuses m m.size true = none → m.loc.home.isNode = false → w.id ≠ m.id → soleWatch s w m.loc.home m.loc.addr m.size →
    ∃ t, exec .homeAccess s = .next t ∧ Rewatched t w)
  ∧ (∀ (ins : Instr) (x : MemForm) (s : State) (off : Nat) (w : Msg), storeOf ins = some x → x.size < 4 → s.admits ins = true → s.here.wait = .ready →
    s.sound = true → x.base.toNat < 28 → x.d.toNat < 28 → s.ownRange (s.hereW x.base + x.disp) x.width true off →
    soleWatch s w (.scratch s.curCid) off x.width →
    ∃ t, exec ins s = .next t ∧ s.IssuedTo t (s.here.pc + BitVec.ofNat 64 x.bytes) ∧ Rewatched t w)
  ∧ ((∀ (s : State) (m : Msg), stepMessage s m → s.sound = true → m.kind = .watch → s.homeRefuses m 8 false = none →
    let v := BitVec.ofNat 64 (leNat (s.readLoc m.loc 8))
    ∃ t, exec .homeAccess s = .next t ∧ s.KeepsBytes t
      ∧ ∃ x ∈ t.net, x.id = m.id ∧ x.performed = true
        ∧ (v ≠ m.expect → x.resp = some (.value (v.setWidth 128)))
        ∧ (v = m.expect → s.watchFree m = true → x.watching = true ∧ t.agenda = s.agenda)
        ∧ (v = m.expect → s.watchFree m = false → { due := s.atTurn m.cid 1024, rank := rankOf m.cid, ins := .waitvPoll, obj := { a := m.cid, b := m.slot, c := m.id } } ∈ t.agenda))
  ∧ ∀ (s : State) (m : Msg), s.msg? s.obj.c = some m → m.kind = .watch → m.watching = false → m.resp = none →
    (s.slot s.obj.a s.obj.b).wait = .watch m.id → s.sound = true → s.homeRefuses m 8 false = none →
    BitVec.ofNat 64 (leNat (s.readLoc m.loc 8)) ≠ m.expect →
    ∃ t, exec .waitvPoll s = .next t ∧ s.KeepsBytes t
      ∧ ∃ x ∈ t.net, x.id = m.id ∧ x.resp = some (.value ((BitVec.ofNat 64 (leNat (s.readLoc m.loc 8))).setWidth 128)))

/-- R98, R100: a fence with no store of its scope outstanding ends at its issue, where FENCE.S writes d (the model's reading, log 53), with the L1 emptied under scope P and S, and
FENCE.S counts and clears the error bits; with one outstanding the context waits. -/
def Obligations.FencesOfStores : Prop :=
  (∀ p ∈ [(Instr.fenceC, 0), (Instr.fenceK, 1), (Instr.fenceP, 2)], ∀ (f : RF) (s : State), s.admits (p.1 f) = true → s.here.wait = .ready →
    ∃ t, exec (p.1 f) s = .next t ∧ s.OnlyAccess t
      ∧ (s.unackedIn s.here.serial p.2 = 0 → s.IssuedTo t (s.here.pc + 4) ∧ t.hereCore.l1 = if p.2 = 2 then [] else s.hereCore.l1)
      ∧ (s.unackedIn s.here.serial p.2 ≠ 0 → s.WaitsAt t (s.here.pc + 4) (.fence p.2 .none none false 0)
          ∧ t.hereCore.l1 = s.hereCore.l1))
  ∧ (∀ (f : RF) (s : State), s.admits (.fenceS f) = true → s.here.wait = .ready → s.sound = true → s.canonHere = true →
    s.quietReg (8 * f.d.toNat) = true → f.d.toNat < 28 → f.a = 0 →
    (s.unackedIn s.here.serial 3 = 0 →
      ∃ t, exec (.fenceS f) s = .next t ∧ s.IssuedTo t (s.here.pc + 4) ∧ t.hereCore.l1 = [] ∧ t.here.perr = 0
        ∧ t.hereCore.pend = s.hereCore.pend
        ∧ t.hereW f.d = (if f.d = 0 then 0 else BitVec.ofNat 64 ((List.range 1024).countP s.here.perr.getLsbD)))
    ∧ (s.unackedIn s.here.serial 3 ≠ 0 →
      ∃ t, exec (.fenceS f) s = .next t ∧ s.OnlyAccess t ∧ s.WaitsAt t (s.here.pc + 4) (.fence 3 (s.scalarDest f.d) none true 0)))
  ∧ ∀ (f : RF) (s : State) (off : Nat), s.admits (.fenceS f) = true → s.here.wait = .ready → s.sound = true → s.hereCore.sp.wf = true →
    f.d.toNat < 28 → f.a ≠ 0 → f.a.toNat < 28 → (∀ j, j < 8 → s.ownRange (s.hereW f.a + BitVec.ofNat 64 (16 * j)) 16 true (off + 16 * j)) →
    s.unwritten s.curCid off 128 = true → s.unwatched (.scratch s.curCid) off 128 = true → s.unackedIn s.here.serial 3 = 0 →
    ∃ t, exec (.fenceS f) s = .next t ∧ s.IssuedTo t (s.here.pc + 4) ∧ t.hereCore.l1 = [] ∧ t.here.perr = 0
      ∧ ∀ k, k < 128 → t.spByte s.curCid (off + k) = s.here.perr.extractLsb' (8 * k) 8

/-- R101 to R104: an integer vector operation on registers has its lanes as a pending result four turns on, with the bytes
of the lanes that are on. -/
def Obligations.IntegerLaneResults : Prop :=
  ∀ p ∈ integerLanes, ∀ (f : XF) (s : State), s.admits (p.1 f) = true → s.here.wait = .ready → s.sound = true →
    f.a.toNat < 16 → f.b.toNat < 16 → f.c.toNat < 16 → f.d.toNat < 16 → 1 ≤ f.et.toNat → f.et.toNat ≤ 8 →
    let w := laneWidth f.et.toNat
    let at_ := fun (r : BitVec 5) j => laneInt f.et.toNat (laneOf w (s.hereQ r) j)
    ∃ t v mask, exec (p.1 f) s = .next t ∧ s.OnlyIssue t ∧ s.IssuedTo t (s.here.pc + 12)
      ∧ t.hereCore.pend = s.hereCore.pend ++ s.vectorResult f.d.toNat 4 v mask ∧ bytesOf w (laneOn s f) mask
      ∧ ∀ j, j < 128 / w → laneOf w v j = toLane w (p.2 w f.aux8.toNat (at_ f.a j) (at_ f.b j) (at_ f.c j))

/-- R105: VMACW adds the products of its sixteen lanes to four registers, and VDOT4 the sums of four products to one, with
eight turns to the result. -/
def Obligations.MultiplyAccumulate : Prop :=
  ∀ (f : XF) (s : State), s.here.wait = .ready → s.sound = true → f.a.toNat < 16 → f.b.toNat < 16 → f.et.toNat = 1 ∨ f.et.toNat = 2 →
    let prod := fun i => laneInt f.et.toNat (laneOf 8 (s.hereQ f.a) i) * laneInt f.et.toNat (laneOf 8 (s.hereQ f.b) i)
    (s.admits (.vmacw f) = true → f.d.toNat ≤ 12 →
      ∃ t v0 v1 v2 v3, exec (.vmacw f) s = .next t ∧ s.OnlyIssue t ∧ s.IssuedTo t (s.here.pc + 12)
        ∧ t.hereCore.pend = s.hereCore.pend ++ s.vectorResult f.d.toNat 8 v0 0xFFFF ++ s.vectorResult (f.d.toNat + 1) 8 v1 0xFFFF
            ++ s.vectorResult (f.d.toNat + 2) 8 v2 0xFFFF ++ s.vectorResult (f.d.toNat + 3) 8 v3 0xFFFF
        ∧ ∀ i, i < 16 → laneOf 32 (([v0, v1, v2, v3] : List VWord).getD (i / 4) 0) (i % 4)
            = toLane 32 (laneOf 32 (s.qreg s.curCid s.curSlot (f.d.toNat + i / 4)) (i % 4) + if laneOn s f i then prod i else 0))
    ∧ (s.admits (.vdot4 f) = true → f.d.toNat < 16 →
      ∃ t v mask, exec (.vdot4 f) s = .next t ∧ s.OnlyIssue t ∧ s.IssuedTo t (s.here.pc + 12)
        ∧ t.hereCore.pend = s.hereCore.pend ++ s.vectorResult f.d.toNat 8 v mask ∧ bytesOf 32 (laneOn s f) mask
        ∧ ∀ j, j < 4 → laneOf 32 v j
            = toLane 32 (laneOf 32 (s.hereQ f.d) j + (prod (4 * j) + prod (4 * j + 1) + prod (4 * j + 2) + prod (4 * j + 3))))

/-- R34, R37, R106: a floating-point vector operation on registers rounds each lane that is on once, under SR with one draw
for each in ascending order; a MODE of 6 or 7 is ILLEGAL; VFMIN and VFMAX do not round. -/
def Obligations.FloatLaneResults : Prop :=
  (∀ p ∈ floatLaneOps, ∀ (f : XF) (s : State), s.admits (p.1 f) = true → s.here.wait = .ready → s.sound = true →
    f.a.toNat < 16 → f.b.toNat < 16 → f.c.toNat < 16 → f.d.toNat < 16 → 9 ≤ f.et.toNat → f.et.toNat ≤ 11 →
    (roundingNumber s f < 6 → (roundingNumber s f = 5 → s.quietReg wsRnd = true) →
      let w := laneWidth f.et.toNat
      let at_ := fun (r : BitVec 5) j => laneOf w (s.hereQ r) j
      ∃ t v mask, exec (p.1 f) s = .next t ∧ s.IssuedTo t (s.here.pc + 12) ∧ Draws s t f (onLanes s f (128 / w)).length
        ∧ t.hereCore.pend = s.hereCore.pend ++ s.vectorResult f.d.toNat 8 v mask ∧ bytesOf w (laneOn s f) mask
        ∧ ∀ j, j < 128 / w → laneOn s f j = true → laneOf w v j
            = p.2 (formatOf f.et.toNat) (roundingMode s f (onLanes s f j).length) (at_ f.a j) (at_ f.b j) (at_ f.c j))
    ∧ (f.ro = 0 → 6 ≤ roundingNumber s f →
      exec (p.1 f) s = .next (s.trapHere (p.1 f) { cause := .illegal, tval := rndHere s })))
  ∧ ∀ p ∈ [(Instr.vfmin, minF), (Instr.vfmax, maxF)], ∀ (f : XF) (s : State), s.admits (p.1 f) = true → s.here.wait = .ready → s.sound = true →
    f.a.toNat < 16 → f.b.toNat < 16 → f.d.toNat < 16 → 9 ≤ f.et.toNat → f.et.toNat ≤ 11 →
    let w := laneWidth f.et.toNat
    ∃ t v mask, exec (p.1 f) s = .next t ∧ s.OnlyIssue t ∧ s.IssuedTo t (s.here.pc + 12)
      ∧ t.hereCore.pend = s.hereCore.pend ++ s.vectorResult f.d.toNat 8 v mask ∧ bytesOf w (laneOn s f) mask
      ∧ ∀ j, j < 128 / w → laneOf w v j = p.2 (formatOf f.et.toNat) (laneOf w (s.hereQ f.a) j) (laneOf w (s.hereQ f.b) j)

/-- R108, R110: VSPLAT, VPERM, VSLIDE and VSEL rearrange lanes. -/
def Obligations.LaneMoves : Prop :=
  (∀ p ∈ laneMoves, ∀ (f : XF) (s : State), s.admits (p.1 f) = true → s.here.wait = .ready → s.sound = true →
    f.a.toNat < 16 → f.b.toNat < 16 → f.d.toNat < 16 → 1 ≤ f.et.toNat → f.et.toNat ≤ 13 →
    let w := laneWidth f.et.toNat
    ∃ t v mask, exec (p.1 f) s = .next t ∧ s.OnlyIssue t ∧ s.IssuedTo t (s.here.pc + 12)
      ∧ t.hereCore.pend = s.hereCore.pend ++ s.vectorResult f.d.toNat 4 v mask ∧ bytesOf w (laneOn s f) mask
      ∧ ∀ j, j < 128 / w → laneOf w v j
          = laneOf w (s.hereQ (if (p.2 f s (128 / w) j).1 then f.b else f.a)) (p.2 f s (128 / w) j).2)
  ∧ (∀ (f : XL) (s : State), s.admits (.vpermLit f) = true → s.here.wait = .ready → s.sound = true → f.x.a.toNat < 16 → f.x.d.toNat < 16 →
    1 ≤ f.x.et.toNat → f.x.et.toNat ≤ 13 →
    let w := laneWidth f.x.et.toNat
    ∃ t v mask, exec (.vpermLit f) s = .next t ∧ s.OnlyIssue t ∧ s.IssuedTo t (s.here.pc + 20)
      ∧ t.hereCore.pend = s.hereCore.pend ++ s.vectorResult f.x.d.toNat 4 v mask ∧ bytesOf w (laneOn s f.x) mask
      ∧ ∀ j, j < 128 / w → laneOf w v j = laneOf w (s.hereQ f.x.a) (f.lit.toNat / 16 ^ j % 16 % (128 / w)))
  ∧ (∀ (f : XF) (s : State), s.admits (.vsplat f) = true → s.here.wait = .ready → s.sound = true → f.a.toNat < 28 → f.d.toNat < 16 →
    1 ≤ f.et.toNat → f.et.toNat ≤ 13 →
    let w := laneWidth f.et.toNat
    ∃ t v mask, exec (.vsplat f) s = .next t ∧ s.OnlyIssue t ∧ s.IssuedTo t (s.here.pc + 12)
      ∧ t.hereCore.pend = s.hereCore.pend ++ s.vectorResult f.d.toNat 4 v mask ∧ bytesOf w (laneOn s f) mask
      ∧ ∀ j, j < 128 / w → laneOf w v j = (s.hereW f.a).toNat % 2 ^ w)
  ∧ (∀ (f : XL) (s : State), s.admits (.vsplatLit f) = true → s.here.wait = .ready → s.sound = true → f.x.d.toNat < 16 →
    1 ≤ f.x.et.toNat → f.x.et.toNat ≤ 13 →
    let w := laneWidth f.x.et.toNat
    ∃ t v mask, exec (.vsplatLit f) s = .next t ∧ s.OnlyIssue t ∧ s.IssuedTo t (s.here.pc + 20)
      ∧ t.hereCore.pend = s.hereCore.pend ++ s.vectorResult f.x.d.toNat 4 v mask ∧ bytesOf w (laneOn s f.x) mask
      ∧ ∀ j, j < 128 / w → laneOf w v j = f.lit.toNat % 2 ^ w)
  ∧ ∀ (f : XF) (s : State), s.admits (.vsel f) = true → s.here.wait = .ready → s.sound = true → f.a.toNat < 16 → f.b.toNat < 16 →
    f.d.toNat < 16 → 1 ≤ f.et.toNat → f.et.toNat ≤ 13 →
    let w := laneWidth f.et.toNat
    ∃ t v, exec (.vsel f) s = .next t ∧ s.OnlyIssue t ∧ s.IssuedTo t (s.here.pc + 12)
      ∧ t.hereCore.pend = s.hereCore.pend ++ s.vectorResult f.d.toNat 4 v 0xFFFF
      ∧ ∀ j, j < 128 / w → laneOf w v j = laneOf w (s.hereQ (if laneOn s f j then f.a else f.b)) j

/-- R109: VRED reduces the lanes that are on, in ascending order, into lane 0 of d. -/
def Obligations.Reductions : Prop :=
  ∀ (f : XF) (s : State), s.admits (.vred f) = true → s.here.wait = .ready → s.sound = true → f.a.toNat < 16 → f.d.toNat < 16 →
    1 ≤ f.et.toNat → f.et.toNat ≤ 11 → f.aux8.toNat < 3 →
    (9 ≤ f.et.toNat → f.aux8 = 0 → f.ro = 0 → 6 ≤ roundingNumber s f →
      exec (.vred f) s = .next (s.trapHere (.vred f) { cause := .illegal, tval := rndHere s }))
    ∧ ((9 ≤ f.et.toNat ∧ f.aux8 = 0 → roundingNumber s f < 6) → (roundingNumber s f = 5 → s.quietReg wsRnd = true) →
    let w := laneWidth f.et.toNat
    let xs := (onLanes s f (128 / w)).map (laneOf w (s.hereQ f.a))
    ∃ t v, exec (.vred f) s = .next t ∧ s.IssuedTo t (s.here.pc + 12)
      ∧ (if 9 ≤ f.et.toNat ∧ f.aux8 = 0 then Draws s t f (xs.length - 1) else s.OnlyIssue t)
      ∧ t.hereCore.pend = s.hereCore.pend ++ s.vectorResult f.d.toNat 4 v 0xFFFF
      ∧ v.toNat = (match xs with
          | [] => reducedNone f.et.toNat f.aux8.toNat
          | x :: rest => (rest.foldl (fun p y => (reduced f.et.toNat f.aux8.toNat (roundingMode s f p.2) p.1 y, p.2 + 1)) (x, 0)).1))

/-- R111, R112: VCMP and the predicate operations write a predicate register. -/
def Obligations.PredicateResults : Prop :=
  (∀ (f : XF) (s : State), s.admits (.vcmp f) = true → s.here.wait = .ready → s.sound = true → f.a.toNat < 16 → f.b.toNat < 16 →
    1 ≤ f.et.toNat → f.et.toNat ≤ 13 → f.aux8.toNat < 6 →
    let w := laneWidth f.et.toNat
    ∃ t v, exec (.vcmp f) s = .next t ∧ s.OnlyIssue t ∧ s.IssuedTo t (s.here.pc + 12)
      ∧ t.hereCore.pend = s.hereCore.pend ++ predicateResult s f.d.toNat 4 v
      ∧ ∀ j, j < 16 → v.getLsbD j = (decide (j < 128 / w) && laneOn s f j
          && laneCompare f.et.toNat f.aux8.toNat (laneOf w (s.hereQ f.a) j) (laneOf w (s.hereQ f.b) j)))
  ∧ (∀ p ∈ [(Instr.kand, fun (a b : BitVec 16) => a &&& b), (Instr.kor, fun a b => a ||| b), (Instr.knot, fun a _ => ~~~ a), (Instr.kmov, fun a _ => a)],
    ∀ (f : XF) (s : State), s.admits (p.1 f) = true → s.here.wait = .ready → s.sound = true →
    ∃ t v, exec (p.1 f) s = .next t ∧ s.OnlyIssue t ∧ s.IssuedTo t (s.here.pc + 12)
      ∧ t.hereCore.pend = s.hereCore.pend ++ predicateResult s f.d.toNat 4 v
      ∧ v.setWidth 16 = p.2 (s.hereK f.a.toNat) (s.hereK f.b.toNat))
  ∧ ∀ (f : XF) (s : State), s.admits (.kmovImm f) = true → s.here.wait = .ready →
    ∃ t, exec (.kmovImm f) s = .next t ∧ s.OnlyIssue t ∧ s.IssuedTo t (s.here.pc + 12)
      ∧ t.hereCore.pend = s.hereCore.pend ++ predicateResult s f.d.toNat 4 ((f.aux32.setWidth 16).setWidth 128)

/-- R38 to R40, R113, R114: the conversions between lanes of registers. -/
def Obligations.LaneConversions : Prop :=
  (∀ (f : XF) (s : State), (Instr.vfcvt f).wf = true → s.admits (.vfcvt f) = true → s.here.wait = .ready → s.sound = true →
    f.a.toNat < 16 → f.d.toNat < 16 →
    (f.ro = 0 → 6 ≤ roundingNumber s f → exactTypes f.et.toNat (f.aux8.toNat % 16) = false →
      exec (.vfcvt f) s = .next (s.trapHere (.vfcvt f) { cause := .illegal, tval := rndHere s }))
    ∧ (roundingNumber s f < 6 ∨ exactTypes f.et.toNat (f.aux8.toNat % 16) = true → (roundingNumber s f = 5 → s.quietReg wsRnd = true) →
    let d := f.et.toNat
    let from_ := f.aux8.toNat % 16
    let h := f.aux8.toNat / 16 % 4
    let ld := 128 / laneWidth d
    let ls := 128 / laneWidth from_
    let lo := if ls < ld then h * ls else 0
    let n := Min.min ls ld
    let on := fun j => decide (lo ≤ j ∧ j < lo + n) && laneOn s f j
    ∃ t v mask, exec (.vfcvt f) s = .next t ∧ s.IssuedTo t (s.here.pc + 12)
      ∧ (if exactTypes d from_ then s.OnlyIssue t else Draws s t f ((List.range ld).filter on).length)
      ∧ t.hereCore.pend = s.hereCore.pend ++ s.vectorResult f.d.toNat 6 v mask ∧ bytesOf (laneWidth d) on mask
      ∧ ∀ j, j < n → on (lo + j) = true → laneOf (laneWidth d) v (lo + j)
          = convertedLane d from_ (if exactTypes d from_ then .rne else roundingMode s f ((List.range (lo + j)).filter on).length)
              (laneOf (laneWidth from_) (s.hereQ f.a) (if ld < ls then h * ld + j else j))))
  ∧ (∀ (f : XF) (s : State), s.admits (.vnarrow f) = true → s.here.wait = .ready → s.sound = true → f.d.toNat < 16 →
    1 ≤ f.et.toNat → f.et.toNat ≤ 4 → f.a.toNat + 32 / laneWidth f.et.toNat ≤ 16 →
    let w := laneWidth f.et.toNat
    let lo : Int := if f.et.toNat % 2 = 1 then -(2 ^ (w - 1) : Nat) else 0
    let hi : Int := if f.et.toNat % 2 = 1 then (2 ^ (w - 1) : Nat) - 1 else (2 ^ w : Nat) - 1
    ∃ t v mask, exec (.vnarrow f) s = .next t ∧ s.OnlyIssue t ∧ s.IssuedTo t (s.here.pc + 12)
      ∧ t.hereCore.pend = s.hereCore.pend ++ s.vectorResult f.d.toNat 6 v mask ∧ bytesOf w (laneOn s f) mask
      ∧ ∀ j, j < 128 / w →
          let x := laneOf 32 (s.qreg s.curCid s.curSlot (f.a.toNat + j / 4)) (j % 4)
          laneOf w v j = toLane w (Max.max lo (Min.min hi (if f.aux8.getLsbD 0 then (x : Int) else Int.bmod x (2 ^ 32)))))
  ∧ ∀ (f : XF) (s : State), s.admits (.vwiden f) = true → s.here.wait = .ready → s.sound = true → f.a.toNat < 16 →
    1 ≤ f.et.toNat → f.et.toNat ≤ 4 →
    let w := laneWidth f.et.toNat
    ∃ (t : State) (vs : List (VWord × BitVec 16)), exec (.vwiden f) s = .next t ∧ s.OnlyIssue t ∧ s.IssuedTo t (s.here.pc + 12)
      ∧ vs.length = 32 / w
      ∧ t.hereCore.pend = s.hereCore.pend ++ vs.zipIdx.flatMap (fun p => s.vectorResult (f.d.toNat + p.2) 6 p.1.1 p.1.2)
      ∧ (∀ g, g < 32 / w → bytesOf 32 (fun k => laneOn s f (4 * g + k)) (vs.getD g (0, 0)).2)
      ∧ ∀ j, j < 128 / w → laneOf 32 (vs.getD (j / 4) (0, 0)).1 (j % 4) = toLane 32 (laneInt f.et.toNat (laneOf w (s.hereQ f.a) j))

/-- R107: VLD and VST of the own scratchpad move the sixteen bytes of the lanes that are on.
R23, R85, R88, R89, R107: elsewhere VLD leaves as an access of the context, which waits for its value; VST leaves as one store of the
lanes that are on, which counts in USTORE, and with none on nothing leaves.
R215: VLD from another module moves its context, and completes with 0 where that has been refused. -/
def Obligations.VectorLoadsAndStores : Prop :=
  ((∀ (f : XF) (s : State) (off : Nat), s.admits (.vld f) = true → s.here.wait = .ready → s.sound = true → f.a.toNat < 28 → f.d.toNat < 16 →
    f.et.toNat ≤ 13 → (f.et = 0 → f.k = 0) → s.ownRange (s.hereW f.a + f.aux32.signExtend 64) 16 false off →
    ∃ t v mask, exec (.vld f) s = .next t ∧ s.OnlyIssue t ∧ s.IssuedTo t (s.here.pc + 12)
      ∧ t.hereCore.pend = s.hereCore.pend ++ s.vectorResult f.d.toNat 6 v mask
      ∧ bytesOf (if f.et = 0 then 8 else laneWidth f.et.toNat) (laneOn s f) mask
      ∧ ∀ k, k < 16 → laneOf 8 v k = (s.spByte s.curCid (off + k)).toNat)
  ∧ ∀ (f : XF) (s : State) (l : Loc), s.admits (.vld f) = true → s.here.wait = .ready → s.sound = true → f.a.toNat < 28 → f.d.toNat < 16 →
    f.et.toNat ≤ 13 → (f.et = 0 → f.k = 0) → s.placeOf (s.hereW f.a + f.aux32.signExtend 64) 16 .load = some l → l.home ≠ .scratch s.curCid →
    let va := s.hereW f.a + f.aux32.signExtend 64
    (l.home.isNode = false →
      ∃ t ins, exec (.vld f) s = .next t ∧ s.OnlyAccess t ∧ s.WaitsAt t (s.here.pc + 12) (.gather (.vld f) [(s.serial, 1)] ins (.q f.d.toNat))
        ∧ (∀ j, j < 16 → ins.lanes.getLsbD j = laneOn s f j)
        ∧ s.Sends t fun m => s.isFromHere m va l 16 ∧ m.kind = .pointer 1
            ∧ m.resp = (match l.home, s.l1Get s.curCid l.pa with
                | .slice _, some line => if l.tier && s.tierLost l.pa then none
                    else some (.value (BitVec.ofNat 128 (leNat (State.lineBytes line (l.pa % 128) 16))))
                | _, _ => none))
    ∧ ∀ k, l.home = .node k →
      (s.here.refusedNode ≠ some k →
        ∃ t, exec (.vld f) s = .next t ∧ s.OnlyIssue t ∧ t.here.pc = s.here.pc ∧ t.hereCore.issued = s.hereCore.issued
          ∧ t.here.wait = if s.here.guest = true ∧ k = s.here.homeNode then .goHome none else .depart k l.addr)
      ∧ (s.here.refusedNode = some k →
        ∃ t mask, exec (.vld f) s = .next t ∧ s.IssuedTo t (s.here.pc + 12) ∧ s.KeepsBytes t ∧ t.here.own = true
          ∧ t.hereCore.pend = s.hereCore.pend ++ s.vectorResult f.d.toNat 6 0 mask
          ∧ bytesOf (if f.et = 0 then 8 else laneWidth f.et.toNat) (laneOn s f) mask
          ∧ t.here.perr = s.here.perr ||| BitVec.twoPow 1024 k))
  ∧ (∀ (f : XF) (s : State) (off : Nat), s.admits (.vst f) = true → s.here.wait = .ready → s.sound = true → s.hereCore.sp.wf = true →
    f.a.toNat < 28 → f.b.toNat < 16 → f.et.toNat ≤ 13 → (f.et = 0 → f.k = 0) →
    s.ownRange (s.hereW f.a + f.aux32.signExtend 64) 16 true off →
    s.unwritten s.curCid off 16 = true → s.unwatched (.scratch s.curCid) off 16 = true →
    ∃ t, exec (.vst f) s = .next t ∧ s.IssuedTo t (s.here.pc + 12) ∧ s.StoresHere t off 16 ∧ t.hereCore.pend = s.hereCore.pend
      ∧ ∀ k, k < 16 → t.spByte s.curCid (off + k)
          = if laneOn s f (k / ((if f.et = 0 then 8 else laneWidth f.et.toNat) / 8)) then (s.hereQ f.b).extractLsb' (8 * k) 8
            else s.spByte s.curCid (off + k))
  ∧ ∀ (f : XF) (s : State) (l : Loc), s.admits (.vst f) = true → s.here.wait = .ready → s.sound = true → f.a.toNat < 28 → f.b.toNat < 16 →
    f.et.toNat ≤ 13 → (f.et = 0 → f.k = 0) → s.placeOf (s.hereW f.a + f.aux32.signExtend 64) 16 .store = some l → l.home ≠ .scratch s.curCid →
    let on := fun k => laneOn s f (k / ((if f.et = 0 then 8 else laneWidth f.et.toNat) / 8))
    ((∃ k, k < 16 ∧ on k = true) →
      ∃ t, exec (.vst f) s = .next t ∧ s.OnlyAccess t ∧ s.WaitsAt t (s.here.pc + 12) (if 64 ≤ s.ustore s.here.serial then .ustore else .ready)
        ∧ t.ustore s.here.serial = s.ustore s.here.serial + 1
        ∧ (∀ g, l.home = .slice g → WritesThrough s t l.pa 16 (s.hereQ f.b) on) ∧ ((∀ g, l.home ≠ .slice g) → t.hereCore.l1 = s.hereCore.l1)
        ∧ s.Sends t fun m => s.isFromHere m (s.hereW f.a + f.aux32.signExtend 64) l 16 ∧ m.kind = .store ∧ m.data = s.hereQ f.b ∧ m.sent = true
            ∧ ∀ k, k < 16 → m.mask.getLsbD k = on k)
    ∧ ((∀ k, k < 16 → on k = false) → ∃ t, exec (.vst f) s = .next t ∧ s.OnlyAccess t ∧ s.IssuedTo t (s.here.pc + 12) ∧ t.net = s.net)

/-- R18, R101, R102: in an integer vector operation each pointer operand in the own scratchpad gives its sixteen bytes, a pointer d
takes the result there in place of a register, and each pointer advances by 16 for each use.
R24: pointer operands that meet one bank stretch the turn, and BANKSTALL grows by as much.
R19, R23, R102: a pointer d elsewhere sets a store aside that counts in USTORE, and a pointer a elsewhere is read while the context
waits.
R19, R116: a stream operand gives or takes the next word of its port; beyond the end, and on a port that is not bound, it is CHANNEL,
and a word whose fetch failed traps. What these rules leave open is read as in log 18 and log
54, the model's own choices. -/
def Obligations.PointerOperands : Prop :=
  ∀ p ∈ integerLanes, ∀ (f : XF) (s : State), (p.1 f).wf = true → s.admits (p.1 f) = true → s.here.wait = .ready → s.sound = true →
    let w := laneWidth f.et.toNat
    let at_ := fun (r : BitVec 5) j => laneInt f.et.toNat (laneOf w (s.hereQ r) j)
    let inSp := fun off j => laneInt f.et.toNat (ownNumber s (off + j * (w / 8)) (w / 8))
    let result := fun (a b c : Nat → Int) (v : VWord) => ∀ j, j < 128 / w → laneOf w v j = toLane w (p.2 w f.aux8.toNat (a j) (b j) (c j))
    let writes := fun (t : State) (d : Dest) (v : VWord) (mask : BitVec 16) => bytesOf w (laneOn s f) mask
      ∧ t.hereCore.pend = s.hereCore.pend ++ [{ due := s.hereCore.turn + 4, slot := s.curSlot, dest := d, data := v, mask := mask }]
    (∀ off : Nat → Nat, s.canonHere = true → (∀ c : BitVec 5, c ∈ vectorFields f → c.toNat < 16 ∨ 24 ≤ c.toNat) → (∀ j ∈ pointerFields f, pointerGood s f j (off j)) →
      let value := fun j => let c := (vectorFields f).getD j 0
        if c.toNat < 16 then at_ c else inSp (off j)
      let banks := (pointerFields f).map fun j => off j / 16 % 3
      let more := banks.length - (List.range 3).countP fun b => banks.contains b
      ∃ t v mask, exec (p.1 f) s = .next t ∧ s.StoresHere t (workspaceAt s 512) 64 ∧ s.IssuedTo t (s.here.pc + 12)
        ∧ writes t (if f.d.toNat < 16 then .reg s.curSlot (256 + 16 * f.d.toNat) else .scratch (off 3)) v mask
        ∧ result (value 0) (value 1) (value 2) v
        ∧ (∀ n, n < 8 → t.preg s.curCid s.curSlot n
            = s.preg s.curCid s.curSlot n + BitVec.ofNat 64 (16 * (vectorFields f).countP fun (c : BitVec 5) => c.toNat == 24 + n))
        ∧ t.hereCore.stretch = more ∧ t.hereCore.bankstall = s.hereCore.bankstall + BitVec.ofNat 64 more)
    ∧ (∀ (n : Nat) (l : Loc), s.canonHere = true → n < 8 → s.quietReg (512 + 8 * n) = true →
      (f.d.toNat = 24 + n → f.a.toNat < 16 → f.b.toNat < 16 → f.c.toNat < 16 →
        (∀ x, s.trapOfAccess (s.preg s.curCid s.curSlot n) 16 .store = some x →
          exec (p.1 f) s = .next (s.trapHere (p.1 f) { x with use := 4 }))
        ∧ (s.placeOf (s.preg s.curCid s.curSlot n) 16 .store = some l → l.home ≠ .scratch s.curCid →
          ∃ t v mask, exec (p.1 f) s = .next t ∧ writes t (.send s.serial) v mask ∧ result (at_ f.a) (at_ f.b) (at_ f.c) v
            ∧ s.WaitsAt t (s.here.pc + 12) (if 64 ≤ s.ustore s.here.serial then .ustore else .ready) ∧ t.here.own = true
            ∧ t.ustore s.here.serial = s.ustore s.here.serial + 1 ∧ t.preg s.curCid s.curSlot n = s.preg s.curCid s.curSlot n + 16
            ∧ s.Sends t fun m => s.isFromHere m (s.preg s.curCid s.curSlot n) l 16 ∧ m.kind = .store ∧ m.sent = false))
      ∧ (f.a.toNat = 24 + n → f.b.toNat < 16 → f.c.toNat < 16 → f.d.toNat < 16 → s.placeOf (s.preg s.curCid s.curSlot n) 16 .load = some l →
        l.home ≠ .scratch s.curCid → l.home.isNode = false →
        ∃ t v, exec (p.1 f) s = .next t ∧ s.WaitsAt t (s.here.pc + 12) (.gather (p.1 f) [(s.serial, 1)] v (.q f.d.toNat)) ∧ t.here.own = true
          ∧ t.hereCore.pend = s.hereCore.pend ∧ (f.b ≠ 0 → v.b = s.hereQ f.b) ∧ (f.c ≠ 0 → v.c = s.hereQ f.c)
          ∧ (∀ j, j < 16 → v.lanes.getLsbD j = laneOn s f j) ∧ t.preg s.curCid s.curSlot n = s.preg s.curCid s.curSlot n + 16
          ∧ s.Sends t fun m => s.isFromHere m (s.preg s.curCid s.curSlot n) l 16 ∧ m.kind = .pointer 1))
    ∧ ∀ n, n < 4 → f.b.toNat < 16 → f.c.toNat < 16 →
      (f.a.toNat = 16 + n → f.d.toNat < 16 →
        (tfind s.hereCore.streams n = none →
          exec (p.1 f) s = .next (s.trapHere (p.1 f) { cause := .channel, tval := BitVec.ofNat 64 (16 + n), use := 1 }))
        ∧ ∀ q, tfind s.hereCore.streams n = some q → q.write = false →
          (q.addr? q.pos = none → q.ahead = [] →
            exec (p.1 f) s = .next (s.trapHere (p.1 f) { cause := .channel, tval := BitVec.ofNat 64 (16 + n), use := 1 }))
          ∧ ∀ va, q.addr? q.pos = some va →
            let takes := fun (a : Nat → Int) => ∃ t v mask q', exec (p.1 f) s = .next t ∧ OnlyPorts s t n ∧ s.IssuedTo t (s.here.pc + 12)
              ∧ writes t (.reg s.curSlot (256 + 16 * f.d.toNat)) v mask ∧ result a (at_ f.b) (at_ f.c) v
              ∧ tfind t.hereCore.streams n = some q' ∧ q'.pos = q.pos + 1 ∧ q'.base = q.base ∧ q'.dims = q.dims ∧ q'.write = false
              ∧ q.ahead.tail <+: q'.ahead
            (∀ x, q.ahead.head? = some (.word x) → takes fun j => laneInt f.et.toNat (laneOf w x j))
            ∧ (∀ off, q.ahead.head? = some .here → s.ownRange va 16 false off → State.ownScratch s.curCid q.home va = true → takes (inSp off))
            ∧ ∀ x, q.ahead.head? = some (.failed x) →
              exec (p.1 f) s = .next (((s.logMemerr { x with use := 1 }).refetchFailed (uses (p.1 f))).trapHere (p.1 f) { x with use := 1 }))
      ∧ (f.a.toNat < 16 → f.d.toNat = 16 + n → ∀ q va, tfind s.hereCore.streams n = some q → q.write = true → q.addr? q.pos = some va →
        (∀ off, s.ownRange va 16 true off →
          ∃ t v mask, exec (p.1 f) s = .next t ∧ OnlyPorts s t n ∧ s.IssuedTo t (s.here.pc + 12) ∧ writes t (.stream n off) v mask
            ∧ result (at_ f.a) (at_ f.b) (at_ f.c) v
            ∧ tfind t.hereCore.streams n = some { q with pos := q.pos + 1, pending := q.pending + 1 })
        ∧ ∀ l, s.placeOf va 16 .store = some l → l.home ≠ .scratch s.curCid → q.unacked < 8 →
          ∃ t v mask, exec (p.1 f) s = .next t ∧ writes t (.send s.serial) v mask ∧ result (at_ f.a) (at_ f.b) (at_ f.c) v
            ∧ s.WaitsAt t (s.here.pc + 12) (if 64 ≤ s.ustore s.here.serial then .ustore else .ready)
            ∧ tfind t.hereCore.streams n = some { q with pos := q.pos + 1, unacked := q.unacked + 1 }
            ∧ s.Sends t fun m => s.isFromHere m va l 16 ∧ m.kind = .store ∧ m.sent = false ∧ m.port = some n)

/-- R121, R123: a special function is queued at the SFU of its cluster with its inputs as they are at issue, and its context is
parked.
R122: the special values of the functions, and the exact results of SEXP2 and SLOG2. -/
def Obligations.SpecialFunctions : Prop :=
  (∀ p ∈ specialFunctions, ∀ (f : XF) (s : State), s.admits (p f) = true → s.sound = true → f.a.toNat < 16 → f.d.toNat < 16 →
    ∃ t r, exec (p f) s = .next t ∧ s.WaitsAt t (s.here.pc + 12) (.sfu s.serial)
      ∧ s.Changes t (fun u => { u with clusters := [], serial := 0 }) id
      ∧ (∀ k, k ≠ s.curCid / 4 → t.cluster k = s.cluster k)
      ∧ { t.cluster (s.curCid / 4) with sfu := [] } = { s.cluster (s.curCid / 4) with sfu := [] }
      ∧ (t.cluster (s.curCid / 4)).sfu = (s.cluster (s.curCid / 4)).sfu ++ [r]
      ∧ r.id = s.serial ∧ r.cid = s.curCid ∧ r.slot = s.curSlot ∧ r.serial = s.here.serial ∧ r.cycle = s.cycle ∧ r.ins = p f
      ∧ r.dest = .q f.d.toNat ∧ r.inputs.a = s.hereQ f.a
      ∧ ∀ j, j < 16 → r.inputs.lanes.getLsbD j = laneOn s f j)
  ∧ ((∀ n e, Sfu.rcp (.fin n 0 e) = (if n then 0xFF800000 else 0x7F800000)) ∧ (∀ n, Sfu.rcp (.inf n) = if n then 0x80000000 else 0)
  ∧ (∀ n e, Sfu.rsq (.fin n 0 e) = (if n then 0xFF800000 else 0x7F800000)) ∧ Sfu.rsq (.inf false) = 0
  ∧ (∀ m e, 0 < m → Sfu.rsq (.fin true m e) = 0x7FC00000) ∧ Sfu.rsq (.inf true) = 0x7FC00000
  ∧ Sfu.exp2 (.inf true) = 0 ∧ Sfu.exp2 (.inf false) = 0x7F800000 ∧ (∀ m j, 128 ≤ m → Sfu.exp2 (scaled false m j) = 0x7F800000)
  ∧ (∀ m j, m ≤ 127 → isExactly (decodeF f32 (Sfu.exp2 (scaled false m j))) (2 ^ (149 + m)))
  ∧ (∀ m j, m ≤ 149 → isExactly (decodeF f32 (Sfu.exp2 (scaled true m j))) (2 ^ (149 - m)))
  ∧ (∀ n e, Sfu.log2 (.fin n 0 e) = 0xFF800000) ∧ Sfu.log2 (.inf false) = 0x7F800000 ∧ (∀ m e, 0 < m → Sfu.log2 (.fin true m e) = 0x7FC00000)
  ∧ (∀ j, Sfu.log2 (scaled false 1 j) = 0)
  ∧ (∀ (k : Nat) (e : Int), -149 ≤ e + k → e + k ≤ 127 → isExactly (decodeF f32 (Sfu.log2 (.fin false (2 ^ k) e))) ((e + k) * 2 ^ 149))
  ∧ (∀ n, Sfu.sinPi (.inf n) = 0x7FC00000) ∧ (∀ n, Sfu.cosPi (.inf n) = 0x7FC00000)
  ∧ (∀ n m j, Sfu.sinPi (scaled n m j) = if n then 0x80000000 else 0)
  ∧ (∀ n m j, Sfu.cosPi (scaled n m j) = if m % 2 = 0 then 0x3F800000 else 0xBF800000)
  ∧ (∀ (n : Bool) (k j : Nat), Sfu.sinPi (.fin n ((2 * k + 1) * 2 ^ j) (-(j : Int) - 1)) = if (k % 2 == 1) == n then 0x3F800000 else 0xBF800000)
  ∧ (∀ (n : Bool) (k j : Nat), Sfu.cosPi (.fin n ((2 * k + 1) * 2 ^ j) (-(j : Int) - 1)) = 0)
  ∧ (∀ n e, Sfu.tanh (.fin n 0 e) = if n then 0x80000000 else 0) ∧ (∀ n, Sfu.tanh (.inf n) = if n then 0xBF800000 else 0x3F800000)
  ∧ Sfu.sigmoid (.inf true) = 0 ∧ Sfu.sigmoid (.inf false) = 0x3F800000 ∧ (∀ n e, Sfu.sigmoid (.fin n 0 e) = 0x3F000000)
  ∧ ∀ f ∈ [Sfu.rcp, Sfu.rsq, Sfu.exp2, Sfu.log2, Sfu.sinPi, Sfu.cosPi, Sfu.tanh, Sfu.sigmoid], f .nan = 0x7FC00000)

/-- R121 to R123: of the requests that are not served the oldest is served once the unit is free, by issuing cycle and then by CID, and
24 cycles later the lanes that are on take their results and the context goes on. What these
rules leave open is read as in log 13, the model's own choices. -/
def Obligations.SpecialFunctionService : Prop :=
  (∀ (s : State) (r : SfuReq), s.obj.b = 0 → r ∈ (s.cluster s.obj.a).sfu → r.served = false →
    (∀ q ∈ (s.cluster s.obj.a).sfu, q.served = false → q = r ∨ r.cycle < q.cycle ∨ (r.cycle = q.cycle ∧ r.cid < q.cid)) → r.cycle < s.cycle → (s.cluster s.obj.a).sfuFree ≤ s.cycle → r.ins.major = 0x1E →
    ∃ t, exec .sfuServiceStart s = .next t ∧ s.KeepsBytes t
      ∧ { due := .cycle (s.cycle + 24), rank := rankOf r.cid, ins := .sfuCompletion, obj := { a := s.obj.a, b := r.id } } ∈ t.agenda
      ∧ (t.cluster s.obj.a).sfuFree = s.cycle + sfuOccupancy r.ins)
  ∧ (∀ (f : XF), f.et.toNat = 9 → sfuOccupancy (.srcp f) = 1) ∧ (∀ (f : XF), f.et.toNat = 10 → sfuOccupancy (.srcp f) = 2)
  ∧ ∀ (s : State) (r : SfuReq) (n : Nat), (s.cluster s.obj.a).sfu.find? (fun x => x.id == s.obj.b) = some r → r.ins.major = 0x1E →
    r.trap = none → r.clamped = false → r.dest = .q n → n < 16 → s.sound = true → (s.core r.cid).sp.wf = true →
    (s.slot r.cid r.slot).guest = false → (s.slot r.cid r.slot).live = true → (s.slot r.cid r.slot).serial = r.serial →
    (s.slot r.cid r.slot).wait = .sfu r.id → s.ustore r.serial ≤ 64 → (s.core r.cid).idleAt ≠ some s.cycle →
    s.unwatched (.scratch r.cid) (r.slot * 1024 + 256 + 16 * n) 16 = true → (∀ g, s.group? (s.core r.cid).gid = some g → g.state = .running) →
    ∃ t, exec .sfuCompletion s = .next t ∧ (t.slot r.cid r.slot).wait = .ready ∧ (t.slot r.cid r.slot).own = true
      ∧ t.mem = s.mem
      ∧ (∀ k, k < 16 → t.spByte r.cid (r.slot * 1024 + 256 + 16 * n + k)
          = if (vEval r.ins r.inputs).mask.getLsbD k then (vEval r.ins r.inputs).data.extractLsb' (8 * k) 8
            else s.spByte r.cid (r.slot * 1024 + 256 + 16 * n + k))
      ∧ ∀ a, a < r.slot * 1024 + 256 + 16 * n ∨ r.slot * 1024 + 272 + 16 * n ≤ a → t.spByte r.cid a = s.spByte r.cid a

/-- R115 to R117: STBIND binds a port to the words of a last, a bound one once its writes are done, and STEND unbinds it, after the
writes of a write stream. -/
def Obligations.StreamBinding : Prop :=
  (∀ (f : XF) (s : State), s.admits (.stbind f) = true → s.here.wait = .ready → s.sound = true → f.a.toNat < 28 → 16 ≤ f.d.toNat →
    f.d.toNat < 20 → s.scratchLocked s.curCid (0x4000 + 64 * (f.aux32.toNat % 64)) 64 false = false →
    let l := lastHere s (f.aux32.toNat % 64)
    let port := f.d.toNat - 16
    (l.valid = false → exec (.stbind f) s = trapOnly (.stbind f) s .shape (BitVec.ofNat 64 (f.aux32.toNat % 64)))
    ∧ (plainStream l (s.hereW f.a) → (∀ q, tfind s.hereCore.streams port = some q → q.write = true → q.unacked = 0 ∧ q.pending = 0) →
      ∃ t p, exec (.stbind f) s = .next t ∧ s.Changes t id (fun c => { c with streams := [] }) ∧ s.IssuedTo t (s.here.pc + 12)
        ∧ tfind t.hereCore.streams port = some p ∧ (∀ k, k ≠ port → tfind t.hereCore.streams k = tfind s.hereCore.streams k)
        ∧ p.write = f.aux8.getLsbD 0 ∧ p.pos = 0 ∧ p.ahead = [] ∧ p.unacked = 0 ∧ p.pending = 0
        ∧ p.total = l.extent 0 * elementBits l.etype / 128
        ∧ ∀ k, k < p.total → p.addr? k = some ((if s.hereW f.a = 0 then l.base else s.hereW f.a) + BitVec.ofNat 64 (16 * k)))
    ∧ ∀ q, plainStream l (s.hereW f.a) → tfind s.hereCore.streams port = some q → q.write = true → 0 < q.unacked ∨ 0 < q.pending →
      ∃ t p, exec (.stbind f) s = .next t ∧ s.OnlyIssue t ∧ s.WaitsAt t (s.here.pc + 12) (.stend port (some p))
        ∧ p.write = f.aux8.getLsbD 0 ∧ p.base = (if s.hereW f.a = 0 then l.base else s.hereW f.a))
  ∧ ∀ (f : XF) (s : State), s.admits (.stend f) = true → s.here.wait = .ready → 16 ≤ f.d.toNat → f.d.toNat < 20 →
    (tfind s.hereCore.streams (f.d.toNat - 16) = none → exec (.stend f) s = trapOnly (.stend f) s .channel (BitVec.ofNat 64 f.d.toNat))
    ∧ ∀ p, tfind s.hereCore.streams (f.d.toNat - 16) = some p →
      (p.write = false ∨ (p.unacked = 0 ∧ p.pending = 0) →
        ∃ t, exec (.stend f) s = .next t ∧ s.Changes t id (fun c => { c with streams := [] }) ∧ s.IssuedTo t (s.here.pc + 12)
          ∧ tfind t.hereCore.streams (f.d.toNat - 16) = none
          ∧ ∀ k, k ≠ f.d.toNat - 16 → tfind t.hereCore.streams k = tfind s.hereCore.streams k)
      ∧ (p.write = true → 0 < p.unacked ∨ 0 < p.pending →
        ∃ t, exec (.stend f) s = .next t ∧ s.OnlyIssue t ∧ s.WaitsAt t (s.here.pc + 12) (.stend (f.d.toNat - 16) none))

/-- R118, R120: CHBIND binds a channel to a core of the region, with the group that it runs; CHEND unbinds it once its outbound
queue has drained, and waits until then.
R119: an inbound word that CHEND discards sets the error bit of the own node of the context that pushed it.
What these rules leave open is read as in log 45, the model's own choices. -/
def Obligations.ChannelBinding : Prop :=
  (∀ (f : XF) (s : State), s.admits (.chbind f) = true → s.here.wait = .ready → s.sound = true → f.a.toNat < 28 → 28 ≤ f.d.toNat →
    let a := s.hereW f.a
    let target := a.toNat % 2048
    (a &&& ~~~ 0x37FF ≠ 0 → exec (.chbind f) s = trapOnly (.chbind f) s .channel a)
    ∧ (a &&& ~~~ 0x37FF = 0 → s.livePitch target s.here.region = false → exec (.chbind f) s = trapOnly (.chbind f) s .peerGone a)
    ∧ (a &&& ~~~ 0x37FF = 0 → s.livePitch target s.here.region = true → (s.chan s.curCid (f.d.toNat - 28)).bound = none →
        (s.chan s.curCid (f.d.toNat - 28)).out = [] →
      ∃ t, exec (.chbind f) s = .next t ∧ s.Changes t id (fun c => { c with chans := [] }) ∧ s.IssuedTo t (s.here.pc + 12)
        ∧ (t.chan s.curCid (f.d.toNat - 28)).bound = some { cid := target, remote := a.toNat / 4096 % 4, gid := (s.core target).gid }
        ∧ (t.chan s.curCid (f.d.toNat - 28)).inq = (s.chan s.curCid (f.d.toNat - 28)).inq
        ∧ ∀ k, k ≠ f.d.toNat - 28 → t.chan s.curCid k = s.chan s.curCid k))
  ∧ ∀ (f : XF) (s : State), s.admits (.chend f) = true → s.here.wait = .ready → 28 ≤ f.d.toNat →
    let c := s.chan s.curCid (f.d.toNat - 28)
    (c.bound = none → exec (.chend f) s = trapOnly (.chend f) s .channel (BitVec.ofNat 64 f.d.toNat))
    ∧ (c.bound.isSome = true → c.out = [] → c.flight = [] → (∀ i n d, (s.slot s.curCid i).wait ≠ .handle n d) →
      ∃ t, exec (.chend f) s = .next t ∧ s.IssuedTo t (s.here.pc + 12) ∧ s.KeepsBytes t
        ∧ (t.chan s.curCid (f.d.toNat - 28)).bound = none ∧ (t.chan s.curCid (f.d.toNat - 28)).inq = []
        ∧ ∀ w ∈ c.inq, ∀ k i, w.serial ≠ 0 → s.ownerOf w.cid w.slot w.serial = some (k, i) → (s.slot k i).wait = .ready → s.node < 1024 →
            (t.slot k i).perr.getLsbD s.node = true)
    ∧ (c.bound.isSome = true → c.out ≠ [] ∨ c.flight ≠ [] →
      ∃ t, exec (.chend f) s = .next t ∧ s.OnlyIssue t ∧ s.WaitsAt t (s.here.pc + 12) (.chend (f.d.toNat - 28) none))

/-- R20, R22, R117: at its turn a fixed-latency result is written: the bytes of its mask, in a workspace or in the own scratchpad,
and no others, of a write stream with one write less to wait for.
R102, R107: a store set aside leaves with its result, or is withdrawn where no lane is on, which the spec says of VST alone (log 54). -/
def Obligations.FixedLatencyWrites : Prop :=
  ∀ (s : State) (p : Pend) (rest : List Pend), let cid := s.obj.a
    s.sound = true → (s.core cid).sp.wf = true → s.Settled cid → (s.core cid).pend = p :: rest →
    p.due ≤ (s.core cid).turnAt s.cycle → (∀ q ∈ rest, (s.core cid).turnAt s.cycle < q.due) →
    (∀ i off, p.dest = .reg i off → (s.slot cid i).guest = false → (s.slot cid i).again = false →
        s.unwatched (.scratch cid) (i * 1024 + off) 16 = true →
      ∃ t, exec .fixedLatencyWrite s = .next t ∧ (t.core cid).pend = rest ∧ t.mem = s.mem
        ∧ (∀ c, c ≠ cid → t.core c = s.core c)
        ∧ (∀ k, k < 16 → t.spByte cid (i * 1024 + off + k)
            = if p.mask.getLsbD k then p.data.extractLsb' (8 * k) 8 else s.spByte cid (i * 1024 + off + k))
        ∧ ∀ a, a < i * 1024 + off ∨ i * 1024 + off + 16 ≤ a → t.spByte cid a = s.spByte cid a)
    ∧ (∀ off, p.dest = .scratch off ∨ (∃ port, p.dest = .stream port off) → s.unwritten cid off 16 = true → s.unwatched (.scratch cid) off 16 = true →
      ∃ t, exec .fixedLatencyWrite s = .next t ∧ (t.core cid).pend = rest ∧ t.mem = s.mem
        ∧ (∀ c, c ≠ cid → t.core c = s.core c)
        ∧ (∀ k, k < 16 → t.spByte cid (off + k) = if p.mask.getLsbD k then p.data.extractLsb' (8 * k) 8 else s.spByte cid (off + k))
        ∧ (∀ a, a < off ∨ off + 16 ≤ a → t.spByte cid a = s.spByte cid a)
        ∧ ∀ port q, tfind (s.core cid).streams port = some q → tfind (t.core cid).streams port
            = some (if p.dest = .stream port off ∧ q.write = true then { q with pending := q.pending - 1 } else q))
    ∧ ∀ id m, p.dest = .send id → s.msg? id = some m → (∀ x ∈ s.net, x.id = id → x = m) → m.kind = .store → m.cid = cid → m.port = none →
        (s.slot cid m.slot).live = true → (s.slot cid m.slot).serial = m.serial →
      ∃ t, exec .fixedLatencyWrite s = .next t ∧ (t.core cid).pend = rest ∧ s.KeepsBytes t
        ∧ (p.mask ≠ 0 → ∃ x ∈ t.net, x.id = id ∧ x.loc = m.loc ∧ x.sent = true ∧ x.data = p.data ∧ x.mask = p.mask)
        ∧ (p.mask = 0 → t.msg? id = none)

/-- R82, R83, R86, R95, R235: at its home a load reads, a store writes its bytes and no others, and an AMO does both as one
access; a store that is refused there writes nothing and sets the error bit of the own node. -/
def Obligations.HomeAccesses : Prop :=
  ∀ (s : State) (m : Msg), stepMessage s m → s.sound = true → m.units = [] → m.bytes = [] → m.size ≤ 16 → m.loc.tier = false →
    (m.kind = .load → s.homeRefuses m m.size false = none → (∀ x ∈ s.net, x.kind ≠ .store) →
      ∃ t, exec .homeAccess s = .next t ∧ s.KeepsBytes t
        ∧ ∃ x ∈ t.net, x.id = m.id ∧ x.performed = true ∧ x.resp = some (.value (BitVec.ofNat 128 (leNat (s.readLoc m.loc m.size)))))
    ∧ (∀ h, m.kind = .store → m.loc.home = .scratch h → s.homeRefuses m m.size true = none → (s.core h).sp.wf = true →
        s.unwritten h m.loc.addr m.size = true → s.unwatched m.loc.home m.loc.addr m.size = true →
      ∃ t, exec .homeAccess s = .next t ∧ t.mem = s.mem ∧ (∀ c, c ≠ h → (t.core c).sp = (s.core c).sp)
        ∧ (∀ k, k < m.size → t.spByte h (m.loc.addr + k) = if m.mask.getLsbD k then carriedByte m k else s.spByte h (m.loc.addr + k))
        ∧ ∀ a, a < m.loc.addr ∨ m.loc.addr + m.size ≤ a → t.spByte h a = s.spByte h a)
    ∧ (∀ g, m.kind = .store → m.loc.home = .slice g → s.mem.wf = true → s.unwatched m.loc.home m.loc.addr m.size = true →
      ∃ t, exec .homeAccess s = .next t ∧ (∀ c, (t.core c).sp = (s.core c).sp)
        ∧ (∀ k, k < m.size → t.memByte (m.loc.addr + k) = if m.mask.getLsbD k then carriedByte m k else s.memByte (m.loc.addr + k))
        ∧ ∀ a, a < m.loc.addr ∨ m.loc.addr + m.size ≤ a → t.memByte a = s.memByte a)
    ∧ (∀ c i, m.kind = .store → (s.homeRefuses m m.size true).isSome = true → s.ownerOf m.cid m.slot m.serial = some (c, i) →
        (s.slot c i).wait = .ready → s.node < 1024 →
      ∃ t, exec .homeAccess s = .next t ∧ s.KeepsBytes t ∧ (t.slot c i).perr = (s.slot c i).perr ||| BitVec.twoPow 1024 s.node)
    ∧ ∀ g (ins : Instr) (f : AF) (op : Nat) (new : Word → Word → Word → Option Word), amoOf ins = some (f, op, new) →
        m.kind = .amo op → m.loc.home = .slice g → s.mem.wf = true → s.unwatched m.loc.home m.loc.addr 8 = true →
      let old := BitVec.ofNat 64 (leNat (s.readLoc m.loc 8))
      ∃ t, exec .homeAccess s = .next t ∧ (∀ c, (t.core c).sp = (s.core c).sp)
        ∧ (∃ x ∈ t.net, x.id = m.id ∧ x.performed = true ∧ x.resp = some (.value (old.setWidth 128)))
        ∧ BitVec.ofNat 64 (leNat (t.readLoc m.loc 8)) = (new old (m.data.setWidth 64) m.expect).getD old
        ∧ ∀ a, a < m.loc.addr ∨ m.loc.addr + 8 ≤ a → t.memByte a = s.memByte a

/-- R23, R26, R85, R89, R130: a response gives its value to the register and makes its context ready, or its trap is taken; an
acknowledgement lowers USTORE by one; a filled line enters the L1 unless it was invalidated meanwhile; the end of an MXLDW
replaces the shadow plane. Which set of the L1 a line takes, and how many lines a set holds, is the model's choice (log 8). -/
def Obligations.ResponsesTaken : Prop :=
  (∀ (s : State) (m : Msg) (v : BitVec 128) (i off : Nat), stepMessage s m → m.kind = .load → m.resp = some (.value v) → m.acq = false →
    m.size ∈ [1, 2, 4, 8] → m.dest = .reg i off → i = m.slot → (s.slot m.cid i).live = true → (s.slot m.cid i).serial = m.serial →
    (s.slot m.cid i).wait = .result m.id → (s.slot m.cid i).guest = false → (s.core m.cid).sp.wf = true → s.sound = true →
    s.unwatched (.scratch m.cid) (i * 1024 + off) 16 = true →
    ∃ t, exec .interlockedResult s = .next t ∧ (t.slot m.cid i).wait = .ready ∧ (t.slot m.cid i).own = true ∧ t.mem = s.mem
      ∧ t.word64 m.cid i off = (if m.signed then BitVec.ofInt 64 (Int.bmod v.toNat (2 ^ (8 * m.size))) else BitVec.ofNat 64 v.toNat)
      ∧ ∀ a, a < i * 1024 + off ∨ i * 1024 + off + 8 ≤ a → t.spByte m.cid a = s.spByte m.cid a)
  ∧ (∀ (s : State) (m : Msg) (x : TrapInfo), stepMessage s m → m.kind = .load → m.resp = some (.trap x) →
    (s.slot m.cid m.slot).live = true → (s.slot m.cid m.slot).serial = m.serial → (s.slot m.cid m.slot).wait = .result m.id →
    exec .interlockedResult s = .next ((s.dropMsg m.id).trapWaiting m.cid m.slot x))
  ∧ (∀ (s : State) (m : Msg), stepMessage s m → m.kind = .store → m.port = none → s.Settled m.cid →
    (s.slot m.cid m.slot).live = true → (s.slot m.cid m.slot).serial = m.serial →
    ∃ t, exec .storeAck s = .next t ∧ s.KeepsBytes t ∧ t.ustore m.serial + 1 = s.ustore m.serial)
  ∧ (∀ (s : State) (m : Msg) (f : XF) (g : Group) (e : Nat), stepMessage s m → m.kind = .instr → m.ins = .mxldw f → (s.slot m.cid m.slot).live = true →
    (s.slot m.cid m.slot).serial = m.serial → (s.slot m.cid m.slot).wait = .engine m.id → s.sound = true → s.groupOf m.cid = some g → engineOf g.pitch f.d.toNat = some e →
    let n := if f.et = 10 ∨ f.et = 11 then 64 else if f.et = 14 then 16 else 32
    let old := s.engine (clusterOf m.cid) e
    ∃ t, exec .interlockedResult s = .next t ∧ s.KeepsBytes t ∧ (t.slot m.cid m.slot).wait = .ready
      ∧ let new := t.engine (clusterOf m.cid) e
        new.active = old.active ∧ new.cb = old.cb ∧ new.shadow.tag = f.et.toNat ∧ new.shadow.mx = (if f.et = 15 then f.aux8.toNat else 0)
          ∧ ∀ k, k < 64 → tget new.shadow.rows k 0 = BitVec.ofNat 512 (leNat ((m.bytes.drop (n * k)).take n)))
  ∧ ∀ (s : State) (m : Msg) (d : BitVec 1024), stepMessage s m → m.kind = .fill → m.line = some d →
    ∃ t, exec .l1Fill s = .next t ∧ s.KeepsBytes t
      ∧ (m.keepLine = true → (((s.core m.cid).l1.filter fun l => l.pa != m.loc.pa / 128 * 128 && l.pa / 128 % 256 == m.loc.pa / 128 % 256).length < 12) →
          t.l1Get m.cid m.loc.pa = some d)
      ∧ (m.keepLine = false → (t.core m.cid).l1 = (s.core m.cid).l1)

/-- R116, R119, R221: a read stream fetches its next word, a channel word enters a bound inbound queue; at a queue that is not bound, or
on a core of another group than at the binding, it is discarded, with the error bit of the own node of the context that pushed it; and
a credit tells the sender of a free place. What these rules leave open is read as in log 45, the
model's own choices. -/
def Obligations.WordsOnTheirWay : Prop :=
  (∀ (s : State) (p : Stream), tfind (s.core s.obj.a).streams s.obj.b = some p → p.write = true ∨ 8 ≤ p.ahead.length →
    exec .streamPrefetch s = .next s)
  ∧ (∀ (s : State) (p : Stream) (va : Word) (l : Loc), tfind (s.core s.obj.a).streams s.obj.b = some p → p.write = false →
    p.ahead.length < 8 → p.addr? (p.pos + p.ahead.length) = some va → State.ownScratch s.obj.a p.home va = false →
    (checkAccess s s.obj.a (s.streamSlot s.obj.a p) va 16 0 .engineRead).toOption.map (·.1) = some l →
    ∃ t q, exec .streamPrefetch s = .next t ∧ s.KeepsBytes t ∧ tfind (t.core s.obj.a).streams s.obj.b = some q
      ∧ q.ahead = p.ahead ++ [.coming s.serial]
      ∧ ∃ m ∈ t.net, m.id = s.serial ∧ m.kind = .stream s.obj.b ∧ m.va = va ∧ m.loc = l ∧ m.size = 16)
  ∧ (∀ (s : State) (b : Binding) (w : OutWord) (rest : List OutWord) (v : Word), (s.chan s.obj.a s.obj.b).bound = some b →
    (s.chan s.obj.a s.obj.b).binds = s.obj.c → (s.chan s.obj.a s.obj.b).flight = w :: rest → w.word = some v → s.Settled s.obj.a →
    (s.core b.cid).gid = b.gid → (s.chan b.cid b.remote).bound.isSome = true → s.senders b.cid b.remote = [(s.obj.a, s.obj.b)] →
    (s.chan s.obj.a s.obj.b).out = [] →
    ∃ t, exec .channelWordDelivery s = .next t ∧ s.KeepsBytes t ∧ (t.chan s.obj.a s.obj.b).flight = rest
      ∧ (t.chan b.cid b.remote).inq = (s.chan b.cid b.remote).inq ++ [{ word := v, cid := w.cid, slot := w.slot, serial := w.serial }])
  ∧ (∀ (s : State) (b : Binding) (w : OutWord) (rest : List OutWord) (c i : Nat), (s.chan s.obj.a s.obj.b).bound = some b →
    (s.chan s.obj.a s.obj.b).binds = s.obj.c → (s.chan s.obj.a s.obj.b).flight = w :: rest → s.Settled s.obj.a →
    (s.core b.cid).gid ≠ b.gid ∨ (s.chan b.cid b.remote).bound = none → (s.chan s.obj.a s.obj.b).out = [] →
    w.serial ≠ 0 → s.ownerOf w.cid w.slot w.serial = some (c, i) → (s.slot c i).wait = .ready →
    ∃ t, exec .channelWordDelivery s = .next t ∧ s.KeepsBytes t ∧ (t.chan s.obj.a s.obj.b).flight = rest
      ∧ (t.chan b.cid b.remote).inq = (s.chan b.cid b.remote).inq ∧ (t.slot c i).perr = (s.slot c i).perr ||| BitVec.twoPow 1024 s.node)
  ∧ ∀ (s : State), (s.chan s.obj.a s.obj.b).binds = s.obj.c → (s.chan s.obj.a s.obj.b).out = [] →
    ∃ t, exec .channelCreditReturn s = .next t ∧ s.KeepsBytes t
      ∧ (t.chan s.obj.a s.obj.b).unknown = (s.chan s.obj.a s.obj.b).unknown - 1

/-! ### Encodings and the step -/

/-- R46 to R57: the words that the spec writes out decode to the instructions that it says they are. -/
def Obligations.WrittenWordsDecode : Prop :=
  (∀ p ∈ writtenWords, decode p.1 = some p.2 ∧ decodeBytes (p.1.flatMap bytesOfWord) = some p.2)
    ∧ ∀ ws ∈ reservedWords, decode ws = none

/-- R46 to R57: the bytes of every well-formed instruction decode to it, whatever stands behind them. -/
def Obligations.DecodeOfEncode : Prop :=
  ∀ (i : Instr) (rest : List Byte), i.wf = true →
    decodeBytes ((encode i).flatMap bytesOfWord ++ rest) = some i ∧ (encode i).length = wordCount ((encode i).headD 0)

/-- R46, R58: words that decode are the words of one well-formed instruction, so that no bit is left unread. -/
def Obligations.EncodeOfDecode : Prop :=
  ∀ (ws : List W32) (i : Instr), decode ws = some i → i.wf = true ∧ encode i = ws

/-- R15, R59: in the turn of a ready context whose code at PC holds the words of a well-formed instruction, a step is exec of
that instruction for that context, and the end of the turn.
R210, R211: a turn that its slot does not use goes to the first slot after it that may use it, and LENTOUT and LENTIN count it; a turn
that none uses is idle.
A step of the agenda that comes first is exec of its instruction, where of steps of one cycle the order is the model's reading (log 13);
that a stopped module has no step until its reset is too (log 51). -/
def Obligations.StepRunsDecodedInstruction : Prop :=
  (∀ (s : State) (cid : Nat) (k : Nat × Nat) (ins : Instr), nextTurnOf s cid k → s.sound = true → ins.wf = true →
    let i := (s.core cid).turn % 16
    let u := (s.advanceTo k.1).startFetches cid i
    (canIssue u cid i ins →
      ∃ v, offL2 v = offL2 u ∧ step s = issued cid (exec ins { v with curCid := cid, curSlot := i, lender := none }))
    ∧ (u.offer cid i = none → u.lends cid i = true →
      (∀ pre j post, State.slotsAfter i = pre ++ j :: post → noneBorrows u cid pre → u.borrows cid j = true → canIssue u cid j ins →
        ∃ v w, offL2 v = offL2 u ∧ w = v.countLent cid i j
          ∧ step s = issued cid (exec ins { w with curCid := cid, curSlot := j, lender := some i })
          ∧ (∀ n, tget (w.core cid).lentIn n 0 = tget (u.core cid).lentIn n 0 + if n = j then 1 else 0)
          ∧ (∀ n, tget (w.core cid).lentOut n 0 = tget (u.core cid).lentOut n 0 + if n = i then 1 else 0))
      ∧ (noneBorrows u cid (State.slotsAfter i) → step s = .next (u.idleTurn cid)))
    ∧ (u.offer cid i = none → u.lends cid i = false → step s = .next (u.idleTurn cid)))
  ∧ (∀ (s : State) (e : Event) (k : Nat × Nat), nextEventIs s e k →
    step s = exec e.ins { (({ s with agenda := s.agenda.erase e } : State).advanceTo k.1) with obj := e.obj })
  ∧ ∀ (s : State), s.stopped = true → (∀ e ∈ s.agenda, e.ins ≠ .moduleReset) → step s = .fault .moduleStopped

/-- R77, R268, R272, R291, R293: what a module reset leaves: no core runs, nothing is mapped or queued, the control registers hold
their reset values, and boot stage 1 comes next. That the scratchpads read zero and that BANKSTALL and ISSUED do are the model's
choice (log 1 and log 2), and so is the canonical form of its memory (log 2). -/
def Obligations.ResetState : Prop :=
  (∀ cid, (State.reset.core cid).on = false ∧ (State.reset.core cid).vlim = 0x7F800000 ∧ (State.reset.core cid).bankstall = 0
    ∧ (State.reset.core cid).issued = 0 ∧ (∀ a, State.reset.spByte cid a = 0) ∧ ∀ i, (State.reset.slot cid i).live = false)
  ∧ State.reset.regions = [] ∧ State.reset.groups = [] ∧ State.reset.art = [] ∧ State.reset.net = []
  ∧ State.reset.glbase = 0 ∧ State.reset.windows = 0 ∧ State.reset.resyncStat = 0 ∧ State.reset.stopped = false ∧ State.reset.bootStage = 0
  ∧ State.reset.agenda = [{ due := .cycle 1, rank := 0, ins := .bootStage, obj := { a := 1 } }] ∧ canonical State.reset = true

/-- The model's choice (log 2): every step keeps every byte list in canonical form, so that equal memories are equal data. -/
def Obligations.MemoryStaysCanonical : Prop :=
  ∀ (s t : State), canonical s = true → step s = .next t → canonical t = true

/-! ### The gates of an issue, groups and rendezvous points -/

/-- R16, R17, R19, R21, R22, R58, R60, R188, R217: what meets an instruction before its effect: a guest's way home, the hold of its
operands, ILLEGAL in a helper, FEATURE, and STALL_CHECK; a word that is no instruction is ILLEGAL; STALL holds the next
instruction until its distance ends. That the hold of channel and stream operands comes before ILLEGAL, FEATURE and STALL_CHECK is the
model's reading (log 52). -/
def Obligations.IssueGates : Prop :=
  (∀ (ins : Instr) (s : State), ins.wf = true → s.here.late = [] →
    let home := s.here.guest && State.atHomeOnly ins
    let held := s.heldFor s.curCid s.curSlot ins
    (home = true →
      ∃ t, exec ins s = .next t ∧ s.OnlyIssue t ∧ t.here.wait = .goHome none ∧ t.here.pc = s.here.pc ∧ t.hereCore.issued = s.hereCore.issued
        ∧ { due := .cycle s.cycle, rank := rankOf s.curCid, ins := .guestReturn, obj := { a := s.curCid, b := s.curSlot } } ∈ t.agenda)
    ∧ (home = false → held = true → exec ins s = .next s)
    ∧ (home = false → held = false → s.here.idx = 0 → (rndHere s).toNat % 8 < 6 →
      (s.hereCore.feat.getLsbD ins.feature = false → exec ins s = trapOnly ins s .feature (BitVec.ofNat 64 ins.feature))
      ∧ (s.hereCore.feat.getLsbD ins.feature = true → s.here.mode.sbchk = true →
          ∀ off, s.firstAwaited s.curCid s.curSlot (uses ins) = some off → exec ins s = trapOnly ins s .stallCheck (BitVec.ofNat 64 off))))
  ∧ (∀ p ∈ [Instr.start, .startR, .reap, .resole], ∀ (f : XF) (s : State), s.here.late = [] → s.here.guest = false →
    s.heldFor s.curCid s.curSlot (p f) = false → s.here.idx ≠ 0 → exec (p f) s = trapOnly (p f) s .illegal ((word0 (p f)).setWidth 64))
  ∧ (∀ (w : W32) (s : State), s.here.late = [] → exec (.illegalEncoding w) s = trapOnly (.illegalEncoding w) s .illegal (w.setWidth 64))
  ∧ (∀ (f : RF) (s : State), s.admits (.nop f) = true → s.here.wait = .ready →
    let n := s.hereCore.turn + 8 * f.st.toNat
    ∃ t, exec (.nop f) s = .next t ∧ t.here.stall = (if f.st = 0 then none else some n)
      ∧ (f.st ≠ 0 → { due := .turn s.curCid n, rank := rankOf s.curCid, ins := .stallDistanceEnd, obj := { a := s.curCid, b := s.curSlot } } ∈ t.agenda))
  ∧ (∀ (s : State) (cid i n : Nat), (s.slot cid i).stall = some n → (s.core cid).turn < n → s.ready cid i = false)
  ∧ (∀ (s : State) (n : Nat), (s.slot s.obj.a s.obj.b).stall = some n → n ≤ (s.core s.obj.a).turn →
    ∃ t, exec .stallDistanceEnd s = .next t ∧ t.offCore = s.offCore ∧ t.agenda = s.agenda ∧ s.KeepsBytes t
      ∧ t.slot s.obj.a s.obj.b = { s.slot s.obj.a s.obj.b with stall := none })
  ∧ (∀ (f : XF) (s : State), s.admits (.yield f) = true → s.here.wait = .ready →
    let n := s.hereCore.turn + 16 * (f.aux8.toNat + 1)
    ∃ t, exec (.yield f) s = .next t ∧ s.OnlyIssue t ∧ s.IssuedTo t (s.here.pc + 12) ∧ t.hereCore.pend = s.hereCore.pend
      ∧ t.here.yield = (if f.aux8 = 0 then s.here.yield else some n)
      ∧ (f.aux8 ≠ 0 → { due := .turn s.curCid n, rank := rankOf s.curCid, ins := .yieldEnd, obj := { a := s.curCid, b := s.curSlot } } ∈ t.agenda))
  ∧ ∀ (s : State) (n : Nat), (s.slot s.obj.a s.obj.b).yield = some n → n ≤ (s.core s.obj.a).turn →
    ∃ t, exec .yieldEnd s = .next t ∧ t.offCore = s.offCore ∧ t.agenda = s.agenda ∧ s.KeepsBytes t
      ∧ t.slot s.obj.a s.obj.b = { s.slot s.obj.a s.obj.b with yield := none }

/-- R189 to R191: START makes a helper live at its target and REAP waits for its end; EXIT ends a helper, or the part of its core,
and with the last part its group. What these rules leave open is read as in log 21, the model's
own choices. -/
def Obligations.HelpersAndExit : Prop :=
  (∀ (f : XF) (s : State) (g : Group) (ins : Instr) (target : Word), s.groupOf s.curCid = some g → s.here.idx = 0 → s.curSlot = 0 →
    (ins = .start f ∧ target = s.here.pc + 4 * f.aux32.signExtend 64) ∨ (ins = .startR f ∧ target = s.hereW f.b ∧ target.toNat % 4 = 0 ∧ f.b.toNat < 28) →
    s.admits ins = true → s.here.wait = .ready → s.sound = true → f.a.toNat < 28 →
    let i := (s.hereW f.a).toNat
    (i = 0 ∨ g.header.contexts ≤ i ∨ s.contextLive s.curCid i = true → exec ins s = trapOnly ins s .shape (s.hereW f.a))
    ∧ (0 < i → i < g.header.contexts → s.contextLive s.curCid i = false →
      (s.slotTakenByOther s.curCid i = false →
        ∃ t, exec ins s = .next t ∧ s.IssuedTo t (s.here.pc + 12) ∧ t.hereCore.pend = s.hereCore.pend
          ∧ { t.offCore with serial := 0 } = { s.offCore with serial := 0 } ∧ (∀ c, c ≠ s.curCid → t.core c = s.core c)
          ∧ t.hereCore.offTurn = s.hereCore.offTurn ∧ (∀ j, j ≠ 0 → j ≠ i → t.slot s.curCid j = s.slot s.curCid j)
          ∧ (t.slot s.curCid i).live = true ∧ (t.slot s.curCid i).pc = target ∧ (t.slot s.curCid i).wait = .ready ∧ (t.slot s.curCid i).idx = i
          ∧ (t.slot s.curCid i).home = s.curCid ∧ (t.slot s.curCid i).gid = s.here.gid ∧ (t.slot s.curCid i).region = s.here.region
          ∧ (t.slot s.curCid i).mode = s.here.mode)
      ∧ (s.slotTakenByOther s.curCid i = true →
        ∃ t, exec ins s = .next t ∧ s.OnlyIssue t ∧ s.WaitsAt t (s.here.pc + 12) (.start i target))))
  ∧ (∀ (f : XF) (s : State), s.admits (.startR f) = true → s.here.idx = 0 → s.here.wait = .ready → s.sound = true → f.a.toNat < 28 →
    f.b.toNat < 28 → (s.hereW f.b).toNat % 4 ≠ 0 → exec (.startR f) s = trapOnly (.startR f) s .align (s.hereW f.b))
  ∧ (∀ (f : XF) (s : State) (g : Group), s.groupOf s.curCid = some g → s.group? s.here.gid = some g → g.preempt = false → s.here.idx = 0 →
    s.admits (.reap f) = true → s.here.wait = .ready → s.sound = true → f.a.toNat < 28 →
    let i := (s.hereW f.a).toNat
    (i = 0 ∨ g.header.contexts ≤ i → exec (.reap f) s = trapOnly (.reap f) s .shape (s.hereW f.a))
    ∧ (0 < i → i < g.header.contexts →
      ∃ t, exec (.reap f) s = .next t ∧ s.OnlyIssue t ∧ t.hereCore.pend = s.hereCore.pend ∧ t.here.own = true
        ∧ s.WaitsAt t (s.here.pc + 12) (if s.contextLive s.curCid i then .reap i else .ready)))
  ∧ (∀ (f : XF) (s : State), s.admits (.exit f) = true → s.here.wait = .ready → s.here.routine = none → s.here.idx ≠ 0 →
    s.here.home = s.curCid → s.here.idx = s.curSlot → (s.slot s.curCid 0).wait = .ready →
    ∃ t, exec (.exit f) s = .next t ∧ s.KeepsBytes t ∧ t.hereCore.issued = s.hereCore.issued + 1 ∧ t.here.live = false
      ∧ t.here.perr = s.here.perr ∧ (∀ j, j ≠ s.curSlot → t.slot s.curCid j = s.slot s.curCid j) ∧ t.groups = s.groups)
  ∧ ∀ (f : XF) (s : State) (g : Group), s.admits (.exit f) = true → s.here.wait = .ready → s.here.routine = none → s.here.idx = 0 →
    s.here.home = s.curCid → s.here.gid = g.gid → s.groupOf s.curCid = some g → s.group? g.gid = some g → g.heirs = [] → s.here.guest = false →
    s.here.live = true → s.curSlot = 0 →
    ((∃ c ∈ g.pitch, c ≠ s.curCid ∧ c ∉ g.exited) →
      ∃ t, exec (.exit f) s = .next t ∧ s.KeepsBytes t ∧ t.group? g.gid = some { g with exited := g.exited ++ [s.curCid] }
        ∧ t.here.live = false ∧ ∀ c i, (t.slot c i).live = true → (t.slot c i).guest = false → (t.slot c i).gid = g.gid → (t.slot c i).home ≠ s.curCid)
    ∧ ((∀ c ∈ g.pitch, c = s.curCid ∨ c ∈ g.exited) →
      ∃ t, exec (.exit f) s = .next t ∧ (t.group? g.gid).map (·.state) = some .ending
        ∧ ∀ c i, (t.slot c i).live = true → (t.slot c i).guest = false → (t.slot c i).gid ≠ g.gid)

/-- R202 to R205: RDVINIT sets what a point expects and ARRIVE counts one arrival, at issue where the point's home is the own core
and else by a message to it; RDVWAIT waits for the phase. What these rules leave open is read as
in log 53, the model's own choices. -/
def Obligations.RendezvousInstructions : Prop :=
  (∀ (f : XF) (s : State) (g : Group), s.group? s.here.gid = some g → g.gid = s.here.gid → s.admits (.rdvinit f) = true → s.here.wait = .ready →
    s.sound = true → f.a.toNat < 28 →
    let n := (s.hereW f.a).toNat
    let pt := f.aux8.toNat % 32
    let r := g.point pt
    (n = 0 ∨ 65536 ≤ n → exec (.rdvinit f) s = trapOnly (.rdvinit f) s .shape (s.hereW f.a))
    ∧ (1 ≤ n → n < 65536 → g.home = s.curCid → r.arrived < n →
      ∃ t, exec (.rdvinit f) s = .next t ∧ s.Changes t (fun u => { u with groups := [] }) id ∧ s.IssuedTo t (s.here.pc + 12)
        ∧ (∀ k, k ≠ g.gid → t.group? k = s.group? k)
        ∧ ∃ h, t.group? g.gid = some h ∧ h.point pt = { r with expect := n } ∧ (∀ q, q ≠ pt → h.point q = g.point q)
          ∧ { h with rdv := [] } = { g with rdv := [] })
    ∧ (1 ≤ n → n < 65536 → g.home ≠ s.curCid →
      ∃ t, exec (.rdvinit f) s = .next t ∧ s.OnlyAccess t ∧ s.IssuedTo t (s.here.pc + 12) ∧ t.groups = s.groups
        ∧ s.Sends t fun m => m.kind = .rdvinit pt n ∧ m.loc.home = .scratch g.home ∧ m.region = g.gid))
  ∧ (∀ (f : XF) (s : State) (g : Group), s.group? s.here.gid = some g → g.gid = s.here.gid → s.admits (.arrive f) = true → s.here.wait = .ready →
    let pt := f.aux8.toNat % 32
    let r := g.point pt
    (s.unackedIn s.here.serial 2 = 0 → g.home = s.curCid → r.arrived + 1 < r.expect →
      ∃ t, exec (.arrive f) s = .next t ∧ s.Changes t (fun u => { u with groups := [] }) id ∧ s.IssuedTo t (s.here.pc + 12)
        ∧ tget t.here.phases pt 0 = r.phase + 1 ∧ (∀ q, q ≠ pt → tget t.here.phases q 0 = tget s.here.phases q 0)
        ∧ ∃ h, t.group? g.gid = some h ∧ h.point pt = { r with arrived := r.arrived + 1 } ∧ ∀ q, q ≠ pt → h.point q = g.point q)
    ∧ (s.unackedIn s.here.serial 2 = 0 → g.home = s.curCid → r.expect ≤ r.arrived + 1 → g.pitch = [s.curCid] → s.Settled s.curCid →
      ∃ t, exec (.arrive f) s = .next t ∧ s.IssuedTo t (s.here.pc + 12) ∧ s.KeepsBytes t
        ∧ tget t.here.phases pt 0 = r.phase + 1 ∧ tget t.hereCore.phase pt 0 = r.phase + 1
        ∧ ∃ h, t.group? g.gid = some h ∧ h.point pt = { r with phase := r.phase + 1, arrived := 0 })
    ∧ (s.unackedIn s.here.serial 2 = 0 → g.home ≠ s.curCid →
      ∃ t, exec (.arrive f) s = .next t ∧ s.OnlyAccess t ∧ s.IssuedTo t (s.here.pc + 12) ∧ t.groups = s.groups
        ∧ s.Sends t fun m => m.kind = .arrive pt ∧ m.loc.home = .scratch g.home ∧ m.region = g.gid ∧ m.sent = true)
    ∧ (s.unackedIn s.here.serial 2 ≠ 0 →
      ∃ t, exec (.arrive f) s = .next t ∧ s.OnlyAccess t ∧ s.WaitsAt t (s.here.pc + 12) (.release 2 s.serial)
        ∧ s.Sends t fun m => m.kind = .arrive pt ∧ m.sent = false))
  ∧ (∀ (f : XF) (s : State) (g : Group) (ins : Instr) (p : Option (BitVec 16)), s.group? s.here.gid = some g → g.preempt = false →
    (ins = .rdvwait f ∧ p = none) ∨ (ins = .rdvwaitPhase f ∧ f.a.toNat < 28 ∧ (s.hereW f.a).toNat < 65536 ∧ p = some ((s.hereW f.a).setWidth 16)) →
    s.admits ins = true → s.here.wait = .ready → s.sound = true →
    let pt := f.aux8.toNat % 32
    let here := tget s.hereCore.phase pt 0
    let goal := p.getD (tget s.here.phases pt 0)
    (s.arrivesAt s.here.serial pt = false → (here - goal).toNat < 2 ^ 15 →
      ∃ t, exec ins s = .next t ∧ s.OnlyAccess t ∧ s.IssuedTo t (s.here.pc + 12) ∧ t.hereCore.l1 = [] ∧ t.here.own = true)
    ∧ (s.arrivesAt s.here.serial pt = true ∨ 2 ^ 15 ≤ (here - goal).toNat →
      ∃ t, exec ins s = .next t ∧ s.OnlyIssue t ∧ s.WaitsAt t (s.here.pc + 12) (.rendezvous pt p)))
  ∧ ∀ (f : XF) (s : State), s.admits (.rdvwaitPhase f) = true → s.here.wait = .ready → s.sound = true → f.a.toNat < 28 →
    65536 ≤ (s.hereW f.a).toNat → exec (.rdvwaitPhase f) s = trapOnly (.rdvwaitPhase f) s .shape (s.hereW f.a)

/-! ### New groups, successors, moves, and the events of rendezvous points -/

/-- R193, R194, R197, R198: LAUNCH asks for a group, RESOLE offers a successor, MIGRATE asks for a move.
What these rules leave open is read as in log 25, log 26 and log 28, the model's own choices. -/
def Obligations.GroupRequests : Prop :=
  (∀ (f : XF) (s : State), s.admits (.launch f) = true → s.sound = true → f.a.toNat < 28 → f.d.toNat < 28 →
    let a := s.hereW f.a
    (a.toNat % 64 ≠ 0 → exec (.launch f) s = .next (s.trapHere (.launch f) { cause := .align, tval := a, use := 1 }))
    ∧ ∀ off, s.net = [] → s.here.wait = .ready → s.here.guest = false → (∀ j, j < 4 → s.ownRange (a + BitVec.ofNat 64 (16 * j)) 16 false (off + 16 * j)) →
      a.toNat % 64 = 0 →
      let rec_ := ownBytes s off 64
      let hva := BitVec.ofNat 64 (fieldOf rec_ 0 8)
      (∀ o, launchFault rec_ = some o → exec (.launch f) s = trapOnly (.launch f) s .shape (BitVec.ofNat 64 o))
      ∧ (launchFault rec_ = none → hva.toNat % 256 ≠ 0 → exec (.launch f) s = trapOnly (.launch f) s .align hva)
      ∧ ∀ hoff, launchFault rec_ = none → hva.toNat % 256 = 0 → (∀ j, j < 16 → s.ownRange (hva + BitVec.ofNat 64 (16 * j)) 16 false (hoff + 16 * j)) →
        let hdr := ownBytes s hoff 256
        let h := parseHeader hva hdr
        (shapeCores (fieldOf rec_ 16 1) (fieldOf rec_ 17 1) (fieldOf rec_ 18 1) ≠ h.cores → exec (.launch f) s = trapOnly (.launch f) s .shape 16)
        ∧ (shapeCores (fieldOf rec_ 16 1) (fieldOf rec_ 17 1) (fieldOf rec_ 18 1) = h.cores → fieldOf rec_ 8 8 = 0 → fieldOf rec_ 20 4 < 2 ^ 31 →
            fieldOf rec_ 32 1 = 0 → s.hereCore.sp.wf = true →
          ((s.headerValid s.here.region h hdr).1 = true → State.detMet h ((s.effModeb s.here.region).getLsbD 0) = true →
              0 < s.nextGid → s.nextGid < 2 ^ 32 → s.group? s.nextGid = none →
            ∃ t, exec (.launch f) s = .next t ∧ s.IssuedTo t (s.here.pc + 12) ∧ t.queue = s.queue ++ [s.nextGid]
              ∧ (f.d ≠ 0 → t.hereW f.d = BitVec.ofNat 64 s.nextGid) ∧ (∀ k, k ≠ s.nextGid → t.group? k = s.group? k)
              ∧ ∃ g, t.group? s.nextGid = some g ∧ g.state = .queued ∧ g.header = h ∧ g.region = s.here.region ∧ g.source = s.curCid ∧ g.notify = none)
          ∧ ((s.headerValid s.here.region h hdr).1 = false ∨ State.detMet h ((s.effModeb s.here.region).getLsbD 0) = false → s.effEvbase s.here.region = 0 →
            ∃ t, exec (.launch f) s = .next t ∧ s.IssuedTo t (s.here.pc + 12) ∧ t.queue = s.queue ∧ t.groups = s.groups
              ∧ t.hereW f.d = 0)))
  ∧ (∀ (f : XF) (s : State), s.admits (.resole f) = true → s.here.idx = 0 → s.sound = true → f.a.toNat < 28 → f.b.toNat < 28 →
    let a := s.hereW f.a
    let b := s.hereW f.b
    (a.toNat % 256 ≠ 0 → exec (.resole f) s = trapOnly (.resole f) s .align a)
    ∧ (a.toNat % 256 = 0 → b.toNat % 64 ≠ 0 → exec (.resole f) s = trapOnly (.resole f) s .align b)
    ∧ ∀ hoff off g, s.net = [] → s.here.wait = .ready → s.here.guest = false → s.group? s.here.gid = some g → g.gid = s.here.gid →
      a.toNat % 256 = 0 → b.toNat % 64 = 0 →
      (∀ j, j < 16 → s.ownRange (a + BitVec.ofNat 64 (16 * j)) 16 false (hoff + 16 * j)) →
      (∀ j, j < 4 → s.ownRange (b + BitVec.ofNat 64 (16 * j)) 16 false (off + 16 * j)) →
      let hdr := ownBytes s hoff 256
      let rec_ := ownBytes s off 64
      let h := parseHeader a hdr
      let heir : Heir := { cid := s.curCid, slot := s.curSlot, header := h, hdr := a, rec_ := rec_ }
      (∀ i, State.missingFeature h.features s.hereCore.feat = some i → exec (.resole f) s = trapOnly (.resole f) s .feature (BitVec.ofNat 64 i))
      ∧ (∀ n, State.missingFeature h.features s.hereCore.feat = none → s.resoleFault g h hdr rec_ = some n →
          exec (.resole f) s = trapOnly (.resole f) s .shape (BitVec.ofNat 64 n))
      ∧ (State.missingFeature h.features s.hereCore.feat = none → s.resoleFault g h hdr rec_ = none →
        (g.heirs.length + 1 < g.pitch.length →
          ∃ t, exec (.resole f) s = .next t ∧ s.WaitsAt t (s.here.pc + 12) .resole ∧ s.KeepsBytes t
            ∧ t.group? g.gid = some { g with heirs := g.heirs ++ [heir] })
        ∧ (g.heirs.length + 1 = g.pitch.length → (∀ x ∈ g.heirs, x.hdr = a ∧ x.rec_ = rec_) →
          ∃ t, exec (.resole f) s = .next t ∧ s.WaitsAt t (s.here.pc + 12) .resole ∧ s.KeepsBytes t
            ∧ t.group? g.gid = some { g with heirs := g.heirs ++ [heir], state := .handOff }
            ∧ { due := .cycle s.cycle, rank := rankOf 4096, ins := .resoleScrub, obj := { a := g.gid } } ∈ t.agenda)))
  ∧ ∀ (f : XF) (s : State), s.admits (.migrate f) = true → s.here.wait = .ready → s.sound = true → f.a.toNat < 28 → f.d.toNat < 28 →
    let a := s.hereW f.a
    let stays := s.here.idx = 0 ∨ s.here.mode.det = true ∨ s.here.mode.task = false
    (stays →
      ∃ t, exec (.migrate f) s = .next t ∧ s.OnlyIssue t ∧ s.IssuedTo t (s.here.pc + 12) ∧ t.hereCore.pend = s.hereCore.pend ++ s.scalarResult f.d 2 0)
    ∧ (¬stays → a.toNat < 2 ^ 63 → 2048 ≤ a.toNat ∨ (s.pitchOf s.here.gid).contains a.toNat = false → exec (.migrate f) s = trapOnly (.migrate f) s .shape a)
    ∧ (¬stays → ∀ c, (a.toNat < 2048 ∧ c = a.toNat) ∨ (2 ^ 63 ≤ a.toNat ∧ ∃ v, s.hereCore.cload = some v ∧ c = v.toNat / 2 ^ 26 % 2 ^ 11) →
        (s.pitchOf s.here.gid).contains c = true →
      ∃ t, exec (.migrate f) s = .next t ∧ s.OnlyIssue t ∧ s.WaitsAt t (s.here.pc + 12) (.migrate (s.scalarDest f.d) c false)
        ∧ { due := .cycle s.cycle, rank := rankOf s.curCid, ins := .migrationSend, obj := { a := s.curCid, b := s.curSlot, c := c } } ∈ t.agenda)

/-- R193, R200, R202 to R204, R212, R214: what happens at the home of a rendezvous point and with its answers, the refresh of CLOAD, a
move from its request to its landing, and a successor's scrub and start. What these rules leave
open is read as in log 26, log 27 and log 28, the model's own choices. -/
def Obligations.RendezvousMovesAndSuccessors : Prop :=
  (∀ (s : State) (m : Msg) (g : Group) (pt : Nat), stepMessage s m → m.kind = .arrive pt → s.group? m.region = some g → g.gid = m.region →
    g.killed = false → (g.point pt).arrived + 1 < (g.point pt).expect → m.loc.home ≠ .scratch m.cid →
    ∃ t, exec .rendezvousArrival s = .next t ∧ s.KeepsBytes t
      ∧ (∃ h, t.group? g.gid = some h ∧ h.point pt = { g.point pt with arrived := (g.point pt).arrived + 1 })
      ∧ (m.slot < 16 → ∃ x ∈ t.net, x.id = m.id ∧ x.performed = true ∧ x.resp = some (.value ((g.point pt).phase.setWidth 128)))
      ∧ (16 ≤ m.slot → t.net = s.net.filter fun x => x.id != m.id))
  ∧ (∀ (s : State) (m : Msg) (pt : Nat) (v : BitVec 128), stepMessage s m → m.kind = .arrive pt → m.resp = some (.value v) →
    (s.slot m.cid m.slot).live = true → (s.slot m.cid m.slot).serial = m.serial → (s.slot m.cid m.slot).wait = .ready →
    ∃ t, exec .arriveResponse s = .next t ∧ s.KeepsBytes t ∧ t.net = (s.net.filter fun x => x.id != m.id)
      ∧ tget (t.slot m.cid m.slot).phases pt 0 = v.setWidth 16 + 1)
  ∧ (∀ (s : State), let cid := s.obj.a
    ((s.core cid).gid ≠ s.obj.c → exec .phaseUpdate s = .next s)
    ∧ ((s.core cid).gid = s.obj.c → s.Settled cid →
      ∃ t, exec .phaseUpdate s = .next t ∧ s.KeepsBytes t ∧ t.offCore = s.offCore ∧ (t.core cid).phase = tset (s.core cid).phase s.obj.b (s.obj.v.setWidth 16)
        ∧ ∀ c, c ≠ cid → t.core c = s.core c))
  ∧ (∀ (s : State) (m : Msg) (g : Group) (pt n : Nat), stepMessage s m → m.kind = .rdvinit pt n → s.group? m.region = some g → g.gid = m.region →
    (g.point pt).arrived < n →
    ∃ t, exec .rdvinitAtHome s = .next t ∧ s.KeepsBytes t ∧ t.net = (s.net.filter fun x => x.id != m.id)
      ∧ ∃ h, t.group? g.gid = some h ∧ h.point pt = { g.point pt with expect := n })
  ∧ (∀ (s : State) (g : Group), let cid := s.obj.a
    s.groupOf cid = some g → g.gid = s.obj.c → g.mode.det = false → s.loadTarget cid g.pitch = none →
    let own := s.loadOf cid
    let epoch := match (s.core cid).cload with | some v => v.toNat / 2 ^ 48 | none => 0
    ∃ t, exec .cloadRefresh s = .next t ∧ s.KeepsBytes t ∧ t.offCore = s.offCore ∧ (t.core cid).sampled = own
      ∧ (t.core cid).cload = some (BitVec.ofNat 64 ((epoch + 1) % 2 ^ 16 * 2 ^ 48 + cid * 2 ^ 26 + own * 2 ^ 16 + own))
      ∧ { due := s.atTurn cid 1024, rank := rankOf cid, ins := .cloadRefresh, obj := s.obj } ∈ t.agenda)
  ∧ (∀ (s : State) (d : Dest) (c : Nat) (hw : Bool), let cid := s.obj.a; let i := s.obj.b
    (s.slot cid i).wait = .migrate d c hw → (s.slot cid i).live = true → s.obj.ok = false → s.quiet cid i = true → c ≠ cid →
    ∃ t, exec .migrationSend s = .next t ∧ s.KeepsBytes t ∧ (t.slot cid i).wait = .reserve s.serial
      ∧ ∃ m ∈ t.net, m.id = s.serial ∧ m.kind = .reserve d hw ∧ m.loc.home = .scratch c)
  ∧ (∀ (s : State) (m : Msg) (d : Dest) (hw : Bool) (c : Nat), stepMessage s m → m.kind = .reserve d hw → m.loc.home = .scratch c →
    (s.slot m.cid m.slot).live = true → (s.slot m.cid m.slot).serial = m.serial →
    ∃ t, exec .migrationReservation s = .next t ∧ s.KeepsBytes t
      ∧ ∃ v ∈ t.moves, v.id = m.id ∧ v.from_ = m.cid ∧ v.slot = m.slot ∧ v.target = c
          ∧ v.toSlot = if (s.core c).gid = (s.slot m.cid m.slot).gid then s.freeSlot c else none)
  ∧ (∀ (s : State) (v : Move) (j : Nat), s.moves.find? (fun m => m.id == s.obj.a) = some v → v.toSlot = some j → v.bytes.length = 640 →
    s.sound = true → (s.core v.target).sp.wf = true → s.unwritten v.target (1024 * j) 640 = true → s.unwatched (.scratch v.target) (1024 * j) 640 = true →
    ∃ t, exec .migrationLanding s = .next t ∧ t.mem = s.mem ∧ (t.core v.target).l1 = []
      ∧ (t.slot v.target j).live = true ∧ (t.slot v.target j).wait = .ready ∧ (t.slot v.target j).pc = v.ctx.pc ∧ (t.slot v.target j).serial = v.ctx.serial
      ∧ (∀ k, k < 640 → t.spByte v.target (1024 * j + k) = v.bytes.getD k 0)
      ∧ ∀ a, a < 1024 * j ∨ 1024 * j + 640 ≤ a → t.spByte v.target a = s.spByte v.target a)
  ∧ (∀ (s : State) (g : Group) (h : Heir) (rest : List Heir) (cid : Nat), s.group? s.obj.a = some g → g.gid = s.obj.a → g.state = .handOff →
    s.handOffReady g = true → g.heirs = h :: rest → g.pitch = [cid] → s.net = [] → 0 < s.nextGid → s.nextGid < 2 ^ 32 → s.group? s.nextGid = none →
    s.nextGid ≠ g.gid → (s.core cid).sp.wf = true → (s.core cid).chans = [] →
    let k := parseKeep h.rec_
    ∃ t, exec .resoleScrub s = .next t ∧ t.mem = s.mem ∧ t.group? g.gid = none
      ∧ { due := .cycle (s.cycle + 8192), rank := 0, ins := .resoleSuccessorStart, obj := { a := s.nextGid } } ∈ t.agenda
      ∧ (∃ u, t.group? s.nextGid = some u ∧ u.state = .scrubbing ∧ u.header = h.header ∧ u.pitch = g.pitch ∧ u.region = g.region)
      ∧ ∀ a, 0x4000 ≤ a → t.spByte cid a = if inRanges k a then s.spByte cid a else 0)
  ∧ ∀ (s : State) (g : Group) (h : Heir) (rest : List Heir) (cid : Nat), s.group? s.obj.a = some g → g.gid = s.obj.a → g.state = .scrubbing →
    g.heirs = h :: rest → g.pitch = [cid] → g.preempt = false → (s.core cid).pend = [] →
    ∃ t, exec .resoleSuccessorStart s = .next t ∧ t.mem = s.mem ∧ (t.group? g.gid).map (·.state) = some .running
      ∧ (t.core cid).turn = 0 ∧ (t.core cid).issued = 0 ∧ (t.core cid).vlim = 0x7F800000
      ∧ (t.slot cid 0).live = true ∧ (t.slot cid 0).pc = g.header.entry ∧ (t.slot cid 0).gid = g.gid ∧ (t.slot cid 0).wait = .ready

/-! ### The matrix engines -/

/-- R125, R126, R130 to R132, R134, R139 to R143, R150, R151: what the engine instructions do at issue: PERM outside the share, ALIGN, SHAPE and
HANDLE, the entry that each posts, the version that MXWAITV compares, STATUS, and norm tables built and read.
What these rules leave open is read as in log 37 and log 38, the model's own choices. -/
def Obligations.MatrixIssue : Prop :=
  (∀ (f : XF) (s : State), s.sound = true → accOf (s.pitchOf s.here.gid) f.d.toNat = none →
    ∀ ins ∈ [Instr.mxwaitv f, .mxdrain f, .mxdrainCe f, .mxzero f, .mxzeroLd f, .scacc f], s.admits ins = true →
      exec ins s = trapOnly ins s .perm (BitVec.ofNat 64 f.d.toNat))
  ∧ (∀ (f : XF) (s : State), s.sound = true → engineOf (s.pitchOf s.here.gid) f.d.toNat = none →
    ∀ ins ∈ [Instr.mxldw f, .mxswap f, .mxcb f], s.admits ins = true → exec ins s = trapOnly ins s .perm (BitVec.ofNat 64 f.d.toNat))
  ∧ (∀ (f : XF) (s : State) (e : Nat), s.admits (.mxswap f) = true → s.here.wait = .ready → engineOf (s.pitchOf s.here.gid) f.d.toNat = some e →
    ∃ t, exec (.mxswap f) s = .next t ∧ PostedBy s t 0 (.swap e))
  ∧ (∀ (f : XF) (s : State) (acc : Nat), s.admits (.mxzero f) = true → s.here.wait = .ready → accOf (s.pitchOf s.here.gid) f.d.toNat = some acc →
    ∃ t, exec (.mxzero f) s = .next t ∧ PostedBy s t 0 (.zero acc))
  ∧ (∀ (f : XF) (s : State) (e : Nat), s.admits (.mxcb f) = true → s.here.wait = .ready → s.sound = true → f.a.toNat < 28 →
    engineOf (s.pitchOf s.here.gid) f.d.toNat = some e →
    let a := s.hereW f.a
    (a.toNat % 16 ≠ 0 → exec (.mxcb f) s = .next (s.trapHere (.mxcb f) { cause := .align, tval := a, use := 1 }))
    ∧ ∀ off, a.toNat % 16 = 0 → ownUnits s a off 2 false →
      ∃ t, exec (.mxcb f) s = .next t
        ∧ PostedBy s t 0 (.codebook e f.c.toNat ((List.range 16).map fun j => BitVec.ofNat 16 (leNat (ownBytes s (off + 2 * j) 2)))))
  ∧ (∀ (f : XF) (s : State) (acc : Nat), s.admits (.mxzeroLd f) = true → s.here.wait = .ready → s.sound = true → f.a.toNat < 28 →
    accOf (s.pitchOf s.here.gid) f.d.toNat = some acc →
    let a := s.hereW f.a
    (a.toNat % 16 ≠ 0 → exec (.mxzeroLd f) s = .next (s.trapHere (.mxzeroLd f) { cause := .align, tval := a, use := 1 }))
    ∧ ∀ off, a.toNat % 16 = 0 → ownUnits s a off 512 false →
      ∃ t, exec (.mxzeroLd f) s = .next t
        ∧ PostedBy s t 0 (.fill acc ((List.range 2048).map fun j => BitVec.ofNat 32 (leNat (ownBytes s (off + 4 * j) 4)))))
  ∧ (∀ (f : XF) (s : State) (d x : Nat) (oa ob : Nat → Nat), s.admits (.scacc f) = true → s.here.wait = .ready → s.sound = true → f.a.toNat < 28 →
    f.b.toNat < 28 → accOf (s.pitchOf s.here.gid) f.d.toNat = some d → accOf (s.pitchOf s.here.gid) f.c.toNat = some x →
    (∀ i, i < 64 → s.ownRange (s.hereW f.a + BitVec.ofNat 64 (i * (f.aux32.toNat % 2 ^ 16))) 1 false (oa i)) →
    (∀ i, i < 32 → s.ownRange (s.hereW f.b + BitVec.ofNat 64 (i * (f.aux32.toNat / 2 ^ 16))) 1 false (ob i)) →
    ∃ t, exec (.scacc f) s = .next t
      ∧ PostedBy s t 0 (.scale d x f.aux8.toNat ((List.range 64).map fun i => s.spByte s.curCid (oa i)) ((List.range 32).map fun i => s.spByte s.curCid (ob i))))
  ∧ (∀ (f : XF) (s : State) (e : Nat), s.admits (.mxldw f) = true → s.here.wait = .ready → s.sound = true → f.a.toNat < 28 → f.b.toNat < 28 →
    engineOf (s.pitchOf s.here.gid) f.d.toNat = some e →
    let n := if f.et = 10 ∨ f.et = 11 then 64 else if f.et = 14 then 16 else 32
    let a := s.hereW f.a
    let stride := if f.b = 0 then BitVec.ofNat 64 n else s.hereW f.b
    (a.toNat % 16 ≠ 0 → exec (.mxldw f) s = .next (s.trapHere (.mxldw f) { cause := .align, tval := a, use := 1 }))
    ∧ (a.toNat % 16 = 0 → stride.toNat % 16 ≠ 0 → exec (.mxldw f) s = .next (s.trapHere (.mxldw f) { cause := .align, tval := a + stride, use := 1 }))
    ∧ ∀ off : Nat → Nat, a.toNat % 16 = 0 → stride.toNat % 16 = 0 → (∀ k, k < 64 → ownUnits s (a + BitVec.ofNat 64 k * stride) (off k) (n / 16) false) →
      ∃ t, exec (.mxldw f) s = .next t ∧ s.OnlyAccess t ∧ s.WaitsAt t (s.here.pc + 12) (.engine s.serial)
        ∧ { due := .turn s.curCid (s.hereCore.turn + 72), rank := rankOf s.curCid, ins := .interlockedResult, obj := { a := s.serial } } ∈ t.agenda
        ∧ ∃ m ∈ t.net, m.id = s.serial ∧ m.kind = .instr ∧ m.cid = s.curCid ∧ m.slot = s.curSlot ∧ m.serial = s.here.serial ∧ m.ins = .mxldw f
            ∧ m.bytes = (List.range 64).flatMap fun k => ownBytes s (off k) n)
  ∧ (∀ (f : XF) (s : State) (off : Nat), s.admits (.mxq f) = true → s.here.wait = .ready → s.sound = true → f.a.toNat < 28 →
    let a := s.hereW f.a
    let pitch := s.pitchOf s.here.gid
    let bs := ownBytes s off 128
    let g := fieldOf bs
    let mode := g 0 1
    (a.toNat % 128 ≠ 0 → exec (.mxq f) s = .next (s.trapHere (.mxq f) { cause := .align, tval := a, use := 1 }))
    ∧ (a.toNat % 128 = 0 → ownUnits s a off 8 false → ∀ o, recordFault pitch bs = some o → exec (.mxq f) s = trapOnly (.mxq f) s .shape (BitVec.ofNat 64 o))
    ∧ (a.toNat % 128 = 0 → ownUnits s a off 8 false → recordFault pitch bs = none → g 1 1 / 2 % 2 = 1 → s.hereCore.feat.getLsbD 4 = false →
        exec (.mxq f) s = trapOnly (.mxq f) s .feature 4)
    ∧ ∀ (eng acc acc2 : Nat) (x y : Operand), a.toNat % 128 = 0 → ownUnits s a off 8 false → recordFault pitch bs = none →
      let samp := g 1 1 / 2 % 2 == 1
      (samp = true → s.hereCore.feat.getLsbD 4 = true) →
      (if g 2 1 = 0xFF ∧ 4 ≤ pitch.length then eng = 0xFF else engineOf pitch (g 2 1 % 0xFF) = some eng) →
      let row := fun e n => rowBytesOf (s.tagAhead (myCluster s) e) n
      let size := fun n => if mode = 2 then rowBytesOf (g 44 1) n else if eng = 0xFF then Nat.max (row 0 n) (row 1 n) else row eng n
      let table := fun (n : NormShape) => n.slices == g 80 2 && n.width == 2 ^ g 84 1 && n.etype == g 44 1
      operandGood s samp (g 1 1 / 4 % 2 == 1) (BitVec.ofNat 64 (g 8 8)) (BitVec.ofNat 64 (g 16 8)) (g 46 1) (g 6 2)
        (size (if mode = 0 then 64 else if mode = 1 then 32 else g 40 4)) (fun n => table n && !n.orient && n.nr == g 6 2) x →
      (mode = 2 → operandGood s samp (g 1 1 / 8 % 2 == 1) (BitVec.ofNat 64 (g 24 8)) (BitVec.ofNat 64 (g 32 8)) (g 47 1) (g 40 4) (size 32)
        (fun n => table n && n.orient) y) →
      accOf pitch (g 3 1) = some acc → (if mode = 0 then accOf pitch (g 49 1) = some acc2 else acc2 = acc) →
      let task : TaskRec :=
        { mode := mode, bar := g 1 1 % 2 == 1, samp := samp, rdv := if g 1 1 / 16 % 2 = 1 then some (g 48 1) else none, engine := eng
          expver := BitVec.ofNat 16 (g 4 2), rows := g 6 2, a := x, b := if mode = 2 then y else {}, klen := g 40 4, etype := g 44 1, cbslot := g 45 1
          seed := BitVec.ofNat 64 (g 64 8), tag := BitVec.ofNat 64 (g 72 8), slices := g 80 2, samples := g 82 2, wlog := g 84 1
          vlim := s.hereCore.vlim.setWidth 32 }
      ∃ t, exec (.mxq f) s = .next t ∧ PostedBy s t (if mode = 2 then 2 else 1) (.task task acc acc2))
  ∧ (∀ (f : XF) (s : State) (ins : Instr) (v acc : Nat), (ins = .mxwaitv f ∧ v = f.aux32.toNat % 65536) ∨ (ins = .mxwaitvReg f ∧ v = (s.hereW f.a).toNat % 65536 ∧ f.a.toNat < 28) →
    s.admits ins = true → s.here.wait = .ready → s.sound = true → accOf (s.pitchOf s.here.gid) f.d.toNat = some acc →
    ∃ t, exec ins s = .next t ∧ s.OnlyIssue t ∧ t.hereCore.pend = s.hereCore.pend
      ∧ (if (s.acc (myCluster s) acc).version.toNat = v then s.IssuedTo t (s.here.pc + 12) ∧ t.here.own = true
        else s.WaitsAt t (s.here.pc + 12) (.version acc v)))
  ∧ (∀ (f : XF) (s : State) (acc : Nat), s.admits (.mxdrain f) = true → s.here.wait = .ready → s.sound = true → f.a.toNat < 28 → f.b.toNat < 28 →
    accOf (s.pitchOf s.here.gid) f.d.toNat = some acc →
    let n := if f.et = 11 then 64 else 128
    let a := s.hereW f.a
    let stride := if f.b = 0 then BitVec.ofNat 64 n else s.hereW f.b
    (a.toNat % 16 ≠ 0 → exec (.mxdrain f) s = .next (s.trapHere (.mxdrain f) { cause := .align, tval := a, use := 1, write := true }))
    ∧ (a.toNat % 16 = 0 → stride.toNat % 16 ≠ 0 →
        exec (.mxdrain f) s = .next (s.trapHere (.mxdrain f) { cause := .align, tval := a + stride, use := 1, write := true }))
    ∧ ∀ off : Nat → Nat, a.toNat % 16 = 0 → stride.toNat % 16 = 0 → (∀ k, k < 64 → ownUnits s (a + BitVec.ofNat 64 k * stride) (off k) (n / 16) true) →
      ∃ t, exec (.mxdrain f) s = .next t ∧ s.WaitsAt t (s.here.pc + 12) (.engine s.serial)
        ∧ Posts s t 0 (.drain acc (f.et == 11)) ((List.range 64).flatMap fun k => (List.range (n / 16)).map fun u =>
            (a + BitVec.ofNat 64 k * stride + BitVec.ofNat 64 (16 * u), { home := .scratch s.curCid, addr := off k + 16 * u })))
  ∧ (∀ (f : XF) (s : State) (acc : Nat), s.admits (.mxdrainCe f) = true → s.here.wait = .ready → s.sound = true → f.a.toNat < 28 →
    accOf (s.pitchOf s.here.gid) f.d.toNat = some acc →
    let n := (s.hereW f.a).toNat
    let plan := (tfind (s.die (dieOf s.curCid)).plans n).bind s.transfer?
    let mine := fun (p : Transfer) => p.gid == s.here.gid && (match p.kind with | .rscat r => r.stream | _ => false)
    (256 ≤ n ∨ plan.any mine = false → exec (.mxdrainCe f) s = trapOnly (.mxdrainCe f) s .shape (s.hereW f.a))
    ∧ (n < 256 → plan.any mine = true →
      ∃ t, exec (.mxdrainCe f) s = .next t ∧ s.WaitsAt t (s.here.pc + 12) (.engine s.serial) ∧ Posts s t 0 (.drainCe acc n) []))
  ∧ (∀ (f : XF) (s : State), s.admits (.mxstat f) = true → s.here.wait = .ready → s.sound = true → s.hereCore.sp.wf = true → f.d.toNat < 28 →
    s.quietReg (8 * f.d.toNat) = true →
    (accOf (s.pitchOf s.here.gid) f.c.toNat = none → exec (.mxstat f) s = trapOnly (.mxstat f) s .perm (BitVec.ofNat 64 f.c.toNat))
    ∧ ∀ acc, accOf (s.pitchOf s.here.gid) f.c.toNat = some acc →
      ∃ t, exec (.mxstat f) s = .next t ∧ s.IssuedTo t (s.here.pc + 12) ∧ t.here.own = true ∧ Delivers s t f.d (s.acc (myCluster s) acc).status)
  ∧ (∀ (f : XF) (s : State), s.admits (.normrd f) = true → s.here.wait = .ready → s.sound = true → s.hereCore.sp.wf = true → f.a.toNat < 28 → f.d.toNat < 28 →
    s.quietReg (8 * f.d.toNat) = true →
    let n := f.aux8.toNat % 64
    let h := s.handle s.curCid n
    (h.norm = none → exec (.normrd f) s = trapOnly (.normrd f) s .handle (BitVec.ofNat 64 n))
    ∧ ∀ t0, h.norm = some t0 →
      (t0.count ≤ (s.hereW f.a).toNat → exec (.normrd f) s = trapOnly (.normrd f) s .shape (s.hereW f.a))
      ∧ ((s.hereW f.a).toNat < t0.count →
        let e := s.normEntry s.curCid (t0.first + (s.hereW f.a).toNat)
        ∃ t, exec (.normrd f) s = .next t ∧ s.IssuedTo t (s.here.pc + 12) ∧ t.here.own = true
          ∧ Delivers s t f.d (BitVec.ofNat 64 (e.norm.toNat + if e.stale then 2 ^ 32 else 0))))
  ∧ ∀ (f : XF) (s : State), s.admits (.normref f) = true → s.here.wait = .ready → s.sound = true → f.a.toNat < 28 →
    let n := f.aux8.toNat % 64
    let h := s.handle s.curCid n
    let a := s.hereW f.a
    let shape := normShape a
    ((h.state ≠ .filling ∧ h.state ≠ .full) ∨ 0 < h.pins → exec (.normref f) s = trapOnly (.normref f) s .handle (BitVec.ofNat 64 n))
    ∧ (h.state = .filling ∨ h.state = .full → h.pins = 0 → h.base + h.len ≤ 0x60000 →
      (a = 0 → h.norm = none → exec (.normref f) s = trapOnly (.normref f) s .handle (BitVec.ofNat 64 n))
      ∧ (a ≠ 0 → validNorm a h.len = false → exec (.normref f) s = trapOnly (.normref f) s .shape a)
      ∧ ∀ (tab : NormTab) (k : Nat),
        let base := if a = 0 then s else (match h.norm with | some u => s.freeNorms s.curCid u | none => s)
        (a ≠ 0 → validNorm a h.len = true → State.findNorms base.hereCore.norms shape.slices = none → exec (.normref f) s = trapOnly (.normref f) s .shape a)
        ∧ ((if a = 0 then h.norm = some tab
            else validNorm a h.len = true ∧ State.findNorms base.hereCore.norms shape.slices = some tab.first ∧ tab.desc = a ∧ tab.count = shape.slices) → k < tab.count →
          ∃ t, exec (.normref f) s = .next t ∧ s.Changes t (fun u => u) (fun c => { c with hs := [], norms := [] })
            ∧ s.IssuedTo t (s.here.pc + 12) ∧ t.here.own = true
            ∧ t.handle s.curCid n = { h with norm := some tab } ∧ (∀ j, j ≠ n → t.handle s.curCid j = s.handle s.curCid j)
            ∧ (∀ j, j < tab.first ∨ tab.first + tab.count ≤ j → t.normEntry s.curCid j = base.normEntry s.curCid j)
            ∧ t.normEntry s.curCid (tab.first + k) = (if h.state = .filling then { used := true, norm := 0, stale := true }
              else { used := true, norm := normOf ((s.sliceElems s.curCid n { h with norm := some tab } tab k).map fun x => match x with | .ok v => v | .error _ => .fin false 0 0), stale := false })))

/-- R126 to R132, R136 to R138, R140 to R143: the steps of the engines: a waiting entry is taken; the oldest entry starts under the conditions
of R128 and not before; a task computes its words, a swap exchanges planes, a codebook load writes its slot, a drain stores
its tile; and a completion writes words, version and status. What these rules leave open is read
as in log 11, log 13 and log 37, the model's own choices. -/
def Obligations.EngineEvents : Prop :=
  (∀ (s : State) (e : Entry) (rest : List Entry) (c i : Nat), (s.cluster s.obj.a).waiting = e :: rest → (s.cluster s.obj.a).queue.length = 31 →
    e.kind.startStep ≠ .taskStart → s.ownerOf e.cid e.slot e.serial = some (c, i) → (s.slot c i).wait = .enqueue →
    ∃ t, exec .engineQueueAccept s = .next t ∧ s.KeepsBytes t
      ∧ (∃ n, (t.cluster s.obj.a).queue = (s.cluster s.obj.a).queue ++ [{ e with place := n }] ∧ ∀ x ∈ (s.cluster s.obj.a).queue, x.place ≠ n)
      ∧ (t.cluster s.obj.a).waiting = rest ∧ (t.slot c i).wait = .ready)
  ∧ (∀ (s : State) (cl : Nat) (e : Entry) (k : TaskRec) (a b : Nat), headIs s cl e → e.kind = .task k a b →
    ((k.bar = true ∧ ∃ x ∈ (s.cluster cl).queue, x.started = true ∧ x.kind.startStep = .taskStart) ∨ (k.engine ≠ 0xFF ∧ s.engineBusy cl k.engine = true)
      ∨ (s.acc cl a).version ≠ k.expver ∨ s.accBusy cl a = true → exec .taskStart s = .next s)
    ∧ ∀ eng, (k.bar = true → ∀ x ∈ (s.cluster cl).queue, x.started = true → x.kind.startStep ≠ .taskStart) →
      (if k.engine = 0xFF then eng = 0 ∨ (eng = 1 ∧ s.engineBusy cl 0 = true) else eng = k.engine) → s.engineBusy cl eng = false →
      s.accBusy cl a = false → (s.acc cl a).version = k.expver → k.samp = false → (k.mode = 1 → k.rows ≤ 32) → s.sound = true →
      let region := s.regionOf e.gid
      let mx := k.mode = 0 ∧ (s.engine cl eng).active.tag = 15
      (¬mx → (s.taskSums cl e.cid region eng k a a).err = none →
        let cell := taskCell s cl e.cid region eng k (s.acc cl a).words
        ∃ t, exec .taskStart s = .next t ∧ s.KeepsBytes t ∧ ∃ x ∈ (t.cluster cl).queue, Runs s t cl x ∧ x.id = e.id ∧ x.engine = eng ∧ x.kind = .task k a a
          ∧ (∃ exceeds, x.status = taskStatusWord s e.gid eng exceeds ∧ (exceeds = true ↔ cellsOver k cell))
          ∧ x.words.length = 1 ∧ ∃ ws, tfind x.words a = some ws ∧ ∀ r n, r < 64 → n < 32 →
              (taskNames k r n → accWord ws (32 * r + n) = (cell r n).1) ∧ (¬taskNames k r n → accWord ws (32 * r + n) = accWord (s.acc cl a).words (32 * r + n)))
      ∧ (¬mx → ∀ err, (s.taskSums cl e.cid region eng k a a).err = some err →
        ∃ t, exec .taskStart s = .next t ∧ t.mem = s.mem ∧ ∃ x ∈ (t.cluster cl).queue, Runs s t cl x ∧ x.id = e.id ∧ x.status.toNat / 2 ^ 48 = err.code % 2 ^ 16)
      ∧ (mx → s.accBusy cl b = true ∨ (s.acc cl b).version ≠ k.expver → exec .taskStart s = .next s)
      ∧ (mx → a = b → ∃ t, exec .taskStart s = .next t ∧ s.KeepsBytes t ∧ ∃ x ∈ (t.cluster cl).queue, Runs s t cl x ∧ x.id = e.id
          ∧ x.status.toNat / 2 ^ 48 = 4 ∧ x.words = [(a, (s.acc cl a).words)])
      ∧ (mx → a ≠ b → s.accBusy cl b = false → (s.acc cl b).version = k.expver → (s.taskSums cl e.cid region eng k a b).err = none →
        let cell := mxCell s cl e.cid region eng k
        ∃ t, exec .taskStart s = .next t ∧ s.KeepsBytes t ∧ ∃ x ∈ (t.cluster cl).queue, Runs s t cl x ∧ x.id = e.id ∧ x.engine = eng ∧ x.kind = .task k a b
          ∧ (∃ exceeds, x.status = taskStatusWord s e.gid eng exceeds ∧ (exceeds = true ↔ cellsOver k (cell false) ∨ cellsOver k (cell true)))
          ∧ ∀ c second, (c = a ∧ second = false) ∨ (c = b ∧ second = true) → ∃ ws, tfind x.words c = some ws ∧ ∀ r n, r < 64 → n < 32 →
              (r < k.rows → accWord ws (32 * r + n) = (cell second r n).1) ∧ (k.rows ≤ r → accWord ws (32 * r + n) = accWord (s.acc cl c).words (32 * r + n))))
  ∧ (∀ (s : State) (cl : Nat) (e : Entry) (n : Nat), headIs s cl e → e.kind = .swap n → (∀ g, s.group? e.gid = some g → g.state = .running) →
    (s.engineBusy cl n = true → exec .swapStart s = .next s)
    ∧ (s.engineBusy cl n = false →
      ∃ t, exec .swapStart s = .next t ∧ s.KeepsBytes t ∧ (t.cluster cl).queue = (s.cluster cl).queue.filter (fun x => x.id != e.id)
        ∧ (t.engine cl n).active = (s.engine cl n).shadow ∧ (t.engine cl n).shadow = (s.engine cl n).active ∧ (t.engine cl n).cb = (s.engine cl n).cb
        ∧ (∀ m, m ≠ n → t.engine cl m = s.engine cl m) ∧ (t.cluster cl).accs = (s.cluster cl).accs))
  ∧ (∀ (s : State) (cl : Nat) (e : Entry) (n slot : Nat) (hs : List (BitVec 16)), headIs s cl e → e.kind = .codebook n slot hs → hs.length = 16 →
    (∀ g, s.group? e.gid = some g → g.state = .running) →
    (codebookUsed s cl n slot = true → exec .codebookLoadStart s = .next s)
    ∧ (codebookUsed s cl n slot = false → ∃ t, exec .codebookLoadStart s = .next t ∧ s.KeepsBytes t ∧ (t.cluster cl).queue = (s.cluster cl).queue.filter (fun x => x.id != e.id)
      ∧ (t.engine cl n).active = (s.engine cl n).active ∧ (t.engine cl n).shadow = (s.engine cl n).shadow
      ∧ ∀ j, tget (t.engine cl n).cb j 0 = if j / 16 = slot then hs.getD (j % 16) 0 else tget (s.engine cl n).cb j 0))
  ∧ (∀ (s : State) (cl : Nat) (e : Entry) (acc : Nat) (bf : Bool), headIs s cl e → e.kind = .drain acc bf →
    (s.accBusy cl acc = true → exec .drainStart s = .next s)
    ∧ (s.accBusy cl acc = false → s.sound = true → (s.core e.cid).sp.wf = true →
      let addr := fun i => (e.units.getD i (0, { home := .scratch e.cid, addr := 0 })).2.addr
      (∀ i, i < e.units.length → (e.units.getD i (0, { home := .scratch e.cid, addr := 0 })).2.home = .scratch e.cid ∧ s.scratchLocked e.cid (addr i) 16 true = false
        ∧ s.unwritten e.cid (addr i) 16 = true ∧ s.unwatched (.scratch e.cid) (addr i) 16 = true) →
      (∀ i j, i < j → j < e.units.length → addr i + 16 ≤ addr j ∨ addr j + 16 ≤ addr i) →
      ∃ t, exec .drainStart s = .next t ∧ t.mem = s.mem ∧ (∃ x ∈ (t.cluster cl).queue, Runs s t cl x ∧ x.id = e.id ∧ x.trap = none)
        ∧ (∀ i k, i < e.units.length → k < 16 → t.spByte e.cid (addr i + k) =
            if bf then (BitVec.ofNat 16 (roundF bf16 .rne (decodeF f32 (accWord (s.acc cl acc).words (8 * i + k / 2)).toNat))).extractLsb' (8 * (k % 2)) 8
            else (accWord (s.acc cl acc).words (4 * i + k / 4)).extractLsb' (8 * (k % 4)) 8)
        ∧ (∀ a, (∀ i, i < e.units.length → a < addr i ∨ addr i + 16 ≤ a) → t.spByte e.cid a = s.spByte e.cid a)
        ∧ ∀ c, c ≠ e.cid → (t.core c).sp = (s.core c).sp))
  ∧ (∀ (s : State) (cl : Nat) (e : Entry) (acc slot : Nat) (p : Transfer), headIs s cl e → e.kind = .drainCe acc slot → s.accBusy cl acc = false → s.sound = true →
    tfind (s.die (dieOf e.cid)).plans slot = some p.id → s.transfer? p.id = some p →
    ∃ t, exec .drainStart s = .next t ∧ s.KeepsBytes t ∧ (∃ x ∈ (t.cluster cl).queue, Runs s t cl x ∧ x.id = e.id)
      ∧ { due := .cycle s.cycle, rank := rankOf (collectiveSource (dieOf e.cid)), ins := .rscatCompletion, obj := { a := p.id } } ∈ t.agenda
      ∧ ∃ q, t.transfer? p.id = some q ∧ q.input = p.input ++ (List.range 2048).flatMap fun w => leBytes 4 (accWord (s.acc cl acc).words w).toNat)
  ∧ (∀ (s : State) (cl : Nat) (e : Entry), headIs s cl e → s.sound = true → ∀ ins ∈ [Instr.zeroStart, .fillStart, .scaleStart], e.kind.startStep = ins →
    (e.acc?.any (s.accBusy cl) = true → exec ins s = .next s)
    ∧ (e.acc?.any (s.accBusy cl) = false →
      ∃ t, exec ins s = .next t ∧ s.KeepsBytes t ∧ Runs s t cl { e with started := true }))
  ∧ (∀ (s : State) (e : Entry), let cl := s.obj.a
    (s.cluster cl).queue.find? (fun x => x.id == s.obj.b) = some e → e.audit = none → e.trap = none → (∀ g, s.group? e.gid = some g → g.state = .running) →
    ∃ t, exec .entryCompletion s = .next t ∧ t.mem = s.mem ∧ (t.cluster cl).queue = (s.cluster cl).queue.filter (fun x => x.id != e.id)
      ∧ (t.cluster cl).engines = (s.cluster cl).engines
      ∧ (∀ n w, w < 2048 → accWord (t.acc cl n).words w = wordAfter s cl e n w)
      ∧ (∀ n, (t.acc cl n).version = versionAfter s cl e n ∧ (t.acc cl n).status = statusAfter s cl e n)
      ∧ (t.cluster cl).locks = (s.cluster cl).locks.filter fun l => !(l.hkind == 3 && l.holder == e.id))
  ∧ (∀ (s : State) (e : Entry) (g : Group) (k : TaskRec) (a b pt : Nat), (s.cluster s.obj.a).queue.find? (fun x => x.id == s.obj.b) = some e →
    e.kind = .task k a b → k.rdv = some pt → e.silent = false → e.audit = none → s.group? e.gid = some g → g.gid = e.gid → g.state = .running →
    (e.cid = g.pitch.headD 0 → (g.point pt).arrived + 1 < (g.point pt).expect →
      ∃ t, exec .entryCompletion s = .next t ∧ ∃ h, t.group? e.gid = some h ∧ h.point pt = { g.point pt with arrived := (g.point pt).arrived + 1 })
    ∧ (e.cid ≠ g.pitch.headD 0 →
      ∃ t, exec .entryCompletion s = .next t ∧ t.mem = s.mem ∧ ∃ m ∈ t.net, m.id = s.serial ∧ m.kind = .arrive pt ∧ m.cid = e.cid ∧ m.region = e.gid
        ∧ m.loc.home = .scratch (g.pitch.headD 0) ∧ m.sent = true))
  ∧ ∀ (s : State) (e : Entry) (c i acc : Nat) (bf : Bool), (s.cluster s.obj.a).queue.find? (fun x => x.id == s.obj.b) = some e →
    e.kind = .drain acc bf → e.trap = none → s.ownerOf e.cid e.slot e.serial = some (c, i) → (s.slot c i).wait = .engine e.id → s.ustore e.serial ≤ 64 →
    (∀ g, s.group? e.gid = some g → g.state = .running) →
    ∃ t, exec .entryCompletion s = .next t ∧ s.KeepsBytes t ∧ (t.slot c i).wait = .ready ∧ (t.slot c i).own = true

/-- R145, R147, R152 to R159: a sampled task at its start: stale norms are computed anew and counted, and the words of its tile and its
status word are those of the exact product, of the estimate from the draws, or +0, as the norms, the budget, VLIM and the audit
decide; and the audit counters of the region after an audited task. What these rules leave open
is read as in log 11 and log 37, the model's own choices. -/
def Obligations.SampledTasks : Prop :=
  (∀ (s : State) (cl : Nat) (e : Entry) (k : TaskRec) (a b ha hb : Nat) (ta tb : NormTab), headIs s cl e → e.kind = .task k a b →
    sampledGood s e.cid k ha hb ta tb → (k.bar = true → ∀ x ∈ (s.cluster cl).queue, x.started = true → x.kind.startStep ≠ .taskStart) →
    k.engine ≠ 0xFF → s.engineBusy cl k.engine = false → s.accBusy cl a = false → (s.acc cl a).version = k.expver → s.sound = true →
    let z := samplingOf s e k ha hb ta tb
    let o := sampledOutcome k z
    ∃ t, exec .taskStart s = .next t ∧ s.KeepsBytes t
      ∧ (∀ j, j < k.slices → (t.normEntry e.cid (ta.first + j)).norm = z.na.getD j 0 ∧ (t.normEntry e.cid (ta.first + j)).stale = false
          ∧ (t.normEntry e.cid (tb.first + j)).norm = z.nb.getD j 0 ∧ (t.normEntry e.cid (tb.first + j)).stale = false)
      ∧ ∃ x ∈ (t.cluster cl).queue, Runs s t cl x ∧ x.id = e.id ∧ x.kind = .task k a a ∧ x.words.length = 1
      ∧ (∀ ws, tfind x.words a = some ws → ∀ r c, r < 64 → c < 32 →
          accWord ws (32 * r + c) = if r < k.rows then o.1 r c else accWord (s.acc cl a).words (32 * r + c))
      ∧ x.status = o.2.1 ∧ x.audit = o.2.2)
  ∧ ∀ (s : State) (e : Entry) (k : TaskRec) (a b : Nat) (aud : Option Word × Bool) (r : Region), let region := s.regionOf e.gid
    (s.cluster s.obj.a).queue.find? (fun x => x.id == s.obj.b) = some e → e.kind = .task k a b → e.audit = some aud → k.rdv = none →
    tfind s.regions region = some r → s.sound = true → s.mem.wf = true → s.net = [] → (∀ g, s.group? e.gid = some g → g.state = .running) →
    let sum := match aud.1 with | some x => BitVec.ofNat 64 (addF f64 .rne r.audsum.toNat x.toNat) | none => r.audsum
    let exc := if aud.2 then r.audexc + 1 else r.audexc
    ∃ t, exec .entryCompletion s = .next t ∧ tfind t.regions region = some { r with audcnt := r.audcnt + 1, audsum := sum, audexc := exc }
      ∧ HbmHolds s t (region + 200) (leBytes 8 (r.audcnt + 1).toNat ++ leBytes 8 sum.toNat ++ leBytes 8 exc.toNat)

/-! ### Mailboxes, handles, transfers and Gaussian messages at issue -/

/-- R162 to R165, R173: mailbox tags read, set and waited for, handles claimed, waited for, read and freed, and the scan for non-zero
elements with the list that it stores. What these rules leave open is read as in log 33, the
model's own choices. -/
def Obligations.MailboxesAndHandles : Prop :=
  (∀ (f : XF) (s : State), s.admits (.mbwait f) = true → s.here.wait = .ready → s.sound = true → s.hereCore.sp.wf = true → f.a.toNat < 28 → f.d.toNat < 28 →
    s.quietReg (8 * f.d.toNat) = true →
    let n := f.aux8.toNat % 64
    let m := s.mailbox s.curCid n
    let e := (s.hereW f.a).toNat
    (2 ^ 32 ≤ e → exec (.mbwait f) s = trapOnly (.mbwait f) s .shape (s.hereW f.a))
    ∧ (e < 2 ^ 32 → m.abandon ≠ 0 ∨ e ≤ m.count →
      ∃ t, exec (.mbwait f) s = .next t ∧ s.IssuedTo t (s.here.pc + 12) ∧ t.here.own = true ∧ t.hereCore.l1 = []
        ∧ s.Changes t (fun u => { u with net := [] }) (fun c => { c with sp := [], l1 := [] })
        ∧ (f.d ≠ 0 → t.hereW f.d = if m.abandon ≠ 0 then 1 else 0)
        ∧ ∀ a, f.d = 0 ∨ a < 1024 * s.curSlot + 8 * f.d.toNat ∨ 1024 * s.curSlot + 8 * f.d.toNat + 8 ≤ a → t.spByte s.curCid a = s.spByte s.curCid a)
    ∧ (e < 2 ^ 32 → m.abandon = 0 → m.count < e →
      ∃ t, exec (.mbwait f) s = .next t ∧ s.OnlyIssue t ∧ s.WaitsAt t (s.here.pc + 12) (.mailbox n e (s.scalarDest f.d))))
  ∧ (∀ (f : XF) (s : State), s.admits (.mbread f) = true → s.here.wait = .ready → s.sound = true → f.d.toNat < 28 →
    let m := s.mailbox s.curCid (f.aux8.toNat % 64)
    ∃ t, exec (.mbread f) s = .next t ∧ s.OnlyIssue t ∧ s.IssuedTo t (s.here.pc + 12)
      ∧ t.hereCore.pend = s.hereCore.pend ++ s.scalarResult f.d 2 (BitVec.ofNat 64 (m.abandon * 2 ^ 32 + m.count)))
  ∧ (∀ (f : XF) (s : State), s.admits (.mbset f) = true → s.sound = true → f.a.toNat < 28 →
    let n := f.aux8.toNat % 64
    let a := s.hereW f.a
    (2 ^ 48 ≤ a.toNat → exec (.mbset f) s = trapOnly (.mbset f) s .illegal a)
    ∧ (a.toNat < 2 ^ 48 → s.Settled s.curCid →
      ∃ t, exec (.mbset f) s = .next t ∧ s.IssuedTo t (s.here.pc + 12) ∧ s.Changes t id (fun c => { c with mbs := [] })
        ∧ t.mailbox s.curCid n = { count := a.toNat % 2 ^ 32, abandon := a.toNat / 2 ^ 32 } ∧ ∀ k, k ≠ n → t.mailbox s.curCid k = s.mailbox s.curCid k)
    ∧ ∀ i e off, a.toNat < 2 ^ 48 → i < 16 → i ≠ s.curSlot → (∀ j, j ≠ i → (s.slot s.curCid j).wait = .ready) → (s.slot s.curCid i).wait = .mailbox n e (.reg i off) →
      (s.slot s.curCid i).live = true → (s.slot s.curCid i).guest = false → s.hereCore.sp.wf = true → a.toNat / 2 ^ 32 ≠ 0 ∨ e ≤ a.toNat % 2 ^ 32 →
      ∃ t, exec (.mbset f) s = .next t ∧ (t.slot s.curCid i).wait = .ready ∧ t.hereCore.l1 = []
        ∧ t.word64 s.curCid i off = if a.toNat / 2 ^ 32 ≠ 0 then 1 else 0)
  ∧ (∀ (f : XF) (s : State), s.admits (.hclaim f) = true → s.here.wait = .ready → s.sound = true → f.a.toNat < 28 → f.b.toNat < 28 →
    let n := f.aux8.toNat % 64
    let h := s.handle s.curCid n
    let a := s.hereW f.a
    let b := s.hereW f.b
    let meets := fun k => k ≠ n ∧ (s.handle s.curCid k).state ≠ .free ∧ (s.handle s.curCid k).base < a.toNat + b.toNat
      ∧ a.toNat < (s.handle s.curCid k).base + (s.handle s.curCid k).len
    (h.state ≠ .free → exec (.hclaim f) s = trapOnly (.hclaim f) s .handle (BitVec.ofNat 64 n))
    ∧ (h.state = .free → a.toNat % 16 ≠ 0 → exec (.hclaim f) s = .next (s.trapHere (.hclaim f) { cause := .align, tval := a, use := 1 }))
    ∧ (h.state = .free → a.toNat % 16 = 0 → b.toNat % 16 ≠ 0 ∨ b = 0 → exec (.hclaim f) s = trapOnly (.hclaim f) s .shape b)
    ∧ (h.state = .free → a.toNat % 16 = 0 → b.toNat % 16 = 0 → b ≠ 0 → a.toNat < 0x5000 ∨ 0x60000 < a.toNat + b.toNat →
        exec (.hclaim f) s = trapOnly (.hclaim f) s .shape a)
    ∧ (h.state = .free → a.toNat % 16 = 0 → b.toNat % 16 = 0 → b ≠ 0 → 0x5000 ≤ a.toNat → a.toNat + b.toNat ≤ 0x60000 →
      (∀ k, k < 64 → meets k → (∀ j, j < k → ¬meets j) → exec (.hclaim f) s = trapOnly (.hclaim f) s .shape (BitVec.ofNat 64 k))
      ∧ ((∀ k, k < 64 → ¬meets k) → ∃ t, exec (.hclaim f) s = .next t ∧ s.IssuedTo t (s.here.pc + 12) ∧ s.Changes t id (fun c => { c with hs := [] })
          ∧ (∀ k, k ≠ n → t.handle s.curCid k = s.handle s.curCid k)
          ∧ t.handle s.curCid n = { state := .filling, base := a.toNat, len := b.toNat, mb := f.aux32.toNat % 64
                                    chan := if f.aux32.toNat / 256 % 2 = 1 then some (f.aux32.toNat / 512 % 4) else none
                                    claim := h.claim + 1, latch := h.latch })))
  ∧ (∀ (f : XF) (s : State), s.admits (.hwait f) = true → s.here.wait = .ready → s.sound = true → s.hereCore.sp.wf = true → f.d.toNat < 28 →
    s.quietReg (8 * f.d.toNat) = true →
    let n := f.aux8.toNat % 64
    let h := s.handle s.curCid n
    (h.state = .filling ∨ h.state = .draining →
      ∃ t, exec (.hwait f) s = .next t ∧ s.OnlyIssue t ∧ s.WaitsAt t (s.here.pc + 12) (.handle n (s.scalarDest f.d)))
    ∧ (h.state = .free ∨ h.state = .full →
      ∃ t, exec (.hwait f) s = .next t ∧ s.IssuedTo t (s.here.pc + 12) ∧ t.here.own = true ∧ Delivers s t f.d h.status))
  ∧ (∀ (f : XF) (s : State), s.admits (.hfree f) = true → s.sound = true →
    let n := f.aux8.toNat % 64
    let h := s.handle s.curCid n
    (h.state ≠ .full ∨ 0 < h.pins → exec (.hfree f) s = trapOnly (.hfree f) s .handle (BitVec.ofNat 64 n))
    ∧ (h.state = .full → h.pins = 0 → s.Settled s.curCid →
      ∃ t, exec (.hfree f) s = .next t ∧ s.IssuedTo t (s.here.pc + 12) ∧ s.Changes t id (fun c => { c with hs := [], norms := [] })
        ∧ t.handle s.curCid n = { h with state := .free, norm := none } ∧ (∀ k, k ≠ n → t.handle s.curCid k = s.handle s.curCid k)
        ∧ ∀ j, t.normEntry s.curCid j = if (∃ u, h.norm = some u ∧ u.first ≤ j ∧ j < u.first + u.count) then {} else s.normEntry s.curCid j))
  ∧ (∀ (f : XF) (s : State), s.admits (.hstat f) = true → s.here.wait = .ready → s.sound = true → f.d.toNat < 28 →
    let h := s.handle s.curCid (f.aux8.toNat % 64)
    ∃ t, exec (.hstat f) s = .next t ∧ s.OnlyIssue t ∧ s.IssuedTo t (s.here.pc + 12) ∧ t.hereCore.pend = s.hereCore.pend ++ s.scalarResult f.d 2 h.status)
  ∧ (∀ (f : XF) (s : State), s.admits (.nzscan f) = true → s.here.wait = .ready → s.sound = true → f.a.toNat < 28 → f.b.toNat < 28 → f.c.toNat < 28 →
    f.d.toNat < 28 → s.here.guest = false →
    let a := s.hereW f.a
    let b := s.hereW f.b
    let c := (s.hereW f.c).toNat
    let size := elementBits f.et.toNat / 8
    let units := (c * size + 15) / 16
    (65535 < c → exec (.nzscan f) s = trapOnly (.nzscan f) s .shape (s.hereW f.c))
    ∧ (c ≤ 65535 → a.toNat % 16 ≠ 0 → exec (.nzscan f) s = .next (s.trapHere (.nzscan f) { cause := .align, tval := a, use := 1 }))
    ∧ (c ≤ 65535 → a.toNat % 16 = 0 → 0x60000 < a.toNat + 16 * units → exec (.nzscan f) s = .next (s.trapHere (.nzscan f) { cause := .shape, tval := a, use := 1 }))
    ∧ (c ≤ 65535 → a.toNat % 16 = 0 → a.toNat + 16 * units ≤ 0x60000 → b.toNat % 16 = 0 → b.toNat + 4 * c ≤ 0x60000 →
        s.scratchLocked s.curCid a.toNat (16 * units) false = false → s.scratchLocked s.curCid b.toNat (4 * c) true = false →
      let value := fun k => leNat (ownBytes s (a.toNat + size * k) size)
      let zero := fun k => if 9 ≤ f.et.toNat then value k % 2 ^ (8 * size - 1) = 0 else value k = 0
      let found := (List.range c).filter fun k => !decide (zero k)
      ∃ t, exec (.nzscan f) s = .next t ∧ s.OnlyAccess t ∧ s.WaitsAt t (s.here.pc + 12) (.engine s.serial)
        ∧ { due := .cycle (s.cycle + units), rank := rankOf s.curCid, ins := .interlockedResult, obj := { a := s.serial } } ∈ t.agenda
        ∧ ∃ m ∈ t.net, m.id = s.serial ∧ m.kind = .instr ∧ m.cid = s.curCid ∧ m.slot = s.curSlot ∧ m.serial = s.here.serial ∧ m.ins = .nzscan f
            ∧ m.va = BitVec.ofNat 64 found.length ∧ m.dest = s.scalarDest f.d ∧ m.units.map (·.addr) = [b.toNat]
            ∧ m.bytes = found.flatMap fun k => leBytes 4 k))
  ∧ (∀ (s : State) (m : Msg) (f : XF) (c i : Nat), stepMessage s m → m.kind = .instr → m.ins = .nzscan f → s.ownerOf m.cid m.slot m.serial = some (c, i) →
    (s.slot c i).wait = .engine m.id → s.obj.c = 0 →
    ∃ t, exec .interlockedResult s = .next t ∧ s.KeepsBytes t
      ∧ { due := .turn c (s.nextOwn c i), rank := rankOf c, ins := .interlockedResult, obj := { a := m.id, c := 1 } } ∈ t.agenda)
  ∧ ∀ (s : State) (m : Msg) (f : XF) (c i off w : Nat), stepMessage s m → m.kind = .instr → m.ins = .nzscan f → s.ownerOf m.cid m.slot m.serial = some (c, i) →
    (s.slot c i).wait = .engine m.id → s.obj.c = 1 → m.units = [{ home := .scratch c, addr := off }] → m.dest = .reg i w → w + 8 ≤ 1024 →
    (s.slot c i).guest = false → (s.core c).sp.wf = true → s.sound = true → s.unwritten c off m.bytes.length = true → s.unwatched (.scratch c) off m.bytes.length = true →
    off + m.bytes.length ≤ 1024 * i + w ∨ 1024 * i + w + 8 ≤ off →
    ∃ t, exec .interlockedResult s = .next t ∧ t.mem = s.mem ∧ (t.slot c i).wait = .ready ∧ t.word64 c i w = m.va
      ∧ (∀ k, k < m.bytes.length → t.spByte c (off + k) = m.bytes.getD k 0)
      ∧ ∀ a, (a < off ∨ off + m.bytes.length ≤ a) → (a < 1024 * i + w ∨ 1024 * i + w + 8 ≤ a) → t.spByte c a = s.spByte c a

/-- R161, R166, R172, R174, R175: SEND, GATHER, RSCAT and VDEC make their checks in order, and post a transfer that the unit takes, or for which
the context waits. What these rules leave open is read as in log 35 and log 39, the model's own
choices. -/
def Obligations.TransfersPosted : Prop :=
  (∀ (f : XF) (s : State), s.admits (.send f) = true → s.here.wait = .ready → s.sound = true → f.a.toNat < 28 → f.b.toNat < 28 → f.c.toNat < 28 →
    f.d.toNat < 28 → s.here.guest = false →
    let a := s.hereW f.a
    let b := s.hereW f.b
    let len := (s.hereW f.c).toNat
    let x := f.aux8.toNat % 64
    let toH := f.aux8.getLsbD 6
    let sh := f.aux8.getLsbD 7
    let swz := f.aux32.toNat / 65536 % 256
    let h := s.handle s.curCid b.toNat
    let lenOk := len % 16 = 0 ∧ 16 ≤ len ∧ len ≤ 2 ^ 32 - 16
    (¬lenOk → exec (.send f) s = trapOnly (.send f) s .shape (s.hereW f.c))
    ∧ (lenOk → sh = true → 64 ≤ b.toNat ∨ h.state ≠ .full ∨ 0 < h.pins → exec (.send f) s = trapOnly (.send f) s .handle b)
    ∧ (lenOk → sh = true → b.toNat < 64 → h.state = .full → h.pins = 0 → h.len < len → exec (.send f) s = trapOnly (.send f) s .shape (BitVec.ofNat 64 len))
    ∧ (lenOk → sh = false → b.toNat % 16 ≠ 0 → exec (.send f) s = .next (s.trapHere (.send f) { cause := .align, tval := b, use := 2 }))
    ∧ (lenOk → (if sh then b.toNat < 64 ∧ h.state = .full ∧ h.pins = 0 ∧ len ≤ h.len ∧ h.base + h.len ≤ 0x60000
          else b.toNat % 16 = 0 ∧ b.toNat + len ≤ 0x60000 ∧ s.scratchLocked s.curCid b.toNat len false = false) →
      (a.toNat % 16 ≠ 0 → exec (.send f) s = .next (s.trapHere (.send f) { cause := .align, tval := a, use := 1, write := true }))
      ∧ (a.toNat % 16 = 0 → toH = true → a.toNat < 2 ^ 19 → s.scratchLocked s.curCid ((s.handle s.curCid x).base + a.toNat) len true = true →
          exec (.send f) s = .next (s.trapHere (.send f)
            { cause := .rangeLock, tval := BitVec.ofNat 64 ((s.handle s.curCid x).base + a.toNat), use := 1, write := true }))
      ∧ (a.toNat % 16 = 0 →
          (if toH then a.toNat < 2 ^ 19 ∧ s.scratchLocked s.curCid ((s.handle s.curCid x).base + a.toNat) len true = false
            else a.toNat + len ≤ 0x60000 ∧ s.scratchLocked s.curCid a.toNat len true = false) →
        (s.livePitchUp s.curCid s.here.region = false → exec (.send f) s = .next (s.trapHere (.send f) { cause := .peerGone, tval := a, use := 1 }))
        ∧ (s.livePitchUp s.curCid s.here.region = true →
          (4 < swz → exec (.send f) s = trapOnly (.send f) s .shape (BitVec.ofNat 64 swz))
          ∧ (swz ≤ 4 → sh = true → swz ≠ 0 → h.swz ≠ 0 → exec (.send f) s = trapOnly (.send f) s .shape b)
          ∧ (swz ≤ 4 → sh = false ∨ swz = 0 ∨ h.swz = 0 → (∀ p ∈ s.transfers, p.id ≠ s.serial) →
            ∃ t, exec (.send f) s = .next t
              ∧ Transfers s t 12 (if sh then 0 else 1) (.send
                  { srcHandle := if sh then some b.toNat else none, src := if sh then BitVec.ofNat 64 h.base else b, dst := a.toNat, len := len
                    scratch := !toH, toHandle := toH, x := x, counted := true
                    done := if f.aux32.toNat / 64 % 2 = 1 then some (f.aux32.toNat % 64) else none, swz := swz })
              ∧ ∀ n, t.handle s.curCid n = if sh = true ∧ n = b.toNat ∧ unitTakes s (.send {}) 0 = true then { h with state := .draining } else s.handle s.curCid n)))))
  ∧ (∀ (f : XF) (s : State), s.admits (.gather f) = true → s.here.wait = .ready → s.sound = true → f.a.toNat < 28 → f.b.toNat < 28 → f.c.toNat < 28 →
    s.here.guest = false →
    let k := f.aux32.toNat % 64
    let n := f.aux8.toNat % 64
    let l := lastHere s k
    let b := s.hereW f.b
    let c := (s.hereW f.c).toNat
    let base := if s.hereW f.a = 0 then l.base else s.hereW f.a
    let h := s.handle s.curCid n
    let rows := l.hnd = false ∧ l.extent 0 * elementBits l.etype % 128 = 0 ∧ (l.stride 1).toNat % 16 = 0 ∧ base.toNat % 16 = 0
    (65536 ≤ c → exec (.gather f) s = trapOnly (.gather f) s .shape (s.hereW f.c))
    ∧ (c < 65536 → s.scratchLocked s.curCid (0x4000 + 64 * k) 64 false = false →
      (l.valid = false ∨ ¬rows → exec (.gather f) s = trapOnly (.gather f) s .shape (BitVec.ofNat 64 k))
      ∧ (l.valid = true → rows → h.state ≠ .filling → exec (.gather f) s = trapOnly (.gather f) s .handle (BitVec.ofNat 64 n))
      ∧ (l.valid = true → rows → h.state = .filling → h.len < c * l.rowBytes → exec (.gather f) s = trapOnly (.gather f) s .shape (s.hereW f.c))
      ∧ (l.valid = true → rows → h.state = .filling → c * l.rowBytes ≤ h.len → b.toNat % 16 ≠ 0 ∨ b.toNat < 0x5000 ∨ 0x60000 < b.toNat + 4 * c →
          exec (.gather f) s = trapOnly (.gather f) s .shape b)
      ∧ (l.valid = true → rows → h.state = .filling → c * l.rowBytes ≤ h.len → b.toNat % 16 = 0 → 0x5000 ≤ b.toNat → b.toNat + 4 * c ≤ 0x60000 →
          (∀ p ∈ s.transfers, p.id ≠ s.serial) →
        ∃ t, exec (.gather f) s = .next t
          ∧ Transfers s t 12 (if c = 0 then 0 else 1) (.gather
              { home := s.here.home, h := n, claim := h.claim, mb := h.mb, base := base, stride := l.stride 1, rows := Nat.max (l.extent 1) 1
                rowBytes := l.rowBytes, list := b.toNat, count := c, swz := l.swz })
          ∧ ∀ p, t.transfers.getLast? = some p → p.accepted = true →
              if c = 0 then Due_ t .gatherCompletion { a := p.id } else Due_ t .transferAccept { a := s.curCid, b := p.id })))
  ∧ (∀ (f : XF) (s : State), s.admits (.rscat f) = true → s.here.wait = .ready → s.sound = true → f.a.toNat < 28 →
    let a := s.hereW f.a
    (a.toNat % 128 ≠ 0 → exec (.rscat f) s = .next (s.trapHere (.rscat f) { cause := .align, tval := a, use := 1 }))
    ∧ ∀ off, a.toNat % 128 = 0 → ownUnits s a off 8 false →
      let bs := ownBytes s off 128
      let g := fieldOf bs
      let w := fun o => BitVec.ofNat 64 (g o 8)
      let openSlot := (tfind (s.die (dieOf s.curCid)).plans (g 2 1)).isSome
      (∀ o, planFault bs = some o → exec (.rscat f) s = trapOnly (.rscat f) s .shape (BitVec.ofNat 64 o))
      ∧ (planFault bs = none → openSlot = true → exec (.rscat f) s = trapOnly (.rscat f) s .shape 2)
      ∧ (planFault bs = none → openSlot = false → (∀ p ∈ s.transfers, p.id ≠ s.serial) →
        ∃ t, exec (.rscat f) s = .next t
          ∧ Transfers s t 12 0 (.rscat
              { home := s.here.home, etype := g 0 1, stream := g 1 1 % 2 == 1, rdv := if g 1 1 / 2 % 2 = 1 then some (g 3 1) else none, slot := g 2 1
                n := g 4 2, rank := g 6 2, elems := g 8 8, src := w 16, dst := w 24, next := w 32, planid := w 40, mb := g 48 1 })
          ∧ (g 1 1 % 2 = 1 → t.transfers.getLast?.any (·.accepted) = true → tfind (t.die (dieOf s.curCid)).plans (g 2 1) = some s.serial)))
  ∧ ∀ (f : XF) (s : State), s.admits (.vdec f) = true → s.here.wait = .ready → s.sound = true → f.a.toNat < 28 → s.here.guest = false →
    let a := s.hereW f.a
    (a.toNat % 64 ≠ 0 → exec (.vdec f) s = .next (s.trapHere (.vdec f) { cause := .align, tval := a, use := 1 }))
    ∧ ∀ off, a.toNat % 64 = 0 → ownUnits s a off 4 false →
      let bs := ownBytes s off 64
      let g := fieldOf bs
      let entries := (List.range (g 4 2)).map fun k => leNat (ownBytes s (g 24 8 + 8 * k) 8)
      (∀ o, commandFault bs = some o → exec (.vdec f) s = trapOnly (.vdec f) s .shape (BitVec.ofNat 64 o))
      ∧ (commandFault bs = none → s.scratchLocked s.curCid (g 24 8) (8 * g 4 2) false = false →
        ((∃ e ∈ entries, e ≠ e % 2048 + e / 65536 % 64 * 65536) → exec (.vdec f) s = trapOnly (.vdec f) s .shape 24)
        ∧ ((∀ e ∈ entries, e = e % 2048 + e / 65536 % 64 * 65536) → (∀ p ∈ s.transfers, p.id ≠ s.serial) →
          ∃ t, exec (.vdec f) s = .next t
            ∧ Transfers s t 12 0 (.vdec
                { dec := g 0 1, rdv := if g 1 1 = 1 then some (g 3 1) else none, outfmt := g 2 1, frames := g 4 2, bs := BitVec.ofNat 64 (g 8 8)
                  bslen := g 16 8, x := g 32 2, y := g 34 2, w := g 36 2, h := g 38 2, errmb := g 40 1
                  targets := entries.map fun e => (e % 2048, e / 65536 % 64) })))

/-- R179, R180, R184, R185, R187: the checks of Gaussian blocks, the requests that they become, and messages sent and polled.
What these rules leave open is read as in log 36, the model's own choices. -/
def Obligations.GaussianMessages : Prop :=
  (∀ (f : XF) (s : State), s.sound = true → f.a.toNat < 28 → f.b.toNat < 28 → f.d.toNat < 28 → s.here.wait = .ready →
    ∀ p ∈ gaussRequests s f, s.admits p.1 = true →
    (∀ q ∈ p.2.1.head?, (q.1.toNat % q.2.1 ≠ 0 → exec p.1 s = .next (s.trapHere p.1 { cause := .align, tval := q.1, use := 1 }))
      ∧ (q.1.toNat % q.2.1 = 0 → q.1.toNat < 0x5000 ∨ 0x60000 < q.1.toNat + q.2.2.1 → exec p.1 s = .next (s.trapHere p.1 { cause := .shape, tval := q.1, use := 1 }))
      ∧ (q.1.toNat % q.2.1 = 0 → 0x5000 ≤ q.1.toNat → q.1.toNat + q.2.2.1 ≤ 0x60000 → s.scratchLocked s.curCid q.1.toNat q.2.2.1 false = true →
          exec p.1 s = .next (s.trapHere p.1 { cause := .rangeLock, tval := q.1, use := 1 })))
    ∧ ((∀ q ∈ p.2.1, gaussGood s q.1 q.2.1 q.2.2.1 q.2.2.2) →
      ∃ t, exec p.1 s = .next t ∧ s.WaitsAt t (s.here.pc + 12) (.sfu s.serial) ∧ s.Changes t (fun u => { u with clusters := [], serial := 0 }) id
        ∧ (∀ k, k ≠ myCluster s → t.cluster k = s.cluster k)
        ∧ { t.cluster (myCluster s) with sfu := [] } = { s.cluster (myCluster s) with sfu := [] }
        ∧ (t.cluster (myCluster s)).sfu.dropLast = (s.cluster (myCluster s)).sfu
        ∧ ∃ r, (t.cluster (myCluster s)).sfu.getLast? = some r ∧ r.id = s.serial ∧ r.cid = s.curCid ∧ r.slot = s.curSlot ∧ r.serial = s.here.serial
            ∧ r.cycle = s.cycle ∧ r.ins = p.1 ∧ r.addrs = p.2.2.1 ∧ r.served = false
            ∧ r.inputs.a.toNat = if p.2.2.2 then (s.word64 s.curCid s.curSlot wsGctl).toNat else 0))
  ∧ (∀ (f : XF) (s : State) (d : Nat), s.admits (.gmsend f) = true → s.here.wait = .ready → s.sound = true → f.a.toNat < 28 → f.b.toNat < 28 →
    s.here.guest = false → s.Settled s.curCid →
    let a := s.hereW f.a
    let b := s.hereW f.b
    let n := (s.spByte s.curCid (b.toNat + 1)).toNat
    let msg := recordElems s.hereCore.sp b.toNat n
    (a.toNat % 64 ≠ 0 → exec (.gmsend f) s = .next (s.trapHere (.gmsend f) { cause := .align, tval := a, use := 1, write := true }))
    ∧ (a.toNat = d → d % 64 = 0 → d + 320 ≤ 0x60000 → s.scratchLocked s.curCid d 320 true = false → gaussGood s b 64 320 false →
      (n < 1 ∨ 8 < n → exec (.gmsend f) s = .next (s.trapHere (.gmsend f) { cause := .shape, tval := b, use := 2 }))
      ∧ (1 ≤ n → n ≤ 8 → s.hereCore.sp.wf = true → s.unwritten s.curCid d 320 = true → s.unwatched (.scratch s.curCid) d 320 = true →
        ∃ t, exec (.gmsend f) s = .next t ∧ s.IssuedTo t (s.here.pc + 12)
          ∧ GaussLands s t s.curCid d n (spWord s.hereCore.sp (b.toNat + 4)) s.curCid msg))
    ∧ ∀ c, a.toNat = 2 ^ 55 + c * 2 ^ 19 + d → c < 2048 → c ≠ s.curCid → d % 64 = 0 → d + 320 ≤ 0x60000 → gaussGood s b 64 320 false → 1 ≤ n → n ≤ 8 →
      ∃ t, exec (.gmsend f) s = .next t ∧ s.OnlyAccess t ∧ (s.ustore s.here.serial < 64 → s.IssuedTo t (s.here.pc + 12))
        ∧ s.Sends t fun m => s.isFromHere m a { home := .scratch c, addr := d } 320 ∧ m.kind = .gmsend
            ∧ m.bytes = leBytes 1 n ++ ownBytes s (b.toNat + 4) 4 ++ msg.flatMap fun x => leBytes 4 x)
  ∧ ∀ (f : XF) (s : State), s.admits (.gmpoll f) = true → s.here.wait = .ready → s.sound = true → f.a.toNat < 28 → f.d.toNat < 28 →
    let a := s.hereW f.a
    let k := f.aux8.toNat % 64 + 1
    let resid := fun i => spWord s.hereCore.sp (a.toNat + 320 * i + 8)
    let rank := fun i => if (decodeF f32 (resid i)).isNan then 2 ^ 31 else if resid i < 2 ^ 31 then resid i else 0
    (a.toNat % 64 ≠ 0 → exec (.gmpoll f) s = .next (s.trapHere (.gmpoll f) { cause := .align, tval := a, use := 1, write := true }))
    ∧ (gaussGood s a 64 (320 * k) true →
      ((∀ i, i < k → rank i = 0) →
        ∃ t, exec (.gmpoll f) s = .next t ∧ s.OnlyIssue t ∧ s.IssuedTo t (s.here.pc + 12)
          ∧ t.hereCore.pend = s.hereCore.pend ++ s.scalarResult f.d 6 (BitVec.allOnes 64))
      ∧ ∀ i, i < k → 0 < rank i → (∀ j, j < i → rank j < rank i) → (∀ j, i < j → j < k → rank j ≤ rank i) → s.hereCore.sp.wf = true →
        s.unwritten s.curCid (a.toNat + 320 * i + 8) 4 = true → s.unwatched (.scratch s.curCid) (a.toNat + 320 * i + 8) 4 = true →
        ∃ t, exec (.gmpoll f) s = .next t ∧ s.StoresHere t (a.toNat + 320 * i + 8) 4 ∧ s.IssuedTo t (s.here.pc + 12)
          ∧ t.hereCore.pend = s.hereCore.pend ++ s.scalarResult f.d 6 (BitVec.ofNat 64 i) ∧ spWord t.hereCore.sp (a.toNat + 320 * i + 8) = 0)

/-- R123, R180 to R183, R186: the service of a Gaussian request, and what its completion writes: sums and differences, plain and in a
joint block; the elimination of a block and the mean by the factor of R182, with clamped pivots, or the trap at a singular one; and
damping. What these rules leave open is read as in log 13 and log 36, the model's own choices. -/
def Obligations.GaussianResults : Prop :=
  (∀ (s : State) (r : SfuReq) (f : XF), let cl := s.obj.a
    s.obj.b = 0 → r ∈ (s.cluster cl).sfu → r.served = false →
    (∀ q ∈ (s.cluster cl).sfu, q.served = false → q = r ∨ r.cycle < q.cycle ∨ (r.cycle = q.cycle ∧ r.cid < q.cid)) → r.cycle < s.cycle → (s.cluster cl).sfuFree ≤ s.cycle →
    let n := f.aux8.toNat % 16 + 1
    ∀ p ∈ [(Instr.gmadd f, 18), (.gmaddJ f, 18), (.gmsub f, 18), (.gmsubJ f, 18), (.gmdamp f, 18), (.gmschur f, 8 + 2 * n ^ 2),
        (.gmmean f, 8 + 2 * (f.aux8.toNat % 8 + 1) ^ 2)], r.ins = p.1 →
      ∃ t, exec .sfuServiceStart s = .next t ∧ s.KeepsBytes t ∧ (t.cluster cl).sfuFree = s.cycle + p.2
        ∧ { due := .cycle s.cycle, rank := rankOf r.cid, ins := .sfuServiceStart, obj := { a := cl, b := r.id } } ∈ t.agenda
        ∧ { due := .cycle (s.cycle + 24 + p.2), rank := rankOf r.cid, ins := .sfuCompletion, obj := { a := cl, b := r.id } } ∈ t.agenda)
  ∧ (∀ (s : State) (r : SfuReq) (f : XF) (a b d : Nat) (sub : Bool), gaussReady s r d 320 → r.ins = (if sub then .gmsub f else .gmadd f) → r.addrs = [a, b, d] →
    let n := f.aux8.toNat % 8 + 1
    let op := fun x y => roundF f32 .rne (FVal.add false (decodeF f32 x) (if sub then (decodeF f32 y).neg else decodeF f32 y))
    let sp := (s.core r.cid).sp
    Serves s r fun u => RecordIs s u r d n (fun i => op (spWord sp (a + 32 + 4 * i)) (spWord sp (b + 32 + 4 * i)))
      (fun i j => op (spWord sp (a + 64 + 32 * i + 4 * j)) (spWord sp (b + 64 + 32 * i + 4 * j))) none false)
  ∧ (∀ (s : State) (r : SfuReq) (f : XF) (a b d : Nat) (sub : Bool), gaussReady s r d 1088 → r.ins = (if sub then .gmsubJ f else .gmaddJ f) → r.addrs = [a, b, d] →
    let n := f.aux8.toNat % 8 + 1
    let o := f.aux32.toNat / 2 % 16
    let op := fun x y => roundF f32 .rne (FVal.add false (decodeF f32 x) (if sub then (decodeF f32 y).neg else decodeF f32 y))
    let sp := (s.core r.cid).sp
    let inside := fun i => o ≤ i ∧ i < o + n
    Serves s r fun u =>
      (∀ i, i < 16 → spWord (u.core r.cid).sp (d + 4 * i) =
        if inside i then op (spWord sp (a + 4 * i)) (spWord sp (b + 32 + 4 * (i - o))) else spWord sp (a + 4 * i))
      ∧ (∀ i j, i < 16 → j < 16 → spWord (u.core r.cid).sp (d + 64 + 64 * i + 4 * j) =
          if inside i ∧ inside j then op (spWord sp (a + 64 + 64 * i + 4 * j)) (spWord sp (b + 64 + 32 * (i - o) + 4 * (j - o))) else spWord sp (a + 64 + 64 * i + 4 * j))
      ∧ ∀ x, x < d ∨ d + 1088 ≤ x → u.spByte r.cid x = s.spByte r.cid x)
  ∧ (∀ (s : State) (r : SfuReq) (f : XF) (a b d : Nat), gaussReady s r d 320 → r.ins = .gmdamp f → r.addrs = [a, b, d] →
    let n := f.aux8.toNat % 8 + 1
    let delta := f.aux32.toNat % 65536
    let sp := (s.core r.cid).sp
    let mix := fun x y => if delta = 0 then x
      else roundF f32 .rne (FVal.add false (FVal.mul (.fin false (65536 - delta) (-16)) (decodeF f32 x)) (FVal.mul (.fin false delta (-16)) (decodeF f32 y)))
    let far := fun (acc x y : Nat) =>
      let v := FVal.add false (decodeF f32 (mix x y)) (decodeF f32 y).neg
      roundF f32 .rne (FVal.add false (decodeF f32 acc) (match v with | .fin _ m e => .fin false m e | .inf _ => .inf false | .nan => .nan))
    Serves s r fun u => RecordIs s u r d n (fun i => mix (spWord sp (a + 32 + 4 * i)) (spWord sp (b + 32 + 4 * i)))
      (fun i j => mix (spWord sp (a + 64 + 32 * i + 4 * j)) (spWord sp (b + 64 + 32 * i + 4 * j)))
      (some ((List.zip (recordElems sp a n) (recordElems sp b n)).foldl (fun acc p => far acc p.1 p.2) 0)) false)
  ∧ (∀ (s : State) (r : SfuReq) (f : XF) (a b d m : Nat) (e : Int) (thr : Nat) (L W : Nat → Nat → Nat) (z : Nat → Nat), gaussReady s r d 320 → r.ins = .gmschur f → r.addrs = [a, b, d] →
    let n := f.aux8.toNat % 16 + 1
    let k := f.aux8.toNat / 16 % 8 + 1
    let p := n - k
    let gctl := r.inputs.a.toNat
    let sp := (s.core r.cid).sp
    let eta := fun i => spWord sp (a + 4 * i)
    let lam := fun i j => spWord sp (a + 64 + 64 * i + 4 * j)
    let M := fun i j => lam (k + i) (k + j)
    k ≤ n →
    (0 < p → noThreshold M p → Singular s r k)
    ∧ (∀ j, j < p → isThreshold M p (gctl % 64) m e thr → isFactor M p thr L j → (∀ i, i < j → lowPivot M L thr i = true → gctl / 256 % 2 = 1) →
        lowPivot M L thr j = true → gctl / 256 % 2 = 0 → Singular s r (k + j))
    ∧ ((0 < p → isThreshold M p (gctl % 64) m e thr) → isFactor M p thr L p → (∀ j, j < p → lowPivot M L thr j = true → gctl / 256 % 2 = 1) →
        (∀ c i, c < k → i < p → W i c = divF f32 .rne (lessProducts (lam (k + i) c) (L i) (fun x => W x c) (List.range i)) (L i i)) →
        (∀ i, i < p → z i = divF f32 .rne (lessProducts (eta (k + i)) (L i) z (List.range i)) (L i i)) →
      let clamped := (List.range p).any (lowPivot M L thr)
      let out := fun i j => lessProducts (lam i j) (fun x => W x i) (fun x => W x j) (List.range p)
      Serves s r fun u => RecordIs s u r d k (fun i => lessProducts (eta i) (fun x => W x i) z (List.range p))
        (fun i j => if j ≤ i then out i j else out j i) none clamped ∧ ClampTold s u r clamped))
  ∧ ∀ (s : State) (r : SfuReq) (f : XF) (a b d m : Nat) (e : Int) (thr : Nat) (L : Nat → Nat → Nat) (y mu : Nat → Nat), gaussReady s r d 32 → r.ins = .gmmean f → r.addrs = [a, b, d] →
    let n := f.aux8.toNat % 8 + 1
    let gctl := r.inputs.a.toNat
    let sp := (s.core r.cid).sp
    let M := fun i j => spWord sp (a + 64 + 32 * i + 4 * j)
    (noThreshold M n → Singular s r 0)
    ∧ (∀ j, j < n → isThreshold M n (gctl % 64) m e thr → isFactor M n thr L j → (∀ i, i < j → lowPivot M L thr i = true → gctl / 256 % 2 = 1) →
        lowPivot M L thr j = true → gctl / 256 % 2 = 0 → Singular s r j)
    ∧ (isThreshold M n (gctl % 64) m e thr → isFactor M n thr L n → (∀ j, j < n → lowPivot M L thr j = true → gctl / 256 % 2 = 1) →
        (∀ i, i < n → y i = divF f32 .rne (lessProducts (spWord sp (a + 32 + 4 * i)) (L i) y (List.range i)) (L i i)) →
        (∀ i, i < n → mu i = divF f32 .rne (lessProducts (y i) (fun x => L x i) mu (rangeFrom (i + 1) (n - 1 - i))) (L i i)) →
      let clamped := (List.range n).any (lowPivot M L thr)
      let gw := 1024 * r.slot + wsGctl
      Serves s r fun u => (∀ i, i < 8 → spWord (u.core r.cid).sp (d + 4 * i) = if i < n then mu i else 0) ∧ ClampTold s u r clamped
        ∧ ∀ x, x < d ∨ d + 32 ≤ x → (clamped = false ∨ x < gw ∨ gw + 8 ≤ x) → u.spByte r.cid x = s.spByte r.cid x)

/-! ### Transfers on their way -/

/-- R161, R167 to R169, R171, R275: a posting taken by its unit; the lock message; the gate's requests, grants in order of priority
and of source, tokens that arrive and expire; packets that land; the release of the source; DONE; and a failing tier.
What these rules leave open is read as in log 13, log 39 and log 65, the model's own choices. -/
def Obligations.SendSteps : Prop :=
  (∀ (s : State) (p : Transfer) (c i : Nat), s.obj.b = 0 → (s.transfers.filter fun q => (!q.accepted || q.relock) && q.cid == s.obj.a && q.sender.isNone) = [p] →
    (∀ q ∈ s.transfers, q.id = p.id → q = p) → p.accepted = false → State.TransferKind.tag p.kind ≠ 0 → p.far = none → p.recvNode = none → s.sound = true → s.slotTaken p = false → s.ownerOf p.cid p.slot p.serial = some (c, i) → (s.slot c i).wait = .accept →
    let room := (s.unitHolds p.cid p.kind).length < State.unitSize (State.TransferKind.tag p.kind) ∧ (s.transferLocks p).length ≤ 32 - (s.cluster (clusterOf p.cid)).locks.length
    (¬room → exec .transferAccept s = .next s)
    ∧ (room → ∃ t, exec .transferAccept s = .next t ∧ s.KeepsBytes t ∧ (t.slot c i).wait = .ready ∧ ∃ q, t.transfer? p.id = some q ∧ q.accepted = true ∧ q.kind = p.kind
          ∧ q.place ∉ s.unitHolds p.cid p.kind ∧ ∀ n, n < q.place → n ∈ s.unitHolds p.cid p.kind))
  ∧ (∀ (s : State) (m : Msg) (id : Nat), stepMessage s m → m.kind = .lockMsg id → s.obj.ok = false →
    ∃ t, exec .lockMessageArrival s = .next t ∧ s.KeepsBytes t ∧ (∀ x ∈ t.net, x.id ≠ m.id) ∧ (∀ c, t.cluster c = s.cluster c)
      ∧ { due := .cycle s.cycle, rank := takeRank m.cid, ins := .lockMessageArrival, obj := { a := id, ok := true } } ∈ t.agenda)
  ∧ (∀ (s : State) (p : Transfer) (r : SendRec), stepTransfer s p → p.kind = .send r → p.locked = false → s.obj.ok = true →
    let open_ := s.livePitchUp p.receiver p.region = true ∧ (r.toHandle = true → (s.handle p.receiver r.x).state ≠ .free)
    let k := clusterOf p.receiver
    let lock : Lock := { full := true, global := false, core := p.receiver % 4, region := 0, base := if r.toHandle then (s.handle p.receiver r.x).base + r.dst else r.dst
                         len := r.len, hkind := 1, hidx := p.place, holder := p.id, since := s.cycle }
    (open_ → 32 ≤ (s.cluster k).locks.length →
      ∃ t, exec .lockMessageArrival s = .next t ∧ s.KeepsBytes t ∧ t.agenda = s.agenda ∧ t.transfer? p.id = some { p with lockWaits := true } ∧ (t.cluster k).locks = (s.cluster k).locks)
    ∧ (open_ ∧ (s.cluster k).locks.length < 32 ∨ ¬open_ →
      ∃ t, exec .lockMessageArrival s = .next t ∧ s.KeepsBytes t ∧ t.transfer? p.id = some { p with locked := true, lockWaits := false }
        ∧ (open_ → (t.cluster k).locks = (s.cluster k).locks ++ [lock]) ∧ (¬open_ → (t.cluster k).locks = (s.cluster k).locks)
        ∧ (p.nodes = [] → p.here = true → ∀ x ∈ p.packets, x.landed = false → Due_ t .packetLanding { a := p.id, b := x.n })))
  ∧ (∀ (s : State) (p : Transfer), stepTransfer s p → p.orphaned = false → (s.die p.gate).requests.contains p.id = false →
    (∀ g, s.group? p.gid = some g → g.saved = none) →
    ∃ t, exec .gateRequest s = .next t ∧ s.KeepsBytes t ∧ (t.die p.gate).requests = (s.die p.gate).requests ++ [p.id] ∧ Due_ t .tokenGrant { a := p.gate })
  ∧ (∀ (s : State), let d := s.obj.a
    ((s.die d).tokmax ≤ s.tokensOut d → exec .tokenGrant s = .next s)
    ∧ ∀ (p : Transfer) (r : SendRec) (k : Token), s.tokensOut d + 1 = (s.die d).tokmax → p ∈ s.liveRequests d → p.gate = d → (∀ n, s.effMinshare n = 0) → p.sender = none → p.cid < 4096 →
      (∀ q ∈ s.liveRequests d, q.prio < p.prio ∨ (q.prio = p.prio ∧ (s.senderKey p < s.senderKey q ∨ q = p))) → (∀ q ∈ s.transfers, q.id = p.id → q = p) →
      tfind (s.die d).served p.prio = none → p.tokens.find? (fun x => !x.granted) = some k → (∀ x ∈ p.tokens, x.k = k.k → x = k) →
      p.kind = .send r → p.prefixed + 4 * k.k < packetCount r.len → (∀ x ∈ p.packets, x.n ≠ p.prefixed + 4 * k.k) →
      let k' : Token := { k with granted := true, grants := k.grants + 1, used := false }
      ∃ t, exec .tokenGrant s = .next t ∧ s.KeepsBytes t ∧ (∀ q ∈ s.transfers, q.id ≠ p.id → q ∈ t.transfers)
        ∧ t.transfer? p.id = some { p with tokens := p.tokens.map fun x => if x.k = k.k then k' else x }
        ∧ Due_ t .tokenArrival { a := p.id, b := k.k, c := k'.grants }
        ∧ { due := .gtc (s.gtc.toNat + (s.die d).tokexp), rank := rankOf (gateSource d), ins := .tokenExpiry, obj := { a := p.id, b := k.k, c := k'.grants } } ∈ t.agenda
        ∧ tfind (t.die d).served p.prio = some (s.node, p.cid))
  ∧ (∀ (s : State) (p : Transfer) (r : SendRec) (k : Token), stepTransfer s p → p.kind = .send r →
    p.tokens.find? (fun x => x.k == s.obj.b && x.granted && x.grants == s.obj.c) = some k →
    (k.used = true → exec .tokenArrival s = .next s ∧ exec .tokenExpiry s = .next s)
    ∧ (k.used = false → p.dying = false → (∀ x ∈ p.tokens, x.k = k.k → x = k) →
      ∃ t, exec .tokenExpiry s = .next t ∧ s.KeepsBytes t ∧ Due_ t .tokenGrant { a := p.gate }
        ∧ t.transfer? p.id = some { p with tokens := p.tokens.map fun x => if x.k = k.k then { x with granted := false } else x })
    ∧ (k.used = false → p.orphaned = false → p.dying = false → s.sound = true → r.src.toNat + r.len ≤ 0x60000 → 0 < r.len → r.len % 16 = 0 →
      let ns := p.tokenPackets k.k
      let packet := fun n => ({ n := n, bytes := (List.range (Nat.min 4096 (r.len - 4096 * n))).map fun j => s.spByte p.cid (r.src.toNat + 4096 * n + j) } : Packet)
      ∃ t, exec .tokenArrival s = .next t ∧ s.KeepsBytes t
        ∧ (∃ q, t.transfer? p.id = some q ∧ q.packets = p.packets ++ ns.map packet ∧ q.tokens = p.tokens.map fun x => if x.k = k.k then { x with used := true } else x)
        ∧ (s.mayLand p = true → ∀ n ∈ ns, Due_ t .packetLanding { a := p.id, b := n })
        ∧ (p.packets.length + ns.length = packetCount r.len → Due_ t .lastSourceRead { a := p.id })))
  ∧ (∀ len off n, off % 16 = 0 → n % 16 = 0 → landingUnits 0 len off n = (List.range (n / 16)).map fun u => (off + 16 * u, off + 16 * u))
  ∧ (∀ (s : State) (p : Transfer) (r : SendRec) (x : Packet) (place off : Nat), stepTransfer s p → p.kind = .send r →
    p.packets.find? (fun x => x.n == s.obj.b && !x.landed) = some x → s.sound = true → allRun s → p.receiver < 2048 →
    let n := Nat.min 4096 (r.len - 4096 * x.n)
    let u := s.obj.c
    let last := decide ((s.packetUnits p x.n).length ≤ u + 1)
    let unit := (x.bytes.drop (off - 4096 * x.n)).take 16
    let frees := p.packets.length = packetCount r.len ∧ ∀ y ∈ p.packets, y.landed = true ∨ y.n = x.n
    let landing := p.packets.map fun y => if y.n = x.n then { y with landed := true, bytes := [] } else y
    (s.packetUnits p x.n)[u]? = some (place, off) → 4096 * x.n ≤ off → x.bytes.length = n → off + 16 ≤ 4096 * x.n + n →
    (last = true → s.obj.ok = false → ¬frees →
      exec .packetLanding s = .next (s.schedule (.cycle s.cycle) (rankOf p.cid) .packetLanding { s.obj with ok := true }))
    ∧ (s.obj.ok = true →
    (r.scratch = true ∨ r.toHandle = true → s.livePitchUp p.receiver p.region = false → s.ownerOf p.cid p.slot p.serial = some (p.cid, p.slot) → (s.slot p.cid p.slot).wait = .ready →
      s.node < 1024 → (∀ h, r.srcHandle = some h → p.readDone = true) → r.done = none → p.sender = none →
      ∃ t, exec .packetLanding s = .next t ∧ s.KeepsBytes t ∧ t.transfer? p.id = none ∧ (t.slot p.cid p.slot).perr.getLsbD s.node = true)
    ∧ (r.scratch = true → r.toHandle = false → s.livePitchUp p.receiver p.region = true → s.Settled p.receiver → landable s p.receiver (r.dst + place) 16 = true →
      ∃ t, exec .packetLanding s = .next t ∧ t.mem = s.mem ∧ LandsAt s t p.receiver (r.dst + place) unit
        ∧ (last = false → t.transfer? p.id = some p ∧ Due_ t .packetLanding { a := p.id, b := x.n, c := u + 1 })
        ∧ (last = true → r.counted = true → p.recvHere = true → Counted s t p.receiver r.x)
        ∧ (last = true → p.packets.length < packetCount r.len → p.orphaned = false → p.here = true → ∃ q, t.transfer? p.id = some q ∧ q.packets = landing))
    ∧ ∀ h, r.toHandle = true → s.livePitchUp p.receiver p.region = true → s.Settled p.receiver → h = s.handle p.receiver r.x → h.norm = none → h.chan = none →
      (h.state ≠ .filling → p.orphaned = false → r.done = none → r.srcHandle = none →
        ∃ t, exec .packetLanding s = .next t ∧ s.KeepsBytes t ∧ t.transfer? p.id = none ∧ t.handle p.receiver r.x = h ∧ t.mailbox p.receiver h.mb = s.mailbox p.receiver h.mb)
      ∧ (h.state = .filling → h.len < r.dst + 4096 * x.n + n → p.orphaned = false → r.done = none → (∀ g, r.srcHandle = some g → p.readDone = true) → r.counted = true → p.recvHere = true →
        ∃ t, exec .packetLanding s = .next t ∧ s.KeepsBytes t ∧ t.transfer? p.id = none ∧ Abandoned s t p.receiver h.mb
          ∧ (t.handle p.receiver r.x).state = .full ∧ (t.handle p.receiver r.x).refused = true ∧ (t.handle p.receiver r.x).abandoned = true)
      ∧ (h.state = .filling → r.dst + 4096 * x.n + n ≤ h.len → landable s p.receiver (h.base + place) 16 = true →
        ∃ t, exec .packetLanding s = .next t ∧ t.mem = s.mem ∧ LandsAt s t p.receiver (h.base + place) unit
          ∧ (last = false → t.handle p.receiver r.x = h ∧ t.transfer? p.id = some p ∧ Due_ t .packetLanding { a := p.id, b := x.n, c := u + 1 })
          ∧ (last = true → r.counted = true → p.recvHere = true → Counted s t p.receiver h.mb)
          ∧ (last = true → t.handle p.receiver r.x =
              { h with landed := h.landed + n / 16, state := if h.len ≤ 16 * (h.landed + n / 16) then .full else .filling
                       swz := if h.swz = 0 ∧ h.landed = 0 then r.swz else if h.swz = r.swz then h.swz else 0xFF }))))
  ∧ (∀ (s : State) (v : Word) (k claim : Nat), let h := s.handle s.obj.a s.obj.b
    h.latch = some (v, k, claim) →
    (8 ≤ (s.chan s.obj.a k).inq.length → exec .notifyLatchDrain s = .next s)
    ∧ ((s.chan s.obj.a k).inq.length < 8 → s.Settled s.obj.a →
      ∃ t, exec .notifyLatchDrain s = .next t ∧ s.KeepsBytes t ∧ (t.chan s.obj.a k).inq = (s.chan s.obj.a k).inq ++ [{ word := v }]
        ∧ t.handle s.obj.a s.obj.b = { h with latch := none }))
  ∧ (∀ (s : State) (p : Transfer) (r : SendRec), stepTransfer s p → p.kind = .send r → p.readDone = false → p.here = true → p.orphaned = false → allRun s →
    s.Settled p.cid → (∃ x ∈ p.packets, x.landed = false) →
    ∃ t, exec .lastSourceRead s = .next t ∧ s.KeepsBytes t ∧ t.transfer? p.id = some { p with readDone := true }
      ∧ (∀ c, (t.cluster c).locks = (s.cluster c).locks.filter fun l => !(l.hkind == 0 && l.holder == p.id))
      ∧ ∀ h, r.srcHandle = some h → (s.handle p.cid h).state = .draining → (s.core p.cid).gid = p.gid → (t.handle p.cid h).state = .free)
  ∧ (∀ (s : State) (p : Transfer) (r : SendRec) (m : Nat), stepTransfer s p → p.kind = .send r → r.done = some m → p.abandoned = false → allRun s →
    s.Settled p.cid → (∀ g, s.group? p.gid = some g → g.saved = none) → (s.group? p.gid).isSome = true → (s.core p.cid).gid = p.gid →
    ∃ t, exec .sendDone s = .next t ∧ s.KeepsBytes t ∧ Counted s t p.cid m ∧ t.transfer? p.id = none)
  ∧ ∀ (s : State) (p : Transfer) (r : SendRec), stepTransfer s p → p.kind = .send r → r.counted = true → r.scratch = true → r.toHandle = false → p.recvHere = true → r.srcHandle = none → r.done = none →
    r.swz = 0 → r.len % 16 = 0 → s.sound = true → landable s p.receiver r.dst r.len = true →
    s.livePitchUp p.receiver p.region = true → s.Settled p.receiver → s.effEvbase p.region = 0 → allRun s →
    ∃ t, exec .cxlTransferFailure s = .next t ∧ t.mem = s.mem ∧ t.transfer? p.id = none ∧ Abandoned s t p.receiver r.x
      ∧ (∀ k n, p.landed n = true → 4096 * n ≤ k → k < 4096 * n + 4096 → k < r.len → t.spByte p.receiver (r.dst + k) = s.spByte p.receiver (r.dst + k))
      ∧ ∀ a, a < r.dst ∨ r.dst + r.len ≤ a → t.spByte p.receiver a = s.spByte p.receiver a

/-- Word j of the FP32 elements of a plan. -/
def planWord (bs : List Byte) (j : Nat) : Nat := leNat ((bs.drop (4 * j)).take 4)

/-- The k-th chunk that a member sends is on its way to the next one of the ring, with its words (R168, R174). -/
def ChunkSent (t : State) (p : Transfer) (r : PlanRec) (k : Nat) (word : Nat → Nat) : Prop :=
  ∃ u ∈ t.transfers, ∃ c : ChunkRec, u.kind = .chunk c ∧ c.plan = p.id ∧ c.k = k ∧ c.core = r.nextCore ∧ c.planid = r.planid ∧ c.rank = (r.rank + 1) % r.n
    ∧ u.receiver = r.nextCore ∧ u.accepted = true ∧ Due_ t .transferAccept { a := p.cid, b := u.id }
    ∧ u.input.length = 4 * (r.elems / r.n) ∧ ∀ j, j < r.elems / r.n → planWord u.input j = word j

/-- A frame has landed or has been dropped: the next one follows, or the batch ends (R175, R176). -/
def FrameOver (t : State) (p : Transfer) (r : VdecRec) (f : Nat) : Prop :=
  if f + 1 < r.frames then Due_ t .frameLanding { a := p.id, b := f + 1 } else Due_ t .decodeBatchEnd { a := p.id }

/-- R172 to R176, R184, R185: index lists read, rows gathered and a gather's end, the steps of a plan and its failure, frames and a
decoder's batch, and the landing of a Gaussian message. What these rules leave open is read as
in log 32, log 34, log 35 and log 65, the model's own choices. -/
def Obligations.UnitSteps : Prop :=
  (∀ (s : State) (p : Transfer) (r : GatherRec), s.transfer? s.obj.b = some p → (∀ q ∈ s.transfers, q.id = p.id → q = p) → p.kind = .gather r → s.sound = true → s.obj.b ≠ 0 →
    ∃ t, exec .transferAccept s = .next t ∧ s.KeepsBytes t ∧ Due_ t .lastSourceRead { a := p.id } ∧ (∀ i, i < r.count → Due_ t .gatherRowFetch { a := p.id, b := i })
      ∧ t.transfer? p.id = some { p with indices := (List.range r.count).map fun k => leNat ((List.range 4).map fun j => s.spByte p.cid (r.list + 4 * k + j)) })
  ∧ (∀ (s : State) (p : Transfer) (r : GatherRec) (src : Nat) (row : List Byte), stepTransfer s p → p.kind = .gather r → s.sound = true →
    let i := s.obj.b
    let u := s.obj.c
    let x := p.indices.getD i 0
    let h := s.handle p.cid r.h
    let there := x < r.rows ∧ x ≠ 0xFFFFFFFF
    let more := 16 * (u + 1) < r.rowBytes
    let kept := p.packets.filter fun y => y.n != i
    (s.claimHolds p r && h.state == .filling) = true → h.norm = none → 16 * u < r.rowBytes → landable s p.cid (h.base + i * r.rowBytes + 16 * u) 16 = true →
    r.rowBytes % 16 = 0 → x < 2 ^ 32 → row.length = r.rowBytes →
    (u = 0 → (∀ y ∈ p.packets, y.n ≠ i) ∧ row = ((List.range r.rowBytes).map fun k => if there then s.spByte p.cid (src + k) else 0)
      ∧ (there → (r.base + BitVec.ofNat 64 x * r.stride).toNat = src ∧ src % 16 = 0 ∧ src + r.rowBytes ≤ 0x60000 ∧ s.scratchLocked p.cid src r.rowBytes false = false)) →
    (0 < u → p.packets.find? (fun y => y.n == i) = some { n := i, bytes := row }) →
    ∃ t, exec .gatherRowFetch s = .next t ∧ t.mem = s.mem
      ∧ LandsAt s t p.cid (h.base + i * r.rowBytes + 16 * u) ((row.drop (16 * u)).take 16)
      ∧ t.handle p.cid r.h = { h with oor := if u = 0 ∧ r.rows ≤ x ∧ x ≠ 0xFFFFFFFF then Nat.min (h.oor + 1) 255 else h.oor }
      ∧ (more → Due_ t .gatherRowFetch { a := p.id, b := i, c := u + 1 } ∧ ∃ q, t.transfer? p.id = some q ∧ q.packets.find? (fun y => y.n == i) = some { n := i, bytes := row })
      ∧ (¬more → ∃ q, t.transfer? p.id = some q ∧ q.packets = kept ++ [{ n := i, landed := true }])
      ∧ (¬more → (kept.filter (·.landed)).length + 1 = r.count → Due_ t .gatherCompletion { a := p.id }))
  ∧ (∀ (s : State) (p : Transfer) (r : GatherRec), stepTransfer s p → p.kind = .gather r → (s.core p.cid).gid = p.gid → s.Settled p.cid → allRun s →
    let h := s.handle p.cid r.h
    h.claim = r.claim → h.norm = none → h.chan = none →
    (p.discarded = false → h.state = .filling →
      ∃ t, exec .gatherCompletion s = .next t ∧ s.KeepsBytes t ∧ t.transfer? p.id = none ∧ Counted s t p.cid r.mb
        ∧ t.handle p.cid r.h = { h with state := .full, swz := r.swz, landed := r.count * r.rowBytes / 16 })
    ∧ (p.discarded = true → h.state ≠ .free →
      ∃ t, exec .gatherCompletion s = .next t ∧ s.KeepsBytes t ∧ t.transfer? p.id = none ∧ Abandoned s t p.cid r.mb
        ∧ t.handle p.cid r.h = { h with refused := true }))
  ∧ (∀ (s : State) (p : Transfer) (r : PlanRec), stepTransfer s p → p.kind = .rscat r → s.obj.c = 1 → s.sound = true → r.etype = 9 → 0 < r.n → r.src.toNat + 4 * r.elems ≤ 0x60000 →
    s.scratchLocked p.cid r.src.toNat (4 * r.elems) false = false → r.nextNode = s.node → s.serial ≠ p.id →
    let bytes := (List.range (4 * r.elems)).map fun k => s.spByte p.cid (r.src.toNat + k)
    ∃ t, exec .rscatCompletion s = .next t ∧ s.KeepsBytes t ∧ t.transfer? p.id = some { p with input := bytes, readDone := true } ∧ Due_ t .rscatCompletion { a := p.id }
      ∧ ChunkSent t p r 1 fun j => planWord bytes (r.sent 1 * (r.elems / r.n) + j))
  ∧ (∀ (s : State) (p u : Transfer) (r : PlanRec) (c : ChunkRec), s.transfer? p.id = some p → (∀ q ∈ s.transfers, q.id = p.id → q = p) → p.kind = .rscat r → p.packets = [] → p.readDone = true →
    s.obj.c = 0 → s.obj.a = p.id → r.etype = 9 → 0 < r.n → r.nextNode = s.node → s.serial ≠ p.id →
    let due := fun q => match q.kind with | .chunk c => c.core == p.cid && c.planid == r.planid && c.rank == r.rank && c.k == p.step + 1 && q.allLanded | _ => false
    (s.transfers.find? due = none → exec .rscatCompletion s = .next s)
    ∧ (s.transfers.find? due = some u → u.kind = .chunk c → c.n = r.n → c.etype = r.etype → c.elems = r.elems → (∀ q ∈ s.transfers, q.id = u.id → q = u) → s.serial ≠ u.id → u.sender = none →
      let sum := fun j => roundF f32 .rne (FVal.add false (decodeF f32 (planWord u.input j)) (decodeF f32 (planWord p.input (r.received c.k * (r.elems / r.n) + j))))
      ∃ t, exec .rscatCompletion s = .next t ∧ s.KeepsBytes t ∧ t.transfer? u.id = none
        ∧ (c.k + 1 ≠ r.n → t.transfer? p.id = some { p with step := c.k } ∧ Due_ t .rscatCompletion { a := p.id } ∧ ChunkSent t p r (c.k + 1) sum)
        ∧ (c.k + 1 = r.n → Due_ t .rscatCompletion { a := p.id, c := 3 } ∧ ∃ x, t.transfer? p.id = some { p with step := c.k, packets := [{ n := 0, bytes := x }] }
            ∧ ∀ j, j < r.elems / r.n → planWord x j = sum j)))
  ∧ (∀ (s : State) (p : Transfer) (r : PlanRec) (x : Packet) (rest : List Packet) (q : Nat × Nat), stepTransfer s p → p.kind = .rscat r → s.obj.c = 3 → p.packets = x :: rest →
    (s.core p.cid).gid = p.gid → s.Settled p.cid → allRun s → r.rdv = none → s.sound = true → r.dst.toNat + x.bytes.length ≤ 0x60000 → (State.unitPieces r.dst x.bytes.length)[s.obj.b]? = some q →
    s.scratchLocked p.cid r.dst.toNat x.bytes.length true = false → landable s p.cid r.dst.toNat x.bytes.length = true →
    ∃ t, exec .rscatCompletion s = .next t ∧ t.mem = s.mem ∧ LandsAt s t p.cid (r.dst.toNat + q.1) ((x.bytes.drop q.1).take q.2)
      ∧ (s.obj.b + 1 < (State.unitPieces r.dst x.bytes.length).length → t.transfer? p.id = some p ∧ Due_ t .rscatCompletion { a := p.id, c := 3, b := s.obj.b + 1 })
      ∧ ((State.unitPieces r.dst x.bytes.length).length ≤ s.obj.b + 1 → Counted s t p.cid r.mb ∧ t.transfer? p.id = none))
  ∧ (∀ (s : State) (p : Transfer) (r : PlanRec), stepTransfer s p → p.kind = .rscat r → s.obj.c = 2 → p.packets = [] → (s.core p.cid).gid = p.gid → s.Settled p.cid → allRun s → s.sound = true →
    (s.group? p.gid).isSome = true → (∀ g, s.group? p.gid = some g → g.saved = none) → r.stream = false →
    let n := r.elems / r.n * State.planSize r
    r.dst.toNat + n ≤ 0x60000 → landable s p.cid r.dst.toNat n = true →
    ∃ t, exec .rscatCompletion s = .next t ∧ t.mem = s.mem ∧ t.transfer? p.id = none ∧ Abandoned s t p.cid r.mb
      ∧ (∀ a, a < r.dst.toNat ∨ r.dst.toNat + n ≤ a → t.spByte p.cid a = s.spByte p.cid a)
      ∧ ∀ q ∈ s.transfers, ∀ y, q.plan? = some y → q.id ≠ p.id → q.packets = [] → y.planid = r.planid → q.cid = r.nextCore ∨ y.nextCore = p.cid → Due_ t .rscatCompletion { a := q.id, c := 2 })
  ∧ (∀ (s : State) (p : Transfer) (r : VdecRec) (rest : List Nat), tget (s.die s.obj.a).decoders s.obj.b [] = p.id :: rest → s.transfer? p.id = some p →
    (∀ q ∈ s.transfers, q.id = p.id → q = p) → p.kind = .vdec r →
    (p.locked = true → exec .vdecCommandStart s = .next s)
    ∧ ∀ unit : Nat → List Byte, p.locked = false → s.sound = true →
      (∀ q ∈ State.unitPieces r.bs r.bslen, ∃ l, s.unitLoc p.cid p.cid p.region (r.bs + BitVec.ofNat 64 q.1) q.2 false = some l ∧ l.tier = false ∧ s.readLoc l q.2 = unit q.1) →
      ∃ t, exec .vdecCommandStart s = .next t ∧ s.KeepsBytes t ∧ Due_ t .frameLanding { a := p.id, b := 0 }
        ∧ t.transfer? p.id = some { p with locked := true, input := (State.unitPieces r.bs r.bslen).flatMap fun q => unit q.1 })
  ∧ (∀ (s : State) (p : Transfer) (r : VdecRec) (c x : Nat), stepTransfer s p → p.kind = .vdec r → r.targets.getD s.obj.b (0, 0) = (c, x) → (s.core p.cid).gid = p.gid →
    (s.group? p.gid).isSome = true → (∀ g, s.group? p.gid = some g → g.saved = none) → s.obj.c = 0 → s.sound = true →
    let f := s.obj.b
    let fr := Config.av1Frame p.input p.indices f
    let bad := frameBad r fr
    let dep := !bad && (fr.outside || fr.refs.any p.indices.contains)
    let n := frameLen r fr.depth
    let bs := if bad then List.replicate n 0 else frameBytes r fr
    let h := s.handle c x
    let marked : Handle := { h with corrupt := h.corrupt || bad, dependent := h.dependent || dep }
    (s.livePitchUp c p.region = false → s.Settled p.cid →
      ∃ t, exec .frameLanding s = .next t ∧ s.KeepsBytes t ∧ Abandoned s t p.cid r.errmb ∧ FrameOver t p r f)
    ∧ (s.livePitchUp c p.region = true → h.state ≠ .filling → s.Settled p.cid → s.Settled c →
      ∃ t, exec .frameLanding s = .next t ∧ s.KeepsBytes t ∧ Abandoned s t p.cid r.errmb ∧ FrameOver t p r f ∧ t.handle c x = { h with refused := true })
    ∧ (s.livePitchUp c p.region = true → h.state = .filling → h.len < n → h.chan = none → s.Settled p.cid → s.Settled c →
      ∃ t, exec .frameLanding s = .next t ∧ s.KeepsBytes t ∧ Abandoned s t p.cid r.errmb ∧ FrameOver t p r f ∧ t.handle c x = { h with refused := true, state := .full })
    ∧ (s.livePitchUp c p.region = true → h.state = .filling → n ≤ h.len → 16 < n → h.norm = none →
      let goesOn := fun t => (∃ q, t.transfer? p.id = some q ∧ q.packets = [{ n := f, bytes := bs }] ∧ q.indices = if bad || dep then p.indices ++ [f] else p.indices)
        ∧ Due_ t .frameLanding { a := p.id, b := f, c := 1 }
      (s.scratchLocked c h.base 16 true = true → ∃ t, exec .frameLanding s = .next t ∧ s.KeepsBytes t ∧ t.handle c x = { marked with err := true } ∧ goesOn t)
      ∧ (s.scratchLocked c h.base 16 true = false → landable s c h.base 16 = true →
          ∃ t, exec .frameLanding s = .next t ∧ t.mem = s.mem ∧ LandsAt s t c h.base (bs.take 16) ∧ t.handle c x = marked ∧ goesOn t)))
  ∧ (∀ (s : State) (p : Transfer) (r : VdecRec) (c x : Nat) (bs : List Byte), stepTransfer s p → p.kind = .vdec r → r.targets.getD s.obj.b (0, 0) = (c, x) → s.sound = true →
    let f := s.obj.b
    let u := s.obj.c
    let h := s.handle c x
    let n := u / 256
    let landed := h.landed + Nat.min 4096 (bs.length - 4096 * n) / 16
    0 < u → p.packets = [{ n := f, bytes := bs }] → 16 * u < bs.length → bs.length ≤ h.len → s.livePitchUp c p.region = true → h.state = .filling → h.norm = none → h.chan = none → h.swz = 0 →
    s.scratchLocked c (h.base + 16 * u) 16 true = false → landable s c (h.base + 16 * u) 16 = true → s.Settled c →
    ∃ t, exec .frameLanding s = .next t ∧ t.mem = s.mem ∧ LandsAt s t c (h.base + 16 * u) ((bs.drop (16 * u)).take 16)
      ∧ (16 * (u + 1) < bs.length → (u + 1) % 256 ≠ 0 → t.handle c x = h ∧ t.transfer? p.id = some p ∧ Due_ t .frameLanding { a := p.id, b := f, c := u + 1 })
      ∧ (16 * (u + 1) < bs.length → (u + 1) % 256 = 0 → Counted s t c h.mb ∧ t.transfer? p.id = some p ∧ Due_ t .frameLanding { a := p.id, b := f, c := u + 1 }
          ∧ t.handle c x = { h with landed := landed, state := if h.len ≤ 16 * landed then .full else .filling })
      ∧ (bs.length ≤ 16 * (u + 1) → Counted s t c h.mb ∧ FrameOver t p r f ∧ t.handle c x = { h with landed := landed, state := .full }))
  ∧ (∀ (s : State) (p : Transfer) (r : VdecRec), stepTransfer s p → p.kind = .vdec r → r.rdv = none → allRun s →
    ∃ t, exec .decodeBatchEnd s = .next t ∧ s.KeepsBytes t ∧ t.transfer? p.id = none ∧ Due_ t .vdecCommandStart { a := dieOf p.cid, b := r.dec }
      ∧ tget (t.die (dieOf p.cid)).decoders r.dec [] = (tget (s.die (dieOf p.cid)).decoders r.dec []).filter fun x => x != p.id)
  ∧ ∀ (s : State) (m : Msg) (h n : Nat), stepMessage s m → m.kind = .gmsend → m.loc.home = .scratch h → h ≠ m.cid → m.bytes.length = 5 + 4 * (n + n * n) →
    leNat (m.bytes.take 1) = n → 1 ≤ n → n ≤ 8 → s.sound = true →
    (s.livePitch h m.region = false → s.ownerOf m.cid m.slot m.serial = some (m.cid, m.slot) → (s.slot m.cid m.slot).wait = .ready → s.node < 1024 →
      ∃ t, exec .gmsendLanding s = .next t ∧ s.KeepsBytes t ∧ (t.slot m.cid m.slot).perr.getLsbD s.node = true)
    ∧ (s.livePitch h m.region = true → s.scratchLocked h m.loc.addr 320 true = false → s.Settled h → landable s h m.loc.addr 320 = true →
      ∃ t, exec .gmsendLanding s = .next t ∧ t.mem = s.mem
        ∧ GaussLands s t h m.loc.addr n (leNat ((m.bytes.drop 1).take 4)) m.cid ((List.range (n + n * n)).map fun i => leNat ((m.bytes.drop (5 + 4 * i)).take 4))
        ∧ ∃ x ∈ t.net, x.id = m.id ∧ x.performed = true)

/-! ### The module and its links -/

/-- R7, R282, R290 to R294: boot stages, the quote, the module reset, the governor's windows, the patrol, the slewing of the GTC, and
the resync record. What these rules leave open is read as in log 40, log 49, log 50 and log 56,
the model's own choices. -/
def Obligations.ModuleSteps : Prop :=
  (∀ (s : State), let n := s.obj.a
    n = s.bootStage + 1 → n ≤ 3 → s.bootFail = 0 →
    ∃ t, exec .bootStage s = .next t ∧ s.KeepsBytes t
      ∧ if Config.ed448Verify (Config.bootImage n) = true then
          let digest := Config.shake256 (Config.bootImage n) 64
          t.bootStage = n ∧ t.bootFail = 0 ∧ t.chain = s.chain ++ [Config.shake256 (s.chain.getLastD [] ++ digest) 64] ∧ t.attLog = s.attLog ++ [digest]
            ∧ t.stopped = s.stopped ∧ (n < 3 → Due_ t .bootStage { a := n + 1 })
            ∧ (n = 1 → (∃ x ∈ t.agenda, x.due = .gtc (s.gtc.toNat + 1048576) ∧ x.ins = .governorWindow) ∧ (∃ x ∈ t.agenda, x.due = .gtc (s.gtc.toNat + 65536) ∧ x.ins = .gtcSync)
              ∧ DueAt t (s.gtc.toNat + 65536) .laneSample {} ∧ DueAt t (s.gtc.toNat + 68719476736) .patrolScrub { ok := true })
        else t.bootStage = s.bootStage ∧ t.bootFail = n ∧ t.chain = s.chain ∧ t.attLog = s.attLog ∧ t.agenda = s.agenda ∧ t.stopped = (s.stopped || n == 1))
  ∧ (∀ (s : State), s.bootStage ≠ 0 → 1 ≤ s.obj.bytes.length → s.obj.bytes.length ≤ 64 →
    let body := (s.chain.drop 1).flatten ++ leBytes 8 s.gtc.toNat
    exec .attestationQuote s = .next { s with quotes := s.quotes ++ [body ++ s.attLog.flatten ++ Config.ed448Sign (s.obj.bytes ++ body)] })
  ∧ (∀ (s : State),
    (s.lasting = [] → exec .moduleReset s =
      .next { State.reset with node := s.node, free := s.free, cxlDown := s.cxlDown, resets := s.resets + 1, stopped := s.obj.ok
                               agenda := if s.obj.ok then [] else State.reset.agenda })
    ∧ ∃ t, exec .moduleReset s = .next t ∧ t.bootStage = 0 ∧ t.groups = [] ∧ t.regions = [] ∧ t.mem = []
      ∧ (∀ c, (t.core c).on = false ∧ (t.core c).sp = [])
      ∧ ∀ k ∈ s.lasting, (k.1 = 2 → (t.core (k.2 / 2 ^ 19)).excluded = true) ∧ (k.1 = 4 → ∀ c, c / 4 = k.2 / 2 ^ 20 → (t.core c).feat &&& 0x18 = 0)
          ∧ (k.1 = 7 → ∀ c, c / 4 = k.2 → (t.core c).feat &&& 4 = 0) ∧ (k.1 = 8 ∨ k.1 = 9 → ∀ c, c / 256 = k.2 → (t.core c).feat &&& 0x80 = 0))
  ∧ (∀ (s : State), let g := governed s.budget s.mhz s.obj.v.toNat (s.pcap.toNat % 65536) (s.pcap.getLsbD 16)
    let base := frameBase s.glbase
    ∃ t, exec .governorWindow s = .next t ∧ t.windows = s.windows + 1 ∧ t.avgw = s.obj.v.setWidth 16 ∧ (t.budget, t.mhz) = g
      ∧ (∃ x ∈ t.agenda, x.due = .gtc (s.gtc.toNat + 1048576) ∧ x.ins = .governorWindow) ∧ t.gtc = s.gtc ∧ (∀ c, (t.core c).sp = (s.core c).sp)
      ∧ (base = 0 ∨ g = (s.budget, s.mhz) → s.KeepsBytes t)
      ∧ (base ≠ 0 → g ≠ (s.budget, s.mhz) → (s.die 0).art = [] → s.sound = true → s.mem.wf = true → base + 2048 ≤ hbmTop →
          HbmHolds s t (base + 32 * ((s.windows + 1).toNat % 64))
            (leBytes 8 s.gtc.toNat ++ leBytes 2 t.avgw.toNat ++ leBytes 1 s.budget ++ leBytes 1 g.1 ++ leBytes 2 s.mhz ++ leBytes 2 g.2 ++ List.replicate 16 0)))
  ∧ (∀ (s : State), let k := (1, s.obj.a)
    let d := State.die s (s.obj.a / 1000000000 / 128)
    s.obj.ok = false →
    ∃ t, exec .patrolScrub s = .next t ∧ s.KeepsBytes t ∧ t.net = s.net ∧ t.lasting = s.lasting
      ∧ t.die (s.obj.a / 1000000000 / 128) =
          (if k ∈ s.lasting then { d with lacnt := d.lacnt + 1, ring := ringAfter d.ring (patrolRecord s 3) }
           else if k ∈ s.transient then { d with trcnt := d.trcnt + 1, ring := ringAfter d.ring (patrolRecord s 2) }
           else if k ∈ s.correctable then { d with cecnt := d.cecnt + 1, ring := ringAfter d.ring (patrolRecord s 1) } else d)
      ∧ t.transient = (if k ∈ s.lasting then s.transient else s.transient.erase k)
      ∧ t.correctable = if k ∈ s.lasting ∨ k ∈ s.transient then s.correctable else s.correctable.erase k)
  ∧ (∀ (s : State), s.obj.ok = true →
    ∃ t, exec .patrolScrub s = .next t ∧ s.KeepsBytes t ∧ t.lasting = s.lasting ∧ DueAt t (s.gtc.toNat + 68719476736) .patrolScrub s.obj
      ∧ (s.sound = true → { t with agenda := [] } = { s with agenda := [] }))
  ∧ (∀ (s : State), s.refNode ≤ s.node ∧ (∀ n, n < s.refNode → n ∈ s.unreachable) ∧ (s.refNode = s.node ∨ s.refNode ∉ s.unreachable))
  ∧ (∀ (s : State),
    let corrects := fun (t : State) => t.gtcOff ≠ 0 → s.obj.c ≠ 0 → DueAt t (t.gtc.toNat + 4096) .gtcSync { c := s.obj.c - 1, ok := true }
    let warns := fun (t : State) => t.gtcWarn = true ↔ 3 < t.gtcOff ∨ t.gtcOff < -3
    (s.obj.ok = false → ∃ t, exec .gtcSync s = .next t ∧ s.KeepsBytes t ∧ t.gtc = s.gtc ∧ t.gtcOff = (if s.refNode = s.node then 0 else s.obj.off) ∧ warns t ∧ corrects t
        ∧ DueAt t (s.gtc.toNat + 65536) .gtcSync { off := Config.clockOffset s.free, c := 15 })
    ∧ (s.obj.ok = true → let off := s.gtcOff
      ∃ t, exec .gtcSync s = .next t ∧ s.KeepsBytes t ∧ corrects t
        ∧ (0 < off → t.gtc = s.gtc ∧ t.gtcRem = s.gtcRem - s.mhz ∧ t.gtcOff = off - 1 ∧ warns t)
        ∧ (off < 0 → t.gtc = s.gtc + 1 ∧ t.gtcRem = s.gtcRem ∧ t.gtcOff = off + 1 ∧ warns t)
        ∧ (off = 0 → t = s)
        ∧ (t.gtcOff = 0 ∨ s.obj.c = 0 → t.agenda = s.agenda)))
  ∧ (∀ (s : State),
    (s.resyncStat = 1 ∨ s.obj.v.toNat % 4096 = 0 → exec .resync s = .next s)
    ∧ (s.resyncStat ≠ 1 → s.obj.v.toNat % 4096 ≠ 0 →
      ∃ t, exec .resync s = .next t ∧ s.KeepsBytes t ∧ t.resync = s.obj.v ∧ t.resyncStat = 1 ∧ Due_ t .resyncDone { v := s.gtc }))
  ∧ ∀ (s : State), let bs := s.resyncRecord s.obj.v
    let n := s.resync.toNat % 4096
    let base := frameBase s.resync
    base + 4096 * n ≤ hbmTop → (s.die 0).art = [] → s.sound = true → s.mem.wf = true →
    ∃ t, exec .resyncDone s = .next t ∧ (∀ c, (t.core c).sp = (s.core c).sp)
      ∧ bs.take 64 = leBytes 8 s.obj.v.toNat ++ leBytes 8 s.gtc.toNat ++ leBytes 2 s.node ++ leBytes 2 7 ++ List.replicate 44 0
      ∧ HbmHolds s t base (bs.take (4096 * n))
      ∧ (bs.length ≤ 4096 * n → t.resyncStat = 0)
      ∧ (4096 * n < bs.length → t.resyncStat.toNat % 2 ^ 32 = 2 ∧ t.resyncStat.toNat / 2 ^ 32 = (bs.length + 4095) / 4096 % 4096)

/-- R99, R218, R260, R268, R269, R275, R285 to R289, R291: flits, retries and lanes, the links of the CXL tier, packets to other modules, the
registers of the control window, and the multicast entries. What these rules leave open is read
as in log 47, log 48 and log 59, the model's own choices. -/
def Obligations.LinkSteps : Prop :=
  (∀ (s : State), let l := tget s.links s.obj.a {}
    let acked := l.buffer.filter fun f => decide (s.obj.c < f.seq)
    (∀ q ∈ s.transfers, q.sender = none) →
    (s.obj.ok = false → ∃ t, exec .flitReceive s = .next t ∧ FlitLost s t s.obj.a)
    ∧ (s.obj.ok = true → s.obj.b = 0 → exec .flitReceive s = .next { s with links := tset s.links s.obj.a { l with retries := 0, want := l.want + 1 } })
    ∧ (s.obj.ok = true → s.obj.b = 1 → ∃ t, exec .flitReceive s = .next t ∧ { t with links := s.links } = s ∧ (∀ q, q ≠ s.obj.a → tget t.links q {} = tget s.links q {})
        ∧ (l.queue = [] → tget t.links s.obj.a {} = { l with retries := 0, buffer := acked })
        ∧ ∀ f, l.queue = [f] → tget t.links s.obj.a {} =
            if Link.window { l with retries := 0, buffer := acked } ≤ acked.length then { l with retries := 0, buffer := acked }
            else { l with retries := 0, buffer := acked ++ [{ f with seq := l.next, half := l.half && decide (l.halfFrom ≤ l.next) }], queue := [], next := l.next + 1 })
    ∧ (s.obj.ok = true → 2 ≤ s.obj.b → exec .flitReceive s = .next (if (l.buffer.any fun f => f.seq == s.obj.c) then Resent s s.obj.a s.obj.c else s))
    ∧ ((∀ f ∈ l.buffer, f.seq ≠ s.obj.c) → exec .linkRetryTimeout s = .next s)
    ∧ ((∃ f ∈ l.buffer, f.seq = s.obj.c) → l.down = false →
        (l.retries < 8 → exec .linkRetryTimeout s = .next (Resent { s with links := tset s.links s.obj.a { l with retries := l.retries + 1 } } s.obj.a s.obj.c))
        ∧ (8 ≤ l.retries → ∃ t, exec .linkRetryTimeout s = .next t ∧ PortLost s t s.obj.a l)))
  ∧ (∀ (s : State), (∀ q ∈ s.transfers, q.sender = none) →
    ∃ t, exec .laneSample s = .next t ∧ s.KeepsBytes t ∧ DueAt t (s.gtc.toNat + 65536) .laneSample { b := s.obj.b + 1 }
      ∧ ∀ p, p < 2 * (neighboursOf s.node).length → let l := tget s.links p {}
        let m := tget t.links p {}
        let fails := fun (lane : Nat) (before : Bool) => let x := Config.laneSample s.obj.b p lane
          Config.laneCrossed x.1 x.2 && !before
        let new := fails 0 l.failed0 || fails 1 l.failed1
        (m.corrected0, m.margin0) = Config.laneSample s.obj.b p 0 ∧ (m.corrected1, m.margin1) = Config.laneSample s.obj.b p 1
          ∧ m.failed0 = (l.failed0 || fails 0 l.failed0) ∧ m.failed1 = (l.failed1 || fails 1 l.failed1)
          ∧ m.half = (l.half || new) ∧ m.halfFrom = (if new = true ∧ l.half = false then l.next else l.halfFrom)
          ∧ m.down = (l.down || (new && m.failed0 && m.failed1)))
  ∧ (∀ (s : State),
    (∃ t, exec .cxlLinkDrop s = .next t ∧ { t with cxlDown := s.cxlDown, l2 := s.l2 } = s ∧ s.obj.a ∈ t.cxlDown ∧ (∀ p, p ≠ s.obj.a → (p ∈ t.cxlDown ↔ p ∈ s.cxlDown))
      ∧ ∀ g, ∀ x ∈ tget t.l2 g [], x ∈ tget s.l2 g [] ∧ (256 * x.line < cxlBase ∨ (256 * x.line - cxlBase) / 2 ^ 47 ≠ s.obj.a))
    ∧ ∃ t, exec .cxlLinkReturn s = .next t ∧ { t with cxlDown := s.cxlDown } = s ∧ s.obj.a ∉ t.cxlDown ∧ ∀ p, p ≠ s.obj.a → (p ∈ t.cxlDown ↔ p ∈ s.cxlDown))
  ∧ (∀ (s : State) (p : FabricPacket), s.fabric.find? (fun q => q.id == s.obj.a) = some p → (∀ q ∈ s.fabric, q.id = p.id → q = p) → p.came = false → p.sends < 8 → s.refusesAll p.node = false →
    ∃ t, exec .e2eTimeout s = .next t ∧ s.KeepsBytes t ∧ t.cores = s.cores ∧ (∀ q ∈ s.fabric, q.id ≠ p.id → q ∈ t.fabric) ∧ DueAt t (s.gtc.toNat + 1048576) .e2eTimeout { a := p.id }
      ∧ ∃ q ∈ t.fabric, { q with sends := p.sends, path := p.path } = p ∧ q.sends = p.sends + 1
        ∧ ((∃ h ∈ s.hops p.node, s.portsTo h.2 ≠ [] ∧ h.1 ≠ p.path) → q.path ≠ p.path))
  ∧ (∀ (s : State) (p : FabricPacket) (m : Msg) (id : Nat), s.fabric.find? (fun q => q.id == s.obj.a) = some p → p.came = false → p.kind = .access id → s.msg? id = some m →
    (∀ x ∈ s.net, x.id = m.id → x = m) → m.kind = .store → p.node < 1024 →
    (s.obj.ok = true → ∃ t, exec .fabricPacketDelivery s = .next t ∧ s.KeepsBytes t ∧ t.cores = s.cores ∧ (∀ q ∈ t.fabric, q.id ≠ p.id)
      ∧ t.msg? id = some { m with performed := true, resp := some (.value 0) } ∧ Due_ t .storeAck { a := id })
    ∧ ∀ ins, (ins = .fabricPacketDelivery ∧ s.obj.ok = false) ∨ (ins = .e2eTimeout ∧ (8 ≤ p.sends ∨ s.refusesAll p.node = true)) →
      s.ownerOf m.cid m.slot m.serial = some (m.cid, m.slot) → (s.slot m.cid m.slot).wait = .ready →
      ∃ t, exec ins s = .next t ∧ s.KeepsBytes t ∧ (∀ q ∈ t.fabric, q.id ≠ p.id) ∧ (t.slot m.cid m.slot).perr = (s.slot m.cid m.slot).perr ||| BitVec.twoPow 1024 p.node
        ∧ t.msg? id = some { m with performed := true, resp := some .failed } ∧ Due_ t .storeAck { a := id })
  ∧ (∀ (s : State) (p : FabricPacket) (c : Slot), s.fabric.find? (fun q => q.id == s.obj.a) = some p → p.came = false → p.kind = .context c →
    (s.obj.ok = true ∨ (c.homeNode ≠ s.node ∧ p.node = c.homeNode) ∨ (c.homeNode = s.node ∧ s.awayFrom (s.slot c.home c.homeSlot) = false) →
      exec .fabricPacketDelivery s = .next (withoutPacket s p))
    ∧ (s.obj.ok = false → c.homeNode ≠ s.node → p.node ≠ c.homeNode → s.refusesAll c.homeNode = false →
      ∃ t, exec .fabricPacketDelivery s = .next t ∧ s.KeepsBytes t ∧ t.cores = s.cores
        ∧ PacketSent s t { c with refusedNode := some p.node, window := none, wait := .goHome none } c.homeNode 0 p.cid p.slot)
    ∧ (s.obj.ok = false → c.homeNode = s.node → s.awayFrom (s.slot c.home c.homeSlot) = true → landable s c.home (0x400 * c.homeSlot) 640 = true →
      ∃ t, exec .fabricPacketDelivery s = .next t ∧ t.mem = s.mem ∧ LandsAt s t c.home (0x400 * c.homeSlot) (c.frame.bytes 0 640) ∧ (∀ q ∈ t.fabric, q.id ≠ p.id)
        ∧ let y := t.slot c.home c.homeSlot
          y.live = true ∧ y.reserved = false ∧ y.wait = .ready ∧ y.own = true ∧ y.pc = c.pc ∧ y.phases = c.phases ∧ y.perr = c.perr ∧ y.refusedNode = some p.node))
  ∧ (∀ (s : State) (p : FabricPacket), s.fabric.find? (fun q => q.id == s.obj.a) = some p → (∀ q ∈ s.fabric, q.id = p.id → q = p) → p.came = true → (∀ q ∈ s.fabric, q.came = true → q = p) →
    let want := tget s.fabIn (p.node * 4096 + p.cid) 0
    (∀ bs, p.kind = .store bs →
      (p.seq < want → exec .fabricPacketDelivery s = .next (withoutPacket s p))
      ∧ (want < p.seq → exec .fabricPacketDelivery s = .next s)
      ∧ (p.seq = want → s.regionById p.region = none ∨ hbmTop ≤ p.addr → ∃ t, exec .fabricPacketDelivery s = .next t ∧ s.KeepsBytes t ∧ t.cores = s.cores ∧ Taken s t p)
      ∧ (p.seq = want → s.regionById p.region ≠ none → p.addr < hbmTop → s.sound = true → s.mem.wf = true → s.unwatched (s.hbmLoc p.addr).home (s.hbmLoc p.addr).addr bs.length = true →
        ∃ t, exec .fabricPacketDelivery s = .next t ∧ t.cores = s.cores ∧ Taken s t p
          ∧ (∀ k x, bs[k]? = some (x, true) → t.memByte ((s.hbmLoc p.addr).addr + k) = x)
          ∧ ∀ a, (∀ k x, bs[k]? = some (x, true) → a ≠ (s.hbmLoc p.addr).addr + k) → t.memByte a = s.memByte a))
    ∧ ∀ op d e, p.kind = .amo op d e → p.seq = want → s.regionById p.region ≠ none → p.addr < hbmTop → s.sound = true → s.mem.wf = true → s.unwatched (s.hbmLoc p.addr).home (s.hbmLoc p.addr).addr 8 = true →
      let l := s.hbmLoc p.addr
      let old := BitVec.ofNat 64 (leNat ((List.range 8).map fun k => s.memByte (l.addr + k)))
      ∃ t, exec .fabricPacketDelivery s = .next t ∧ t.cores = s.cores ∧ Taken s t p
        ∧ (∀ k, k < 8 → t.memByte (l.addr + k) = (((amoResult op old d e).getD old).extractLsb' (8 * k) 8)) ∧ ∀ a, a < l.addr ∨ l.addr + 8 ≤ a → t.memByte a = s.memByte a)
  ∧ (∀ (s : State), let a := s.obj.a
    let v := s.obj.v
    let o := a - 0xF000000000
    ∃ t, exec .registerWrite s = .next t ∧ (a % 8 ≠ 0 ∨ a < 0xF000010000 → t = s)
      ∧ (a = 0xF000020800 → t = if (v.extractLsb' 0 5).toNat ≤ 16 ∧ (v.extractLsb' 5 5).toNat ≤ 16 ∧ (v.extractLsb' 10 5).toNat ≤ 16 ∧ (v.extractLsb' 15 5).toNat ≤ 16 then { s with quota := v &&& 0xFFFFF } else s)
      ∧ (a = 0xF000020810 → t = { s with invAddr := v })
      ∧ (a = 0xF000020900 → t = if 600 ≤ v.toNat % 65536 ∧ v.toNat % 65536 ≤ 2400 then { s with pcap := v &&& 0x1FFFF } else s)
      ∧ (a = 0xF000020910 → t = { s with glbase := v &&& 0xFFFFFFFFFF000 })
      ∧ (∀ d, d < 8 → o = 0x10000 + 0x40 * d → { t with agenda := [], dies := [] } = { s with agenda := [], dies := [] } ∧ Due_ t .tokenGrant { a := d }
          ∧ t.die d = if 1 ≤ v.toNat ∧ v.toNat ≤ 256 then { State.die s d with tokmax := v.toNat } else s.die d)
      ∧ (∀ d, d < 8 → o = 0x10008 + 0x40 * d → Due_ t .tokenGrant { a := d } ∧ t.die d = if v = 0 then s.die d else { State.die s d with tokexp := v.toNat })
      ∧ (∀ i off, i < 64 → off ∈ [0, 8, 24] → o = 0x20000 + 32 * i + off → ArtAfter s.art t.art i off v ∧ ∀ d, d < 8 → Due_ t .artCtrlWrite { a := i, b := d + 1, c := off, v := v })
      ∧ (∀ g w, g < 24 → w < 16 → o = 0x21000 + 0x100 * g + 8 * w →
          let m := tget s.mcast g {}
          let n := tget t.mcast g {}
          n = { m with staged := n.staged } ∧ ∀ b, b < 1024 → n.staged.getLsbD b = if b / 64 = w then v.getLsbD (b % 64) else m.staged.getLsbD b))
  ∧ (∀ (s : State), s.obj.a < 24 →
    let m := tget s.mcast s.obj.a {}
    (∃ t, exec .multicastCommit s = .next t ∧ s.KeepsBytes t ∧ tget t.mcast s.obj.a {} = { m with nodes := m.staged, old := m.nodes, version := m.version + 1, pending := true }
      ∧ (∀ g, g ≠ s.obj.a → tget t.mcast g {} = tget s.mcast g {}) ∧ Due_ t .commitAck { a := s.obj.a, v := m.version + 1 })
    ∧ ∃ t, exec .commitAck s = .next t ∧ { t with mcast := s.mcast } = s ∧ tget t.mcast s.obj.a {} = (if m.version = s.obj.v then { m with pending := false } else m)
      ∧ ∀ g, g ≠ s.obj.a → tget t.mcast g {} = tget s.mcast g {})

/-! ### Translation, invalidation and the launch ports -/

/-- R16, R59, R263 to R265, R268, R270 to R272, R307: what a walk finds, and its end for the context that waits; a miss that met a full
queue; the end of a fetch; the address-range table; and the invalidations. What these rules
leave open is read as in log 14, log 16, log 46, log 47 and log 63, the model's own choices. -/
def Obligations.TranslationSteps : Prop :=
  (∀ (s : State) (r va d : Nat), let root := s.effPtroot r
    let e1 := s.pte root 1 va d
    let e2 := s.pte (entryFrame e1) 2 va d
    let e3 := s.pte (entryFrame e2) 3 va d
    root ≠ 0 → s.sound = true →
    (hbmTop ≤ root ∨ ¬entryGood e1 ∨ e1 / 2 % 2 = 1 ∨ hbmTop ≤ entryFrame e1 → s.walk r va d = none)
    ∧ (root < hbmTop → entryGood e1 → e1 / 2 % 2 = 0 → entryFrame e1 < hbmTop →
      (¬entryGood e2 → s.walk r va d = none)
      ∧ (entryGood e2 → e2 / 2 % 2 = 1 → s.walk r va d =
          if entryFrame e2 % 2 ^ 29 = 0 ∧ inDataWindow (entryFrame e2 + va % 2 ^ 29) = true then some (leafEntry r va (2 ^ 29) e2) else none)
      ∧ (entryGood e2 → e2 / 2 % 2 = 0 → s.walk r va d =
          if entryFrame e2 < hbmTop ∧ entryGood e3 ∧ e3 / 2 % 2 = 1 ∧ inDataWindow (entryFrame e3 + va % 2 ^ 16) = true then some (leafEntry r va (2 ^ 16) e3) else none)))
  ∧ (∀ (s : State) (c i : Nat) (va : Word) (m : Miss), let x := s.slot c i
    let o : Obj := { a := c, b := i, v := BitVec.ofNat 64 x.serial }
    let d := dieOf c
    let found := (tlbLookup (s.die d).tlb x.region va.toNat).orElse fun _ => s.walk x.region va.toNat d
    s.sound = true → x.wait = .walk va →
    s.obj = o ∨ (s.obj = { a := d, b := m.id, off := 1 } ∧ m ∈ (s.die d).misses ∧ m.started = true ∧ m.who = [o] ∧ ∀ n ∈ (s.die d).misses, n = m ∨ (n.id ≠ m.id ∧ n.started = true)) →
    (s.obj.off = 1 → ∃ t, exec .pageWalk s = .next t ∧ (t.die d).misses = (s.die d).misses.filter fun n => n.id != m.id)
    ∧ (found = none → ∃ t, exec .pageWalk s = .next t ∧ s.KeepsBytes t ∧ OnlySlot s t c i { x with wait := .ready, walked := some va }
      ∧ (t.core c).tlb = (s.core c).tlb ∧ (t.die d).tlb = (s.die d).tlb)
    ∧ ∀ e, found = some e → ∃ t, exec .pageWalk s = .next t ∧ s.KeepsBytes t ∧ OnlySlot s t c i { x with wait := .ready, trans := e :: x.trans }
      ∧ (t.core c).tlb = tlbInsert (s.core c).tlb 32 e ∧ (t.die d).tlb = tlbInsert (s.die d).tlb 16384 e)
  ∧ (∀ (s : State), s.obj.ok = false → s.obj.c = 0 → s.obj.off = 0 → s.obj.v ≠ BitVec.ofNat 64 (s.slot s.obj.a s.obj.b).serial →
    (∃ t, exec .pageWalk s = .next t ∧ t.cores = s.cores ∧ t.mem = s.mem) ∧ exec .instructionFetchDone s = .next s)
  ∧ (∀ (s : State) (m : Miss) (rest : List Miss), let d := s.obj.a
    let x := s.die d
    let waiting := (x.misses.filter fun n => !n.started).length
    (x.overflow = [] → exec .tlbMissRetry s = .next s)
    ∧ (x.overflow = m :: rest → 4096 ≤ waiting → exec .tlbMissRetry s = .next (s.schedule (.cycle (s.cycle + 1)) 0 .tlbMissRetry { a := d }))
    ∧ (x.overflow = [m] → waiting = 0 → m.started = false → (∀ n ∈ x.misses, n.id ≠ m.id) →
      ∃ t, exec .tlbMissRetry s = .next t ∧ s.KeepsBytes t ∧ t.cores = s.cores ∧ (t.die d).overflow = []
        ∧ (32 ≤ x.misses.length → (t.die d).misses = x.misses ++ [m])
        ∧ (x.misses.length < 32 → (t.die d).misses = x.misses ++ [{ m with started := true }] ∧ Due_ t .pageWalk { a := d, b := m.id, off := 1 })))
  ∧ (∀ (s : State) (c i : Nat), let x := s.slot c i
    let found := (tlbLookup (s.core c).itlb x.region x.pc.toNat).orElse fun _ => s.walk x.region x.pc.toNat (dieOf c)
    stepContext s c i → x.wait = .fetch → (x.mode.det = true → s.missingWord c x = some 0) →
    ∃ t, exec .instructionFetchDone s = .next t ∧ s.KeepsBytes t ∧ OnlySlot s t c i { x with wait := .ready, fetched := some (x.pc, 1) }
      ∧ (t.core c).itlb = match found with | some e => tlbInsert (s.core c).itlb 64 e | none => (s.core c).itlb)
  ∧ (∀ (s : State), s.obj.a < 64 →
    (s.obj.b = 0 → ∃ t, exec .artCtrlWrite s = .next t ∧ s.KeepsBytes t ∧ t.dies = s.dies ∧ ArtAfter s.art t.art s.obj.a 16 s.obj.v
      ∧ ∀ d, d < 8 → Due_ t .artCtrlWrite { a := s.obj.a, b := d + 1, c := 16, v := s.obj.v })
    ∧ ∀ d, s.obj.b = d + 1 → s.obj.c ∈ [0, 8, 16, 24] → ∃ t, exec .artCtrlWrite s = .next t ∧ { t with dies := s.dies } = s ∧ (∀ e, e ≠ d → t.die e = s.die e)
      ∧ { t.die d with art := (s.die d).art } = s.die d ∧ ArtAfter (s.die d).art (t.die d).art s.obj.a s.obj.c s.obj.v)
  ∧ (∀ ins ∈ [Instr.invalidatePage, .invalidateRange, .invalidateRegion, .invalidateAll], ∀ (s : State), let kind := [Instr.invalidatePage, .invalidateRange, .invalidateRegion, .invalidateAll].idxOf ins
    (s.invStat = true → exec ins s = .next s)
    ∧ (s.invStat = false → ∃ t, exec ins s = .next t ∧ s.KeepsBytes t ∧ t.invStat = true ∧ Due_ t .invalidationDone { c := t.serial } ∧ t.invCtl = BitVec.ofNat 64 (kind * 2 ^ 32 + s.obj.a)
      ∧ (∀ c i, let x := s.slot c i
          (t.slot c i).trans = x.trans.filter (fun e => !removes s ins e) ∧ (t.slot c i).walked = x.walked.filter fun va => !removes s ins (State.pageEntry x.region va.toNat))
      ∧ (∀ d, ∀ m ∈ (s.die d).misses, m.started = true → m.id < s.serial → removes s ins (State.pageEntry m.region (m.page * 65536)) = true → ∀ n ∈ (t.die d).misses, n.id ≠ m.id)
      ∧ (∀ c, (t.core c).tlb = (s.core c).tlb.filter (fun e => !removes s ins e) ∧ (t.core c).itlb = (s.core c).itlb.filter (fun e => !removes s ins e) ∧ (t.core c).l1 = (s.core c).l1)
      ∧ ∀ d, (t.die d).tlb = (s.die d).tlb.filter fun e => !removes s ins e))
  ∧ ∀ (s : State),
    ((∀ m ∈ s.net, m.id < s.obj.c → m.performed = true) → (∀ p ∈ s.clusters, ∀ e ∈ p.2.queue, e.id < s.obj.c → e.started = true ∨ e.units = []) →
      (∀ p ∈ s.cores, ∀ q ∈ p.2.slots, q.2.wait = .ready) → exec .invalidationDone s = .next { s with invStat := false })
    ∧ ((∃ m ∈ s.net, m.id < s.obj.c ∧ m.performed = false ∧ ∀ c, m.loc.home ≠ .scratch c) →
      ∃ t, exec .invalidationDone s = .next t ∧ s.KeepsBytes t ∧ t.invStat = s.invStat ∧ Due_ t .invalidationDone s.obj)

/-- R244, R250, R251, R253, R256, R257, R260, R279, R293: what a write to a launch port does, and the step that shows its outcome.
What these rules leave open is read as in log 17, log 42 and log 43, the model's own choices. -/
def Obligations.LaunchPorts : Prop :=
  (∀ ins ∈ [Instr.portRcb, .portLaunch, .portPreempt, .portKill], ∀ (s : State),
    (¬portOpen s → exec ins s = .next s)
    ∧ (portOpen s → s.bootStage = 2 → ∃ t, exec ins s = .next t ∧ s.KeepsBytes t ∧ t.regions = s.regions ∧ t.groups = s.groups ∧ PortBusy s t 6 (s.port s.obj.a).gid.toNat)
    ∧ (ins ≠ .portRcb → portOpen s → (s.port s.obj.a).region = none →
        ∃ t, exec ins s = .next t ∧ s.KeepsBytes t ∧ t.regions = s.regions ∧ t.groups = s.groups ∧ PortBusy s t 6 (s.port s.obj.a).gid.toNat))
  ∧ (∀ (s : State), let rcb := s.obj.v.toNat
    let bs := s.readHbm rcb 512
    let f := fieldOf bs
    portOpen s → 3 ≤ s.bootStage →
    (rcb % 512 ≠ 0 ∨ hbmTop < rcb + 512 ∨ f 8 4 = 0 ∨ (63 < f 12 1 ∧ f 12 1 ≠ 0xFF) ∨ (63 < f 13 1 ∧ f 13 1 ≠ 0xFF) ∨ 2 < f 15 1 ∨ f 24 8 % 4096 ≠ 0 ∨ f 32 4 % 4096 ≠ 0 ∨ f 42 2 = 0
        ∨ f 240 272 ≠ 0 ∨ (f 0 8 ≠ 0 ∧ ((tfind s.regions (f 0 8)).isNone = true ∨ s.isAncestor rcb (f 0 8) = true)) →
      ∃ t, exec .portRcb s = .next t ∧ s.KeepsBytes t ∧ t.regions = s.regions ∧ t.groups = s.groups ∧ PortBusy s t 2 (s.port s.obj.a).gid.toNat)
    ∧ ∀ r, s.newRegion rcb = some r →
      (r.parent, r.regid, r.prio, r.fdom, r.ptroot, r.bivouac, r.framesz, r.bivn, r.cores) = (f 0 8, f 8 4, f 12 1, f 15 1, f 16 8, f 24 8, f 32 4, f 36 2, f 42 2)
      ∧ ∃ t, exec .portRcb s = .next t ∧ s.KeepsBytes t ∧ t.groups = s.groups ∧ (t.port s.obj.a).region = some rcb ∧ tfind t.regions rcb = some r
        ∧ (∀ k, k ≠ rcb → tfind t.regions k = tfind s.regions k) ∧ PortBusy s t 0 (s.port s.obj.a).gid.toNat)
  ∧ (∀ (s : State) (r : Nat), let va := s.obj.v
    let rec_ := s.regionBytes r va 64
    let hva := BitVec.ofNat 64 (fieldOf rec_ 0 8)
    let rcb := BitVec.ofNat 64 (fieldOf rec_ 8 8)
    let lasts := BitVec.ofNat 64 (fieldOf rec_ 24 8)
    portOpen s → 3 ≤ s.bootStage → (s.port s.obj.a).region = some r → s.effEvbase r = 0 → s.sound = true →
    (va.toNat % 64 ≠ 0 ∨ (s.deviceRead r va.toNat 64).1 = false ∨ (launchFault rec_).isSome = true ∨ fieldOf rec_ 20 4 ≠ 0 ∨ hva.toNat % 256 ≠ 0 ∨ (rcb ≠ 0 ∧ s.regionPlace r rcb ≠ some r)
        ∨ (s.deviceRead r lasts.toNat (64 * fieldOf rec_ 32 1)).1 = false →
      ∃ t, exec .portLaunch s = .next t ∧ s.KeepsBytes t ∧ t.groups = s.groups ∧ t.queue = s.queue ∧ PortBusy s t 3 0)
    ∧ (va.toNat % 64 = 0 → (s.deviceRead r va.toNat 64).1 = true → (launchFault rec_).isNone = true → fieldOf rec_ 20 4 = 0 → hva.toNat % 256 = 0 → (rcb = 0 ∨ s.regionPlace r rcb = some r) → (s.deviceRead r lasts.toNat (64 * fieldOf rec_ 32 1)).1 = true →
      let hdr := s.regionBytes r hva 256
      let h := parseHeader hva hdr
      ((s.deviceRead r hva.toNat 256).1 = false ∨ (s.headerValid r h hdr).1 = false → ∃ t, exec .portLaunch s = .next t ∧ s.KeepsBytes t ∧ t.groups = s.groups ∧ PortBusy s t 4 0)
      ∧ ((s.deviceRead r hva.toNat 256).1 = true → (s.headerValid r h hdr).1 = true → shapeCores (fieldOf rec_ 16 1) (fieldOf rec_ 17 1) (fieldOf rec_ 18 1) ≠ h.cores →
        ∃ t, exec .portLaunch s = .next t ∧ s.KeepsBytes t ∧ t.groups = s.groups ∧ PortBusy s t 3 0)
      ∧ ((s.deviceRead r hva.toNat 256).1 = true → (s.headerValid r h hdr).1 = true → shapeCores (fieldOf rec_ 16 1) (fieldOf rec_ 17 1) (fieldOf rec_ 18 1) = h.cores →
        let det := (s.effModeb r).getLsbD 0
        (h.detreq ≠ 0 → (h.detreq = 1 ↔ det = false) → ∃ t, exec .portLaunch s = .next t ∧ s.KeepsBytes t ∧ t.groups = s.groups ∧ PortBusy s t 5 0)
        ∧ (h.detreq = 0 ∨ (h.detreq = 1 ↔ det = true) → s.groups = [] → s.nextGid ≠ 0 → s.nextGid < 2 ^ 32 →
          ∃ t, exec .portLaunch s = .next t ∧ s.KeepsBytes t ∧ t.queue = s.queue ++ [s.nextGid] ∧ Due_ t .placement {} ∧ PortBusy s t 0 s.nextGid
            ∧ ∃ g, t.group? s.nextGid = some g ∧ g.region = r ∧ g.state = .queued ∧ g.header = h ∧ g.launchGtc = s.gtc.toNat ∧ g.notify = none
              ∧ (g.shape, g.cols, g.rows, g.die) = (fieldOf rec_ 16 1, fieldOf rec_ 17 1, fieldOf rec_ 18 1, fieldOf rec_ 19 1)))))
  ∧ (∀ (s : State) (r gid : Nat) (g : Group), portOpen s → 3 ≤ s.bootStage → (s.port s.obj.a).region = some r → s.obj.v.toNat % 2 ^ 32 = gid → s.group? gid = some g → g.gid = gid →
    (g.region ≠ r ∨ s.preemptible g 0 = false → ∃ t, exec .portPreempt s = .next t ∧ s.KeepsBytes t ∧ t.groups = s.groups ∧ PortBusy s t 0 (s.port s.obj.a).gid.toNat)
    ∧ (g.region = r → g.state = .running → g.preempt = false → s.preemptible g 0 = true →
      let due := s.gtc.toNat + s.effPto r
      ∃ t, exec .portPreempt s = .next t ∧ s.KeepsBytes t ∧ PortBusy s t 0 (s.port s.obj.a).gid.toNat ∧ DueAt t due .preemptTimeout { a := gid, c := due } ∧ Due_ t .saveRoutineStart { a := gid }
        ∧ ∃ h, t.group? gid = some h ∧ h.state = .stopping ∧ h.preempt = true ∧ h.deadline = due))
  ∧ (∀ (s : State) (r gid : Nat) (g : Group), portOpen s → 3 ≤ s.bootStage → (s.port s.obj.a).region = some r → s.obj.v.toNat % 2 ^ 32 = gid → gid ≠ 0xFFFFFFFF → s.group? gid = some g → g.gid = gid →
    (g.region ≠ r → ∃ t, exec .portKill s = .next t ∧ s.KeepsBytes t ∧ t.groups = s.groups ∧ PortBusy s t 0 (s.port s.obj.a).gid.toNat)
    ∧ (g.region = r → g.state = .running → ∃ t, exec .portKill s = .next t ∧ PortBusy s t 0 (s.port s.obj.a).gid.toNat
        ∧ (∃ h, t.group? gid = some h ∧ h.state = .ending ∧ h.killed = true)
        ∧ (∀ c i, (s.slot c i).live = true → (s.slot c i).gid = gid → (s.slot c i).guest = false → (t.slot c i).live = false))
    ∧ (g.region = r → g.state = .queued → ∃ t, exec .portKill s = .next t ∧ PortBusy s t 0 (s.port s.obj.a).gid.toNat ∧ t.group? gid = none ∧ gid ∉ t.queue))
  ∧ (∀ (s : State) (r : Nat), portOpen s → 3 ≤ s.bootStage → (s.port s.obj.a).region = some r → s.obj.v.toNat % 2 ^ 32 = 0xFFFFFFFF →
    ∃ t, exec .portKill s = .next t ∧ PortBusy s t 0 (s.port s.obj.a).gid.toNat
      ∧ ∀ k g, t.group? k = some g → s.isAncestor r g.region = true → g.state = .ending ∨ g.state = .releasing)
  ∧ ∀ (s : State), ∃ t, exec .portWriteDone s = .next t ∧ { t with ports := s.ports } = s ∧ (∀ p, p ≠ s.obj.a → t.port p = s.port p)
    ∧ t.port s.obj.a = { s.port s.obj.a with status := s.obj.b, gid := BitVec.ofNat 32 s.obj.c }

/-! ### Contexts between modules, the scheduler, and pre-emption -/

/-- R215 to R218, R243, R276, R279: the move of a context for a remote load, a guest's landing, its return, and its landing at home.
What these rules leave open is read as in log 31 and log 59, the model's own choices. -/
def Obligations.GuestSteps : Prop :=
  (∀ (s : State) (c i node addr : Nat), let x := s.slot c i
    let y := s.packed c i
    s.obj.a = c → s.obj.b = i → x.wait = .depart node addr →
    (x.live = false ∨ s.quiet c i = false → exec .remoteLoadMove s = .next s)
    ∧ (x.guest = false → y.guest = true ∧ y.homeNode = s.node ∧ y.homeSlot = x.idx ∧ y.home = x.home ∧ y.pc = x.pc ∧ ∀ k, k < 640 → y.frame.get k = s.spByte c (0x400 * i + k))
    ∧ (x.guest = true → y = { x with window := some (s.codeWindow c x) })
    ∧ (x.live = true → s.quiet c i = true → x.guest = false → x.home = c → x.idx = i →
      ∃ t, exec .remoteLoadMove s = .next t ∧ KeepsMemory s t ∧ OnlySlot s t c i { x with live := false, reserved := true, wait := .away, ins := none }
        ∧ (s.refusesAll node = false → PacketSent s t y node addr c i)
        ∧ (s.refusesAll node = true → (∃ p ∈ t.fabric, p.id = s.serial ∧ p.kind = .context y) ∧ Due_ t .fabricPacketDelivery { a := s.serial, ok := false }))
    ∧ (x.live = true → s.quiet c i = true → s.refusesAll node = false → x.guest = true → (s.die (dieOf c)).guests = [] → (∀ j, j ≠ i → (s.slot c j).wait = .ready) →
      ∃ t, exec .remoteLoadMove s = .next t ∧ KeepsMemory s t ∧ PacketSent s t y node addr c i ∧ Due_ t .placement {}
        ∧ (t.slot c i).live = false ∧ (t.slot c i).guest = false))
  ∧ (∀ (s : State) (p : FabricPacket) (x : Slot), stepPacket s p x → FirstToCome s p → x.homeNode ≠ s.node → (∀ d, p.id ∉ (s.die d).guests) → (∀ q ∈ s.dies, p.id ∉ q.2.guests) →
    (s.regionById p.region = none ∨ hbmTop ≤ p.addr → ∃ t, exec .guestLanding s = .next t ∧ s.KeepsBytes t ∧ t.cores = s.cores ∧ Taken s t p)
    ∧ ∀ rcb g, s.regionById p.region = some rcb → p.addr < hbmTop → (s.hbmLoc p.addr).home = .slice g → (s.die (State.preferredCore g / 256)).guests = [] →
      (s.guestCore (State.preferredCore g) = none →
        ∃ t, exec .guestLanding s = .next t ∧ KeepsMemory s t ∧ (∃ q ∈ t.fabric, q.id = p.id ∧ q.kind = p.kind) ∧ t.cores = s.cores ∧ (t.die (State.preferredCore g / 256)).guests = [p.id])
      ∧ ∀ i, s.guestSlot (State.preferredCore g) = some i → let c := State.preferredCore g
        ∃ t, exec .guestLanding s = .next t ∧ KeepsMemory s t ∧ Taken s t p ∧ (t.core c).l1 = [] ∧ (t.core c).on = true
          ∧ (∀ d j, d ≠ c ∨ j ≠ i → t.slot d j = s.slot d j)
          ∧ let y := t.slot c i
            y.live = true ∧ y.guest = true ∧ y.leave = false ∧ y.serial = s.serial ∧ y.region = rcb ∧ y.wait = .ready ∧ y.pc = x.pc ∧ y.frame = x.frame ∧ y.mode = x.mode ∧ y.window = x.window
              ∧ y.homeNode = x.homeNode ∧ y.home = x.home ∧ y.homeSlot = x.homeSlot ∧ y.phases = x.phases ∧ y.perr = x.perr)
  ∧ (∀ (s : State) (c i : Nat) (w : Option TrapInfo), let x := s.slot c i
    s.obj.a = c → s.obj.b = i → x.wait = .goHome w →
    (x.live = false ∨ x.guest = false ∨ s.quiet c i = false → exec .guestReturn s = .next s)
    ∧ (x.live = true → x.guest = true → s.quiet c i = true → s.refusesAll x.homeNode = false → (s.die (dieOf c)).guests = [] → (∀ j, j ≠ i → (s.slot c j).wait = .ready) →
      ∃ t, exec .guestReturn s = .next t ∧ KeepsMemory s t ∧ PacketSent s t { x with window := none } x.homeNode 0 c i ∧ Due_ t .placement {}
        ∧ (t.slot c i).live = false ∧ (t.slot c i).guest = false))
  ∧ ∀ (s : State) (p : FabricPacket) (x : Slot), stepPacket s p x → FirstToCome s p → x.homeNode = s.node →
    let z := s.slot x.home x.homeSlot
    (s.awayFrom z = false → ∃ t, exec .guestHomeLanding s = .next t ∧ s.KeepsBytes t ∧ t.cores = s.cores ∧ Taken s t p)
    ∧ (s.awayFrom z = true → x.wait = .goHome none → landable s x.home (0x400 * x.homeSlot) 640 = true →
      ∃ t, exec .guestHomeLanding s = .next t ∧ t.mem = s.mem ∧ LandsAt s t x.home (0x400 * x.homeSlot) (x.frame.bytes 0 640)
        ∧ Taken s t p ∧ (t.core x.home).l1 = []
        ∧ let y := t.slot x.home x.homeSlot
          y.live = true ∧ y.reserved = false ∧ y.wait = .ready ∧ y.pc = x.pc ∧ y.phases = x.phases ∧ y.perr = x.perr ∧ y.guest = z.guest ∧ y.gid = z.gid)

/-- R13, R191, R231, R249, R253, R254: the release of a pitch, the end of its scrub, and the placement of the request that comes first.
What these rules leave open is read as in log 29, the model's own choices. -/
def Obligations.ScheduleSteps : Prop :=
  (∀ (s : State) (g : Group), stepGroup s g →
    (g.state ≠ .ending ∨ s.unitsBusy g = true → exec .pitchRelease s = .next s)
    ∧ (g.state = .ending → s.unitsBusy g = false → (∀ c ∈ g.pitch, (s.core c).chans = [] ∧ ∀ q ∈ (s.core c).slots, q.2.guest = false) →
      ∃ t, exec .pitchRelease s = .next t ∧ t.mem = s.mem ∧ (∀ c ∈ g.pitch, Released s t c) ∧ (∀ c, c ∉ g.pitch → (t.core c).sp = (s.core c).sp ∧ (t.core c).gid = (s.core c).gid)
        ∧ { due := .cycle (s.cycle + 8192), rank := 0, ins := .releaseScrubDone, obj := { a := g.gid } } ∈ t.agenda ∧ Due_ t .placement {}
        ∧ ∃ h, t.group? g.gid = some h ∧ h.state = .releasing ∧ h.header = g.header))
  ∧ (∀ (s : State) (g : Group), stepGroup s g → g.state = .releasing → s.queue = [] →
    ∃ t, exec .releaseScrubDone s = .next t ∧ { t with groups := s.groups } = s ∧ t.group? g.gid = none ∧ ∀ k, k ≠ g.gid → t.group? k = s.group? k)
  ∧ (∀ (s : State) (g : Group), s.queue = [g.gid] → s.groups = [(g.gid, g)] → g.state = .queued →
    let open_ := fun (p : List Nat) => s.fits s.coreFree g p && (s.barredCores g p).isEmpty
    (s.budgetAllows g = false → exec .placement s = .next s)
    ∧ (s.budgetAllows g = true → State.findPitch g (s.fits s.coreFree g) = none → exec .placement s = .next s)
    ∧ ∀ p, s.budgetAllows g = true → State.findPitch g open_ = some p → (∀ c ∈ p, ∀ q ∈ (s.core c).slots, q.2.guest = false) → p.Nodup →
      ∃ t, exec .placement s = .next t ∧ t.mem = s.mem ∧ t.queue = [] ∧ (∀ c ∈ p, Started t { g with pitch := p } c) ∧ (∀ c ∈ p, s.cycle < (t.core c).nextCycle ∧ ∀ d ∈ p, (t.core d).nextCycle = (t.core c).nextCycle)
        ∧ (∀ c, c ∉ p → (t.core c).sp = (s.core c).sp ∧ (t.core c).gid = (s.core c).gid ∧ ∀ i, t.slot c i = s.slot c i)
        ∧ t.group? g.gid = some { g with pitch := p, state := .running })
  ∧ ∀ (g : Group) (d k : Nat), g.die = d → d < 8 → g.shape = 0 → k < 256 →
    State.findPitch g (fun p => p == [256 * d + k]) = some [256 * d + k]

/-- R144, R206, R234, R256 to R258, R279: the stop of a group, its save routines, the hardware part, the time-out, and the
write-back. What these rules leave open is read as in log 30 and log 64, the model's own
choices. -/
def Obligations.PreemptionSteps : Prop :=
  (∀ (s : State) (g : Group), stepGroup s g → g.state = .stopping →
    (s.hasStopped g = false → ∃ t, exec .saveRoutineStart s = .next t ∧ s.KeepsBytes t ∧ t.groups = s.groups ∧ t.cores = s.cores ∧ Due_ t .saveRoutineStart { a := g.gid })
    ∧ (s.hasStopped g = true → (s.liveSlots g.gid).Nodup → (∀ p ∈ s.liveSlots g.gid, (s.slot p.1 p.2).wait = .ready) →
      ∃ t, exec .saveRoutineStart s = .next t ∧ t.mem = s.mem ∧ Due_ t .saveRoutineStart { a := g.gid } ∧ (∃ h, t.group? g.gid = some h ∧ h.state = .saving)
        ∧ ∀ p ∈ s.liveSlots g.gid, ∀ n, (s.slot p.1 p.2).stopped = some (some n) → s.routineAt g n false ≠ 0 → p.2 < 16 → (s.core p.1).sp.wf = true →
          let y := t.slot p.1 p.2
          y.pc = s.routineAt g n false ∧ y.resume = (s.slot p.1 p.2).pc ∧ y.routine = some .save ∧ y.wait = .ready ∧ t.wreg p.1 p.2 26 = State.saveArea g (g.pitch.idxOf p.1) p.2))
  ∧ (∀ (s : State) (g : Group), stepGroup s g → g.state = .saving →
    (s.routinesEnded g = false → ∃ t, exec .saveRoutineStart s = .next t ∧ s.KeepsBytes t ∧ t.groups = s.groups ∧ t.cores = s.cores ∧ Due_ t .saveRoutineStart { a := g.gid })
    ∧ (s.routinesEnded g = true → exec .saveRoutineStart s =
        .next { s with agenda := s.agenda ++ [{ due := .cycle s.cycle, rank := 0, ins := .preemptHwSave, obj := { a := g.gid } }] }))
  ∧ (∀ (s : State) (g : Group), stepGroup s g → g.state = .saving → s.routinesEnded g = true → (∀ c ∈ g.pitch, (s.core c).chans = [] ∧ ∀ q ∈ (s.core c).slots, q.2.guest = false) →
    let bs := (List.range (4096 + 4096 * g.header.cores)).map fun i => Config.freeByte (s.free + i)
    let w := { s with free := s.free + (4096 + 4096 * g.header.cores) }.writeFrame g.region (g.frame.getD 0) bs
    let fault := match w with | .error i => some i | .ok _ => none
    ∃ t, exec .preemptHwSave s = .next t ∧ (∀ i, fault = some i → t = s.faultDomain State.deviceSource g.gid i.cause.code i.tval)
      ∧ (fault = none → t.queue = s.queue ++ [g.gid] ∧ (∀ c ∈ g.pitch, Released s t c) ∧ Due_ t .placement {}
          ∧ { due := .cycle (s.cycle + 8192), rank := 0, ins := .releaseScrubDone, obj := { a := g.gid } } ∈ t.agenda
          ∧ ∃ h, t.group? g.gid = some h ∧ h.state = .saved ∧ h.preempt = false ∧ (∃ sv, h.saved = some sv ∧ sv.bytes = bs) ∧ h.pitch = g.pitch ∧ h.prio = s.effPrio g.region))
  ∧ (∀ (s : State) (g : Group), stepGroup s g →
    (g.preempt = false ∨ g.deadline ≠ s.obj.c → exec .preemptTimeout s = .next s)
    ∧ (g.preempt = true → g.deadline = s.obj.c → g.state ∈ [.stopping, .saving, .restoring, .handOff, .scrubbing] → s.effFdom g.region ≠ 2 →
      ∃ t, exec .preemptTimeout s = .next t ∧ (∃ h, t.group? g.gid = some h ∧ h.state = .ending ∧ h.killed = true)
        ∧ (s.effEvbase g.region = 0 → t.mem = s.mem)
        ∧ ∀ c i, (s.slot c i).live = true → (s.slot c i).gid = g.gid → (s.slot c i).guest = false → (t.slot c i).live = false))
  ∧ ∀ (s : State) (g : Group) (sv : Saved), stepGroup s g → g.state = .restoring → g.saved = some sv → g.preempt = false →
    let ended := (s.liveSlots g.gid).all fun p => (s.slot p.1 p.2).routine.isNone && s.atRest p
    (ended = false ∨ s.unitsBusy g = true → ∃ t, exec .restoreHwWriteback s = .next t ∧ s.KeepsBytes t ∧ t.groups = s.groups ∧ t.cores = s.cores ∧ Due_ t .restoreHwWriteback { a := g.gid })
    ∧ (∀ x, ended = true → s.unitsBusy g = false → s.readFrame g.region (g.frame.getD 0) (4096 + 4096 * g.header.cores) = .error x →
      exec .restoreHwWriteback s = .next (s.faultDomain State.deviceSource g.gid x.cause.code x.tval))
    ∧ (∀ bs u, ended = true → s.unitsBusy g = false → s.readFrame g.region (g.frame.getD 0) (4096 + 4096 * g.header.cores) = .ok (bs, u) → bs ≠ sv.bytes → s.sound = true → sv.told = [] →
      ∃ t, exec .restoreHwWriteback s = .next t ∧ ∃ h, t.group? g.gid = some h
        ∧ (State.rereadSaved bs g sv = none → h.state = .ending ∧ h.killed = true)
        ∧ ∀ w, State.rereadSaved bs g sv = some w → h.state = .running ∧ h.saved = none ∧ h.frame = none ∧ h.rdv = w.rdv)
    ∧ (∀ u, ended = true → s.unitsBusy g = false → s.readFrame g.region (g.frame.getD 0) (4096 + 4096 * g.header.cores) = .ok (sv.bytes, u) → s.sound = true → sv.told = [] → g.pitch.Nodup →
      ∃ t, exec .restoreHwWriteback s = .next t ∧ s.KeepsBytes t
        ∧ (∃ h, t.group? g.gid = some h ∧ h.state = .running ∧ h.saved = none ∧ h.frame = none ∧ h.rdv = sv.rdv)
        ∧ (∀ c ∈ g.pitch, let r := g.pitch.idxOf c
            (t.core c).mbs = tget sv.mbs r [] ∧ (t.core c).hs = tget sv.hs r []
              ∧ ∀ i, (s.slot c i).live = true → (s.slot c i).guest = false →
                  let y := tget (tget sv.slots r []) i (s.slot c i)
                  t.slot c i = { s.slot c i with stopped := none, wait := .ready, own := true, fetched := none, pc := y.pc, phases := y.phases })
        ∧ (∀ c, c ∉ g.pitch → t.core c = s.core c)
        ∧ ((State.clustersOf g.pitch).length = 1 → (tget sv.accs 0 []).length = 1 → ∀ q ∈ tget sv.accs 0 [], ∀ a, accOf g.pitch q.1 = some a →
            let k := t.acc ((State.clustersOf g.pitch).headD 0) a
            k.version = q.2.1 ∧ k.status = q.2.2))
end

