-- ==== Sys2Proof/Laws/Decoder.lean ====
section
/-! SUPPORT. The decoded frame: it has the length that its command's crop window and output format give it (R175, R176). -/

namespace Sys2Proof.Machine

theorem leBytes_length (n v : Nat) : (leBytes n v).length = n := by
  induction n generalizing v with
  | zero => rfl
  | succ n ih => simp [leBytes, ih]

/-- Rows of columns of samples of one size. -/
theorem plane_length (h w n : Nat) (f : Nat → Nat → List Byte) (hf : ∀ x y, (f x y).length = n) :
    ((List.range h).flatMap fun y => (List.range w).flatMap fun x => f x y).length = h * (w * n) := by
  have row : ∀ y, ((List.range w).flatMap fun x => f x y).length = w * n := fun y => by
    simp [List.length_flatMap, hf, List.map_const']
  simp [List.length_flatMap, row, List.map_const']

theorem frameBytes_length (r : VdecRec) (fr : Config.Frame) : (frameBytes r fr).length = frameLen r fr.depth := by
  unfold frameBytes frameLen
  split
  · simp only [List.length_append]
    rw [plane_length _ _ _ _ fun _ _ => leBytes_length _ _, plane_length _ _ _ _ fun _ _ => leBytes_length _ _, plane_length _ _ _ _ fun _ _ => leBytes_length _ _]
    simp only [Nat.add_mul, Nat.two_mul, Nat.mul_assoc, Nat.add_assoc, Nat.mul_left_comm r.h, Nat.mul_left_comm (r.h / 2)]
  · have planes : ∀ l : List Nat, ∀ f : Nat → List Byte, (∀ p, (f p).length = r.h * (r.w * (outFormat r.outfmt).2)) →
        (l.flatMap f).length = l.length * (r.h * (r.w * (outFormat r.outfmt).2)) := fun l f hf => by
      simp [List.length_flatMap, hf, List.map_const']
    simp only
    rw [planes _ _ fun p => plane_length _ _ _ _ fun _ _ => leBytes_length _ _, List.length_range]
    simp only [Nat.mul_assoc, Nat.mul_left_comm r.h]

end Sys2Proof.Machine
end

