-- ==== Sys2Proof/Laws/State.lean ====
section
/-!
SUPPORT. What each update of the state leaves as it was: one lemma for each field and update, true by unfolding.
-/
namespace Sys2Proof.Machine.State

section setCore
variable (s : State) (c : Nat) (x : Core)
@[simp] theorem setCore_cycle : (s.setCore c x).cycle = s.cycle := rfl
@[simp] theorem setCore_gtc : (s.setCore c x).gtc = s.gtc := rfl
@[simp] theorem setCore_gtcRem : (s.setCore c x).gtcRem = s.gtcRem := rfl
@[simp] theorem setCore_gtcOff : (s.setCore c x).gtcOff = s.gtcOff := rfl
@[simp] theorem setCore_gtcWarn : (s.setCore c x).gtcWarn = s.gtcWarn := rfl
@[simp] theorem setCore_mhz : (s.setCore c x).mhz = s.mhz := rfl
@[simp] theorem setCore_budget : (s.setCore c x).budget = s.budget := rfl
@[simp] theorem setCore_windows : (s.setCore c x).windows = s.windows := rfl
@[simp] theorem setCore_avgw : (s.setCore c x).avgw = s.avgw := rfl
@[simp] theorem setCore_pcap : (s.setCore c x).pcap = s.pcap := rfl
@[simp] theorem setCore_glbase : (s.setCore c x).glbase = s.glbase := rfl
@[simp] theorem setCore_node : (s.setCore c x).node = s.node := rfl
@[simp] theorem setCore_stopped : (s.setCore c x).stopped = s.stopped := rfl
@[simp] theorem setCore_bootStage : (s.setCore c x).bootStage = s.bootStage := rfl
@[simp] theorem setCore_bootFail : (s.setCore c x).bootFail = s.bootFail := rfl
@[simp] theorem setCore_resets : (s.setCore c x).resets = s.resets := rfl
@[simp] theorem setCore_chain : (s.setCore c x).chain = s.chain := rfl
@[simp] theorem setCore_attLog : (s.setCore c x).attLog = s.attLog := rfl
@[simp] theorem setCore_quotes : (s.setCore c x).quotes = s.quotes := rfl
@[simp] theorem setCore_mem : (s.setCore c x).mem = s.mem := rfl
@[simp] theorem setCore_lasting : (s.setCore c x).lasting = s.lasting := rfl
@[simp] theorem setCore_transient : (s.setCore c x).transient = s.transient := rfl
@[simp] theorem setCore_correctable : (s.setCore c x).correctable = s.correctable := rfl
@[simp] theorem setCore_badRows : (s.setCore c x).badRows = s.badRows := rfl
@[simp] theorem setCore_art : (s.setCore c x).art = s.art := rfl
@[simp] theorem setCore_quota : (s.setCore c x).quota = s.quota := rfl
@[simp] theorem setCore_l2 : (s.setCore c x).l2 = s.l2 := rfl
@[simp] theorem setCore_invAddr : (s.setCore c x).invAddr = s.invAddr := rfl
@[simp] theorem setCore_invCtl : (s.setCore c x).invCtl = s.invCtl := rfl
@[simp] theorem setCore_invStat : (s.setCore c x).invStat = s.invStat := rfl
@[simp] theorem setCore_ports : (s.setCore c x).ports = s.ports := rfl
@[simp] theorem setCore_regions : (s.setCore c x).regions = s.regions := rfl
@[simp] theorem setCore_groups : (s.setCore c x).groups = s.groups := rfl
@[simp] theorem setCore_queue : (s.setCore c x).queue = s.queue := rfl
@[simp] theorem setCore_nextGid : (s.setCore c x).nextGid = s.nextGid := rfl
@[simp] theorem setCore_mcast : (s.setCore c x).mcast = s.mcast := rfl
@[simp] theorem setCore_links : (s.setCore c x).links = s.links := rfl
@[simp] theorem setCore_unreachable : (s.setCore c x).unreachable = s.unreachable := rfl
@[simp] theorem setCore_cxlDown : (s.setCore c x).cxlDown = s.cxlDown := rfl
@[simp] theorem setCore_resync : (s.setCore c x).resync = s.resync := rfl
@[simp] theorem setCore_resyncStat : (s.setCore c x).resyncStat = s.resyncStat := rfl
@[simp] theorem setCore_clusters : (s.setCore c x).clusters = s.clusters := rfl
@[simp] theorem setCore_dies : (s.setCore c x).dies = s.dies := rfl
@[simp] theorem setCore_net : (s.setCore c x).net = s.net := rfl
@[simp] theorem setCore_transfers : (s.setCore c x).transfers = s.transfers := rfl
@[simp] theorem setCore_moves : (s.setCore c x).moves = s.moves := rfl
@[simp] theorem setCore_fabric : (s.setCore c x).fabric = s.fabric := rfl
@[simp] theorem setCore_fabOut : (s.setCore c x).fabOut = s.fabOut := rfl
@[simp] theorem setCore_fabIn : (s.setCore c x).fabIn = s.fabIn := rfl
@[simp] theorem setCore_agenda : (s.setCore c x).agenda = s.agenda := rfl
@[simp] theorem setCore_serial : (s.setCore c x).serial = s.serial := rfl
@[simp] theorem setCore_free : (s.setCore c x).free = s.free := rfl
@[simp] theorem setCore_curCid : (s.setCore c x).curCid = s.curCid := rfl
@[simp] theorem setCore_curSlot : (s.setCore c x).curSlot = s.curSlot := rfl
@[simp] theorem setCore_lender : (s.setCore c x).lender = s.lender := rfl
@[simp] theorem setCore_banks : (s.setCore c x).banks = s.banks := rfl
@[simp] theorem setCore_obj : (s.setCore c x).obj = s.obj := rfl
end setCore

section modCore
variable (s : State) (c : Nat) (f : Core → Core)
@[simp] theorem modCore_cycle : (s.modCore c f).cycle = s.cycle := rfl
@[simp] theorem modCore_gtc : (s.modCore c f).gtc = s.gtc := rfl
@[simp] theorem modCore_gtcRem : (s.modCore c f).gtcRem = s.gtcRem := rfl
@[simp] theorem modCore_gtcOff : (s.modCore c f).gtcOff = s.gtcOff := rfl
@[simp] theorem modCore_gtcWarn : (s.modCore c f).gtcWarn = s.gtcWarn := rfl
@[simp] theorem modCore_mhz : (s.modCore c f).mhz = s.mhz := rfl
@[simp] theorem modCore_budget : (s.modCore c f).budget = s.budget := rfl
@[simp] theorem modCore_windows : (s.modCore c f).windows = s.windows := rfl
@[simp] theorem modCore_avgw : (s.modCore c f).avgw = s.avgw := rfl
@[simp] theorem modCore_pcap : (s.modCore c f).pcap = s.pcap := rfl
@[simp] theorem modCore_glbase : (s.modCore c f).glbase = s.glbase := rfl
@[simp] theorem modCore_node : (s.modCore c f).node = s.node := rfl
@[simp] theorem modCore_stopped : (s.modCore c f).stopped = s.stopped := rfl
@[simp] theorem modCore_bootStage : (s.modCore c f).bootStage = s.bootStage := rfl
@[simp] theorem modCore_bootFail : (s.modCore c f).bootFail = s.bootFail := rfl
@[simp] theorem modCore_resets : (s.modCore c f).resets = s.resets := rfl
@[simp] theorem modCore_chain : (s.modCore c f).chain = s.chain := rfl
@[simp] theorem modCore_attLog : (s.modCore c f).attLog = s.attLog := rfl
@[simp] theorem modCore_quotes : (s.modCore c f).quotes = s.quotes := rfl
@[simp] theorem modCore_mem : (s.modCore c f).mem = s.mem := rfl
@[simp] theorem modCore_lasting : (s.modCore c f).lasting = s.lasting := rfl
@[simp] theorem modCore_transient : (s.modCore c f).transient = s.transient := rfl
@[simp] theorem modCore_correctable : (s.modCore c f).correctable = s.correctable := rfl
@[simp] theorem modCore_badRows : (s.modCore c f).badRows = s.badRows := rfl
@[simp] theorem modCore_art : (s.modCore c f).art = s.art := rfl
@[simp] theorem modCore_quota : (s.modCore c f).quota = s.quota := rfl
@[simp] theorem modCore_l2 : (s.modCore c f).l2 = s.l2 := rfl
@[simp] theorem modCore_invAddr : (s.modCore c f).invAddr = s.invAddr := rfl
@[simp] theorem modCore_invCtl : (s.modCore c f).invCtl = s.invCtl := rfl
@[simp] theorem modCore_invStat : (s.modCore c f).invStat = s.invStat := rfl
@[simp] theorem modCore_ports : (s.modCore c f).ports = s.ports := rfl
@[simp] theorem modCore_regions : (s.modCore c f).regions = s.regions := rfl
@[simp] theorem modCore_groups : (s.modCore c f).groups = s.groups := rfl
@[simp] theorem modCore_queue : (s.modCore c f).queue = s.queue := rfl
@[simp] theorem modCore_nextGid : (s.modCore c f).nextGid = s.nextGid := rfl
@[simp] theorem modCore_mcast : (s.modCore c f).mcast = s.mcast := rfl
@[simp] theorem modCore_links : (s.modCore c f).links = s.links := rfl
@[simp] theorem modCore_unreachable : (s.modCore c f).unreachable = s.unreachable := rfl
@[simp] theorem modCore_cxlDown : (s.modCore c f).cxlDown = s.cxlDown := rfl
@[simp] theorem modCore_resync : (s.modCore c f).resync = s.resync := rfl
@[simp] theorem modCore_resyncStat : (s.modCore c f).resyncStat = s.resyncStat := rfl
@[simp] theorem modCore_clusters : (s.modCore c f).clusters = s.clusters := rfl
@[simp] theorem modCore_dies : (s.modCore c f).dies = s.dies := rfl
@[simp] theorem modCore_net : (s.modCore c f).net = s.net := rfl
@[simp] theorem modCore_transfers : (s.modCore c f).transfers = s.transfers := rfl
@[simp] theorem modCore_moves : (s.modCore c f).moves = s.moves := rfl
@[simp] theorem modCore_fabric : (s.modCore c f).fabric = s.fabric := rfl
@[simp] theorem modCore_fabOut : (s.modCore c f).fabOut = s.fabOut := rfl
@[simp] theorem modCore_fabIn : (s.modCore c f).fabIn = s.fabIn := rfl
@[simp] theorem modCore_agenda : (s.modCore c f).agenda = s.agenda := rfl
@[simp] theorem modCore_serial : (s.modCore c f).serial = s.serial := rfl
@[simp] theorem modCore_free : (s.modCore c f).free = s.free := rfl
@[simp] theorem modCore_curCid : (s.modCore c f).curCid = s.curCid := rfl
@[simp] theorem modCore_curSlot : (s.modCore c f).curSlot = s.curSlot := rfl
@[simp] theorem modCore_lender : (s.modCore c f).lender = s.lender := rfl
@[simp] theorem modCore_banks : (s.modCore c f).banks = s.banks := rfl
@[simp] theorem modCore_obj : (s.modCore c f).obj = s.obj := rfl
end modCore

section setSlot
variable (s : State) (c i : Nat) (x : Slot)
@[simp] theorem setSlot_cycle : (s.setSlot c i x).cycle = s.cycle := rfl
@[simp] theorem setSlot_gtc : (s.setSlot c i x).gtc = s.gtc := rfl
@[simp] theorem setSlot_gtcRem : (s.setSlot c i x).gtcRem = s.gtcRem := rfl
@[simp] theorem setSlot_gtcOff : (s.setSlot c i x).gtcOff = s.gtcOff := rfl
@[simp] theorem setSlot_gtcWarn : (s.setSlot c i x).gtcWarn = s.gtcWarn := rfl
@[simp] theorem setSlot_mhz : (s.setSlot c i x).mhz = s.mhz := rfl
@[simp] theorem setSlot_budget : (s.setSlot c i x).budget = s.budget := rfl
@[simp] theorem setSlot_windows : (s.setSlot c i x).windows = s.windows := rfl
@[simp] theorem setSlot_avgw : (s.setSlot c i x).avgw = s.avgw := rfl
@[simp] theorem setSlot_pcap : (s.setSlot c i x).pcap = s.pcap := rfl
@[simp] theorem setSlot_glbase : (s.setSlot c i x).glbase = s.glbase := rfl
@[simp] theorem setSlot_node : (s.setSlot c i x).node = s.node := rfl
@[simp] theorem setSlot_stopped : (s.setSlot c i x).stopped = s.stopped := rfl
@[simp] theorem setSlot_bootStage : (s.setSlot c i x).bootStage = s.bootStage := rfl
@[simp] theorem setSlot_bootFail : (s.setSlot c i x).bootFail = s.bootFail := rfl
@[simp] theorem setSlot_resets : (s.setSlot c i x).resets = s.resets := rfl
@[simp] theorem setSlot_chain : (s.setSlot c i x).chain = s.chain := rfl
@[simp] theorem setSlot_attLog : (s.setSlot c i x).attLog = s.attLog := rfl
@[simp] theorem setSlot_quotes : (s.setSlot c i x).quotes = s.quotes := rfl
@[simp] theorem setSlot_mem : (s.setSlot c i x).mem = s.mem := rfl
@[simp] theorem setSlot_lasting : (s.setSlot c i x).lasting = s.lasting := rfl
@[simp] theorem setSlot_transient : (s.setSlot c i x).transient = s.transient := rfl
@[simp] theorem setSlot_correctable : (s.setSlot c i x).correctable = s.correctable := rfl
@[simp] theorem setSlot_badRows : (s.setSlot c i x).badRows = s.badRows := rfl
@[simp] theorem setSlot_art : (s.setSlot c i x).art = s.art := rfl
@[simp] theorem setSlot_quota : (s.setSlot c i x).quota = s.quota := rfl
@[simp] theorem setSlot_l2 : (s.setSlot c i x).l2 = s.l2 := rfl
@[simp] theorem setSlot_invAddr : (s.setSlot c i x).invAddr = s.invAddr := rfl
@[simp] theorem setSlot_invCtl : (s.setSlot c i x).invCtl = s.invCtl := rfl
@[simp] theorem setSlot_invStat : (s.setSlot c i x).invStat = s.invStat := rfl
@[simp] theorem setSlot_ports : (s.setSlot c i x).ports = s.ports := rfl
@[simp] theorem setSlot_regions : (s.setSlot c i x).regions = s.regions := rfl
@[simp] theorem setSlot_groups : (s.setSlot c i x).groups = s.groups := rfl
@[simp] theorem setSlot_queue : (s.setSlot c i x).queue = s.queue := rfl
@[simp] theorem setSlot_nextGid : (s.setSlot c i x).nextGid = s.nextGid := rfl
@[simp] theorem setSlot_mcast : (s.setSlot c i x).mcast = s.mcast := rfl
@[simp] theorem setSlot_links : (s.setSlot c i x).links = s.links := rfl
@[simp] theorem setSlot_unreachable : (s.setSlot c i x).unreachable = s.unreachable := rfl
@[simp] theorem setSlot_cxlDown : (s.setSlot c i x).cxlDown = s.cxlDown := rfl
@[simp] theorem setSlot_resync : (s.setSlot c i x).resync = s.resync := rfl
@[simp] theorem setSlot_resyncStat : (s.setSlot c i x).resyncStat = s.resyncStat := rfl
@[simp] theorem setSlot_clusters : (s.setSlot c i x).clusters = s.clusters := rfl
@[simp] theorem setSlot_dies : (s.setSlot c i x).dies = s.dies := rfl
@[simp] theorem setSlot_net : (s.setSlot c i x).net = s.net := rfl
@[simp] theorem setSlot_transfers : (s.setSlot c i x).transfers = s.transfers := rfl
@[simp] theorem setSlot_moves : (s.setSlot c i x).moves = s.moves := rfl
@[simp] theorem setSlot_fabric : (s.setSlot c i x).fabric = s.fabric := rfl
@[simp] theorem setSlot_fabOut : (s.setSlot c i x).fabOut = s.fabOut := rfl
@[simp] theorem setSlot_fabIn : (s.setSlot c i x).fabIn = s.fabIn := rfl
@[simp] theorem setSlot_agenda : (s.setSlot c i x).agenda = s.agenda := rfl
@[simp] theorem setSlot_serial : (s.setSlot c i x).serial = s.serial := rfl
@[simp] theorem setSlot_free : (s.setSlot c i x).free = s.free := rfl
@[simp] theorem setSlot_curCid : (s.setSlot c i x).curCid = s.curCid := rfl
@[simp] theorem setSlot_curSlot : (s.setSlot c i x).curSlot = s.curSlot := rfl
@[simp] theorem setSlot_lender : (s.setSlot c i x).lender = s.lender := rfl
@[simp] theorem setSlot_banks : (s.setSlot c i x).banks = s.banks := rfl
@[simp] theorem setSlot_obj : (s.setSlot c i x).obj = s.obj := rfl
end setSlot

section modSlot
variable (s : State) (c i : Nat) (f : Slot → Slot)
@[simp] theorem modSlot_cycle : (s.modSlot c i f).cycle = s.cycle := rfl
@[simp] theorem modSlot_gtc : (s.modSlot c i f).gtc = s.gtc := rfl
@[simp] theorem modSlot_gtcRem : (s.modSlot c i f).gtcRem = s.gtcRem := rfl
@[simp] theorem modSlot_gtcOff : (s.modSlot c i f).gtcOff = s.gtcOff := rfl
@[simp] theorem modSlot_gtcWarn : (s.modSlot c i f).gtcWarn = s.gtcWarn := rfl
@[simp] theorem modSlot_mhz : (s.modSlot c i f).mhz = s.mhz := rfl
@[simp] theorem modSlot_budget : (s.modSlot c i f).budget = s.budget := rfl
@[simp] theorem modSlot_windows : (s.modSlot c i f).windows = s.windows := rfl
@[simp] theorem modSlot_avgw : (s.modSlot c i f).avgw = s.avgw := rfl
@[simp] theorem modSlot_pcap : (s.modSlot c i f).pcap = s.pcap := rfl
@[simp] theorem modSlot_glbase : (s.modSlot c i f).glbase = s.glbase := rfl
@[simp] theorem modSlot_node : (s.modSlot c i f).node = s.node := rfl
@[simp] theorem modSlot_stopped : (s.modSlot c i f).stopped = s.stopped := rfl
@[simp] theorem modSlot_bootStage : (s.modSlot c i f).bootStage = s.bootStage := rfl
@[simp] theorem modSlot_bootFail : (s.modSlot c i f).bootFail = s.bootFail := rfl
@[simp] theorem modSlot_resets : (s.modSlot c i f).resets = s.resets := rfl
@[simp] theorem modSlot_chain : (s.modSlot c i f).chain = s.chain := rfl
@[simp] theorem modSlot_attLog : (s.modSlot c i f).attLog = s.attLog := rfl
@[simp] theorem modSlot_quotes : (s.modSlot c i f).quotes = s.quotes := rfl
@[simp] theorem modSlot_mem : (s.modSlot c i f).mem = s.mem := rfl
@[simp] theorem modSlot_lasting : (s.modSlot c i f).lasting = s.lasting := rfl
@[simp] theorem modSlot_transient : (s.modSlot c i f).transient = s.transient := rfl
@[simp] theorem modSlot_correctable : (s.modSlot c i f).correctable = s.correctable := rfl
@[simp] theorem modSlot_badRows : (s.modSlot c i f).badRows = s.badRows := rfl
@[simp] theorem modSlot_art : (s.modSlot c i f).art = s.art := rfl
@[simp] theorem modSlot_quota : (s.modSlot c i f).quota = s.quota := rfl
@[simp] theorem modSlot_l2 : (s.modSlot c i f).l2 = s.l2 := rfl
@[simp] theorem modSlot_invAddr : (s.modSlot c i f).invAddr = s.invAddr := rfl
@[simp] theorem modSlot_invCtl : (s.modSlot c i f).invCtl = s.invCtl := rfl
@[simp] theorem modSlot_invStat : (s.modSlot c i f).invStat = s.invStat := rfl
@[simp] theorem modSlot_ports : (s.modSlot c i f).ports = s.ports := rfl
@[simp] theorem modSlot_regions : (s.modSlot c i f).regions = s.regions := rfl
@[simp] theorem modSlot_groups : (s.modSlot c i f).groups = s.groups := rfl
@[simp] theorem modSlot_queue : (s.modSlot c i f).queue = s.queue := rfl
@[simp] theorem modSlot_nextGid : (s.modSlot c i f).nextGid = s.nextGid := rfl
@[simp] theorem modSlot_mcast : (s.modSlot c i f).mcast = s.mcast := rfl
@[simp] theorem modSlot_links : (s.modSlot c i f).links = s.links := rfl
@[simp] theorem modSlot_unreachable : (s.modSlot c i f).unreachable = s.unreachable := rfl
@[simp] theorem modSlot_cxlDown : (s.modSlot c i f).cxlDown = s.cxlDown := rfl
@[simp] theorem modSlot_resync : (s.modSlot c i f).resync = s.resync := rfl
@[simp] theorem modSlot_resyncStat : (s.modSlot c i f).resyncStat = s.resyncStat := rfl
@[simp] theorem modSlot_clusters : (s.modSlot c i f).clusters = s.clusters := rfl
@[simp] theorem modSlot_dies : (s.modSlot c i f).dies = s.dies := rfl
@[simp] theorem modSlot_net : (s.modSlot c i f).net = s.net := rfl
@[simp] theorem modSlot_transfers : (s.modSlot c i f).transfers = s.transfers := rfl
@[simp] theorem modSlot_moves : (s.modSlot c i f).moves = s.moves := rfl
@[simp] theorem modSlot_fabric : (s.modSlot c i f).fabric = s.fabric := rfl
@[simp] theorem modSlot_fabOut : (s.modSlot c i f).fabOut = s.fabOut := rfl
@[simp] theorem modSlot_fabIn : (s.modSlot c i f).fabIn = s.fabIn := rfl
@[simp] theorem modSlot_agenda : (s.modSlot c i f).agenda = s.agenda := rfl
@[simp] theorem modSlot_serial : (s.modSlot c i f).serial = s.serial := rfl
@[simp] theorem modSlot_free : (s.modSlot c i f).free = s.free := rfl
@[simp] theorem modSlot_curCid : (s.modSlot c i f).curCid = s.curCid := rfl
@[simp] theorem modSlot_curSlot : (s.modSlot c i f).curSlot = s.curSlot := rfl
@[simp] theorem modSlot_lender : (s.modSlot c i f).lender = s.lender := rfl
@[simp] theorem modSlot_banks : (s.modSlot c i f).banks = s.banks := rfl
@[simp] theorem modSlot_obj : (s.modSlot c i f).obj = s.obj := rfl
end modSlot

section modHere
variable (s : State) (f : Slot → Slot)
@[simp] theorem modHere_cycle : (s.modHere f).cycle = s.cycle := rfl
@[simp] theorem modHere_gtc : (s.modHere f).gtc = s.gtc := rfl
@[simp] theorem modHere_gtcRem : (s.modHere f).gtcRem = s.gtcRem := rfl
@[simp] theorem modHere_gtcOff : (s.modHere f).gtcOff = s.gtcOff := rfl
@[simp] theorem modHere_gtcWarn : (s.modHere f).gtcWarn = s.gtcWarn := rfl
@[simp] theorem modHere_mhz : (s.modHere f).mhz = s.mhz := rfl
@[simp] theorem modHere_budget : (s.modHere f).budget = s.budget := rfl
@[simp] theorem modHere_windows : (s.modHere f).windows = s.windows := rfl
@[simp] theorem modHere_avgw : (s.modHere f).avgw = s.avgw := rfl
@[simp] theorem modHere_pcap : (s.modHere f).pcap = s.pcap := rfl
@[simp] theorem modHere_glbase : (s.modHere f).glbase = s.glbase := rfl
@[simp] theorem modHere_node : (s.modHere f).node = s.node := rfl
@[simp] theorem modHere_stopped : (s.modHere f).stopped = s.stopped := rfl
@[simp] theorem modHere_bootStage : (s.modHere f).bootStage = s.bootStage := rfl
@[simp] theorem modHere_bootFail : (s.modHere f).bootFail = s.bootFail := rfl
@[simp] theorem modHere_resets : (s.modHere f).resets = s.resets := rfl
@[simp] theorem modHere_chain : (s.modHere f).chain = s.chain := rfl
@[simp] theorem modHere_attLog : (s.modHere f).attLog = s.attLog := rfl
@[simp] theorem modHere_quotes : (s.modHere f).quotes = s.quotes := rfl
@[simp] theorem modHere_mem : (s.modHere f).mem = s.mem := rfl
@[simp] theorem modHere_lasting : (s.modHere f).lasting = s.lasting := rfl
@[simp] theorem modHere_transient : (s.modHere f).transient = s.transient := rfl
@[simp] theorem modHere_correctable : (s.modHere f).correctable = s.correctable := rfl
@[simp] theorem modHere_badRows : (s.modHere f).badRows = s.badRows := rfl
@[simp] theorem modHere_art : (s.modHere f).art = s.art := rfl
@[simp] theorem modHere_quota : (s.modHere f).quota = s.quota := rfl
@[simp] theorem modHere_l2 : (s.modHere f).l2 = s.l2 := rfl
@[simp] theorem modHere_invAddr : (s.modHere f).invAddr = s.invAddr := rfl
@[simp] theorem modHere_invCtl : (s.modHere f).invCtl = s.invCtl := rfl
@[simp] theorem modHere_invStat : (s.modHere f).invStat = s.invStat := rfl
@[simp] theorem modHere_ports : (s.modHere f).ports = s.ports := rfl
@[simp] theorem modHere_regions : (s.modHere f).regions = s.regions := rfl
@[simp] theorem modHere_groups : (s.modHere f).groups = s.groups := rfl
@[simp] theorem modHere_queue : (s.modHere f).queue = s.queue := rfl
@[simp] theorem modHere_nextGid : (s.modHere f).nextGid = s.nextGid := rfl
@[simp] theorem modHere_mcast : (s.modHere f).mcast = s.mcast := rfl
@[simp] theorem modHere_links : (s.modHere f).links = s.links := rfl
@[simp] theorem modHere_unreachable : (s.modHere f).unreachable = s.unreachable := rfl
@[simp] theorem modHere_cxlDown : (s.modHere f).cxlDown = s.cxlDown := rfl
@[simp] theorem modHere_resync : (s.modHere f).resync = s.resync := rfl
@[simp] theorem modHere_resyncStat : (s.modHere f).resyncStat = s.resyncStat := rfl
@[simp] theorem modHere_clusters : (s.modHere f).clusters = s.clusters := rfl
@[simp] theorem modHere_dies : (s.modHere f).dies = s.dies := rfl
@[simp] theorem modHere_net : (s.modHere f).net = s.net := rfl
@[simp] theorem modHere_transfers : (s.modHere f).transfers = s.transfers := rfl
@[simp] theorem modHere_moves : (s.modHere f).moves = s.moves := rfl
@[simp] theorem modHere_fabric : (s.modHere f).fabric = s.fabric := rfl
@[simp] theorem modHere_fabOut : (s.modHere f).fabOut = s.fabOut := rfl
@[simp] theorem modHere_fabIn : (s.modHere f).fabIn = s.fabIn := rfl
@[simp] theorem modHere_agenda : (s.modHere f).agenda = s.agenda := rfl
@[simp] theorem modHere_serial : (s.modHere f).serial = s.serial := rfl
@[simp] theorem modHere_free : (s.modHere f).free = s.free := rfl
@[simp] theorem modHere_curCid : (s.modHere f).curCid = s.curCid := rfl
@[simp] theorem modHere_curSlot : (s.modHere f).curSlot = s.curSlot := rfl
@[simp] theorem modHere_lender : (s.modHere f).lender = s.lender := rfl
@[simp] theorem modHere_banks : (s.modHere f).banks = s.banks := rfl
@[simp] theorem modHere_obj : (s.modHere f).obj = s.obj := rfl
end modHere

section modHereCore
variable (s : State) (f : Core → Core)
@[simp] theorem modHereCore_cycle : (s.modHereCore f).cycle = s.cycle := rfl
@[simp] theorem modHereCore_gtc : (s.modHereCore f).gtc = s.gtc := rfl
@[simp] theorem modHereCore_gtcRem : (s.modHereCore f).gtcRem = s.gtcRem := rfl
@[simp] theorem modHereCore_gtcOff : (s.modHereCore f).gtcOff = s.gtcOff := rfl
@[simp] theorem modHereCore_gtcWarn : (s.modHereCore f).gtcWarn = s.gtcWarn := rfl
@[simp] theorem modHereCore_mhz : (s.modHereCore f).mhz = s.mhz := rfl
@[simp] theorem modHereCore_budget : (s.modHereCore f).budget = s.budget := rfl
@[simp] theorem modHereCore_windows : (s.modHereCore f).windows = s.windows := rfl
@[simp] theorem modHereCore_avgw : (s.modHereCore f).avgw = s.avgw := rfl
@[simp] theorem modHereCore_pcap : (s.modHereCore f).pcap = s.pcap := rfl
@[simp] theorem modHereCore_glbase : (s.modHereCore f).glbase = s.glbase := rfl
@[simp] theorem modHereCore_node : (s.modHereCore f).node = s.node := rfl
@[simp] theorem modHereCore_stopped : (s.modHereCore f).stopped = s.stopped := rfl
@[simp] theorem modHereCore_bootStage : (s.modHereCore f).bootStage = s.bootStage := rfl
@[simp] theorem modHereCore_bootFail : (s.modHereCore f).bootFail = s.bootFail := rfl
@[simp] theorem modHereCore_resets : (s.modHereCore f).resets = s.resets := rfl
@[simp] theorem modHereCore_chain : (s.modHereCore f).chain = s.chain := rfl
@[simp] theorem modHereCore_attLog : (s.modHereCore f).attLog = s.attLog := rfl
@[simp] theorem modHereCore_quotes : (s.modHereCore f).quotes = s.quotes := rfl
@[simp] theorem modHereCore_mem : (s.modHereCore f).mem = s.mem := rfl
@[simp] theorem modHereCore_lasting : (s.modHereCore f).lasting = s.lasting := rfl
@[simp] theorem modHereCore_transient : (s.modHereCore f).transient = s.transient := rfl
@[simp] theorem modHereCore_correctable : (s.modHereCore f).correctable = s.correctable := rfl
@[simp] theorem modHereCore_badRows : (s.modHereCore f).badRows = s.badRows := rfl
@[simp] theorem modHereCore_art : (s.modHereCore f).art = s.art := rfl
@[simp] theorem modHereCore_quota : (s.modHereCore f).quota = s.quota := rfl
@[simp] theorem modHereCore_l2 : (s.modHereCore f).l2 = s.l2 := rfl
@[simp] theorem modHereCore_invAddr : (s.modHereCore f).invAddr = s.invAddr := rfl
@[simp] theorem modHereCore_invCtl : (s.modHereCore f).invCtl = s.invCtl := rfl
@[simp] theorem modHereCore_invStat : (s.modHereCore f).invStat = s.invStat := rfl
@[simp] theorem modHereCore_ports : (s.modHereCore f).ports = s.ports := rfl
@[simp] theorem modHereCore_regions : (s.modHereCore f).regions = s.regions := rfl
@[simp] theorem modHereCore_groups : (s.modHereCore f).groups = s.groups := rfl
@[simp] theorem modHereCore_queue : (s.modHereCore f).queue = s.queue := rfl
@[simp] theorem modHereCore_nextGid : (s.modHereCore f).nextGid = s.nextGid := rfl
@[simp] theorem modHereCore_mcast : (s.modHereCore f).mcast = s.mcast := rfl
@[simp] theorem modHereCore_links : (s.modHereCore f).links = s.links := rfl
@[simp] theorem modHereCore_unreachable : (s.modHereCore f).unreachable = s.unreachable := rfl
@[simp] theorem modHereCore_cxlDown : (s.modHereCore f).cxlDown = s.cxlDown := rfl
@[simp] theorem modHereCore_resync : (s.modHereCore f).resync = s.resync := rfl
@[simp] theorem modHereCore_resyncStat : (s.modHereCore f).resyncStat = s.resyncStat := rfl
@[simp] theorem modHereCore_clusters : (s.modHereCore f).clusters = s.clusters := rfl
@[simp] theorem modHereCore_dies : (s.modHereCore f).dies = s.dies := rfl
@[simp] theorem modHereCore_net : (s.modHereCore f).net = s.net := rfl
@[simp] theorem modHereCore_transfers : (s.modHereCore f).transfers = s.transfers := rfl
@[simp] theorem modHereCore_moves : (s.modHereCore f).moves = s.moves := rfl
@[simp] theorem modHereCore_fabric : (s.modHereCore f).fabric = s.fabric := rfl
@[simp] theorem modHereCore_fabOut : (s.modHereCore f).fabOut = s.fabOut := rfl
@[simp] theorem modHereCore_fabIn : (s.modHereCore f).fabIn = s.fabIn := rfl
@[simp] theorem modHereCore_agenda : (s.modHereCore f).agenda = s.agenda := rfl
@[simp] theorem modHereCore_serial : (s.modHereCore f).serial = s.serial := rfl
@[simp] theorem modHereCore_free : (s.modHereCore f).free = s.free := rfl
@[simp] theorem modHereCore_curCid : (s.modHereCore f).curCid = s.curCid := rfl
@[simp] theorem modHereCore_curSlot : (s.modHereCore f).curSlot = s.curSlot := rfl
@[simp] theorem modHereCore_lender : (s.modHereCore f).lender = s.lender := rfl
@[simp] theorem modHereCore_banks : (s.modHereCore f).banks = s.banks := rfl
@[simp] theorem modHereCore_obj : (s.modHereCore f).obj = s.obj := rfl
end modHereCore

section setMailbox
variable (s : State) (c t : Nat) (x : Mailbox)
@[simp] theorem setMailbox_cycle : (s.setMailbox c t x).cycle = s.cycle := rfl
@[simp] theorem setMailbox_gtc : (s.setMailbox c t x).gtc = s.gtc := rfl
@[simp] theorem setMailbox_gtcRem : (s.setMailbox c t x).gtcRem = s.gtcRem := rfl
@[simp] theorem setMailbox_gtcOff : (s.setMailbox c t x).gtcOff = s.gtcOff := rfl
@[simp] theorem setMailbox_gtcWarn : (s.setMailbox c t x).gtcWarn = s.gtcWarn := rfl
@[simp] theorem setMailbox_mhz : (s.setMailbox c t x).mhz = s.mhz := rfl
@[simp] theorem setMailbox_budget : (s.setMailbox c t x).budget = s.budget := rfl
@[simp] theorem setMailbox_windows : (s.setMailbox c t x).windows = s.windows := rfl
@[simp] theorem setMailbox_avgw : (s.setMailbox c t x).avgw = s.avgw := rfl
@[simp] theorem setMailbox_pcap : (s.setMailbox c t x).pcap = s.pcap := rfl
@[simp] theorem setMailbox_glbase : (s.setMailbox c t x).glbase = s.glbase := rfl
@[simp] theorem setMailbox_node : (s.setMailbox c t x).node = s.node := rfl
@[simp] theorem setMailbox_stopped : (s.setMailbox c t x).stopped = s.stopped := rfl
@[simp] theorem setMailbox_bootStage : (s.setMailbox c t x).bootStage = s.bootStage := rfl
@[simp] theorem setMailbox_bootFail : (s.setMailbox c t x).bootFail = s.bootFail := rfl
@[simp] theorem setMailbox_resets : (s.setMailbox c t x).resets = s.resets := rfl
@[simp] theorem setMailbox_chain : (s.setMailbox c t x).chain = s.chain := rfl
@[simp] theorem setMailbox_attLog : (s.setMailbox c t x).attLog = s.attLog := rfl
@[simp] theorem setMailbox_quotes : (s.setMailbox c t x).quotes = s.quotes := rfl
@[simp] theorem setMailbox_mem : (s.setMailbox c t x).mem = s.mem := rfl
@[simp] theorem setMailbox_lasting : (s.setMailbox c t x).lasting = s.lasting := rfl
@[simp] theorem setMailbox_transient : (s.setMailbox c t x).transient = s.transient := rfl
@[simp] theorem setMailbox_correctable : (s.setMailbox c t x).correctable = s.correctable := rfl
@[simp] theorem setMailbox_badRows : (s.setMailbox c t x).badRows = s.badRows := rfl
@[simp] theorem setMailbox_art : (s.setMailbox c t x).art = s.art := rfl
@[simp] theorem setMailbox_quota : (s.setMailbox c t x).quota = s.quota := rfl
@[simp] theorem setMailbox_l2 : (s.setMailbox c t x).l2 = s.l2 := rfl
@[simp] theorem setMailbox_invAddr : (s.setMailbox c t x).invAddr = s.invAddr := rfl
@[simp] theorem setMailbox_invCtl : (s.setMailbox c t x).invCtl = s.invCtl := rfl
@[simp] theorem setMailbox_invStat : (s.setMailbox c t x).invStat = s.invStat := rfl
@[simp] theorem setMailbox_ports : (s.setMailbox c t x).ports = s.ports := rfl
@[simp] theorem setMailbox_regions : (s.setMailbox c t x).regions = s.regions := rfl
@[simp] theorem setMailbox_groups : (s.setMailbox c t x).groups = s.groups := rfl
@[simp] theorem setMailbox_queue : (s.setMailbox c t x).queue = s.queue := rfl
@[simp] theorem setMailbox_nextGid : (s.setMailbox c t x).nextGid = s.nextGid := rfl
@[simp] theorem setMailbox_mcast : (s.setMailbox c t x).mcast = s.mcast := rfl
@[simp] theorem setMailbox_links : (s.setMailbox c t x).links = s.links := rfl
@[simp] theorem setMailbox_unreachable : (s.setMailbox c t x).unreachable = s.unreachable := rfl
@[simp] theorem setMailbox_cxlDown : (s.setMailbox c t x).cxlDown = s.cxlDown := rfl
@[simp] theorem setMailbox_resync : (s.setMailbox c t x).resync = s.resync := rfl
@[simp] theorem setMailbox_resyncStat : (s.setMailbox c t x).resyncStat = s.resyncStat := rfl
@[simp] theorem setMailbox_clusters : (s.setMailbox c t x).clusters = s.clusters := rfl
@[simp] theorem setMailbox_dies : (s.setMailbox c t x).dies = s.dies := rfl
@[simp] theorem setMailbox_net : (s.setMailbox c t x).net = s.net := rfl
@[simp] theorem setMailbox_transfers : (s.setMailbox c t x).transfers = s.transfers := rfl
@[simp] theorem setMailbox_moves : (s.setMailbox c t x).moves = s.moves := rfl
@[simp] theorem setMailbox_fabric : (s.setMailbox c t x).fabric = s.fabric := rfl
@[simp] theorem setMailbox_fabOut : (s.setMailbox c t x).fabOut = s.fabOut := rfl
@[simp] theorem setMailbox_fabIn : (s.setMailbox c t x).fabIn = s.fabIn := rfl
@[simp] theorem setMailbox_agenda : (s.setMailbox c t x).agenda = s.agenda := rfl
@[simp] theorem setMailbox_serial : (s.setMailbox c t x).serial = s.serial := rfl
@[simp] theorem setMailbox_free : (s.setMailbox c t x).free = s.free := rfl
@[simp] theorem setMailbox_curCid : (s.setMailbox c t x).curCid = s.curCid := rfl
@[simp] theorem setMailbox_curSlot : (s.setMailbox c t x).curSlot = s.curSlot := rfl
@[simp] theorem setMailbox_lender : (s.setMailbox c t x).lender = s.lender := rfl
@[simp] theorem setMailbox_banks : (s.setMailbox c t x).banks = s.banks := rfl
@[simp] theorem setMailbox_obj : (s.setMailbox c t x).obj = s.obj := rfl
end setMailbox

section setHandle
variable (s : State) (c h : Nat) (x : Handle)
@[simp] theorem setHandle_cycle : (s.setHandle c h x).cycle = s.cycle := rfl
@[simp] theorem setHandle_gtc : (s.setHandle c h x).gtc = s.gtc := rfl
@[simp] theorem setHandle_gtcRem : (s.setHandle c h x).gtcRem = s.gtcRem := rfl
@[simp] theorem setHandle_gtcOff : (s.setHandle c h x).gtcOff = s.gtcOff := rfl
@[simp] theorem setHandle_gtcWarn : (s.setHandle c h x).gtcWarn = s.gtcWarn := rfl
@[simp] theorem setHandle_mhz : (s.setHandle c h x).mhz = s.mhz := rfl
@[simp] theorem setHandle_budget : (s.setHandle c h x).budget = s.budget := rfl
@[simp] theorem setHandle_windows : (s.setHandle c h x).windows = s.windows := rfl
@[simp] theorem setHandle_avgw : (s.setHandle c h x).avgw = s.avgw := rfl
@[simp] theorem setHandle_pcap : (s.setHandle c h x).pcap = s.pcap := rfl
@[simp] theorem setHandle_glbase : (s.setHandle c h x).glbase = s.glbase := rfl
@[simp] theorem setHandle_node : (s.setHandle c h x).node = s.node := rfl
@[simp] theorem setHandle_stopped : (s.setHandle c h x).stopped = s.stopped := rfl
@[simp] theorem setHandle_bootStage : (s.setHandle c h x).bootStage = s.bootStage := rfl
@[simp] theorem setHandle_bootFail : (s.setHandle c h x).bootFail = s.bootFail := rfl
@[simp] theorem setHandle_resets : (s.setHandle c h x).resets = s.resets := rfl
@[simp] theorem setHandle_chain : (s.setHandle c h x).chain = s.chain := rfl
@[simp] theorem setHandle_attLog : (s.setHandle c h x).attLog = s.attLog := rfl
@[simp] theorem setHandle_quotes : (s.setHandle c h x).quotes = s.quotes := rfl
@[simp] theorem setHandle_mem : (s.setHandle c h x).mem = s.mem := rfl
@[simp] theorem setHandle_lasting : (s.setHandle c h x).lasting = s.lasting := rfl
@[simp] theorem setHandle_transient : (s.setHandle c h x).transient = s.transient := rfl
@[simp] theorem setHandle_correctable : (s.setHandle c h x).correctable = s.correctable := rfl
@[simp] theorem setHandle_badRows : (s.setHandle c h x).badRows = s.badRows := rfl
@[simp] theorem setHandle_art : (s.setHandle c h x).art = s.art := rfl
@[simp] theorem setHandle_quota : (s.setHandle c h x).quota = s.quota := rfl
@[simp] theorem setHandle_l2 : (s.setHandle c h x).l2 = s.l2 := rfl
@[simp] theorem setHandle_invAddr : (s.setHandle c h x).invAddr = s.invAddr := rfl
@[simp] theorem setHandle_invCtl : (s.setHandle c h x).invCtl = s.invCtl := rfl
@[simp] theorem setHandle_invStat : (s.setHandle c h x).invStat = s.invStat := rfl
@[simp] theorem setHandle_ports : (s.setHandle c h x).ports = s.ports := rfl
@[simp] theorem setHandle_regions : (s.setHandle c h x).regions = s.regions := rfl
@[simp] theorem setHandle_groups : (s.setHandle c h x).groups = s.groups := rfl
@[simp] theorem setHandle_queue : (s.setHandle c h x).queue = s.queue := rfl
@[simp] theorem setHandle_nextGid : (s.setHandle c h x).nextGid = s.nextGid := rfl
@[simp] theorem setHandle_mcast : (s.setHandle c h x).mcast = s.mcast := rfl
@[simp] theorem setHandle_links : (s.setHandle c h x).links = s.links := rfl
@[simp] theorem setHandle_unreachable : (s.setHandle c h x).unreachable = s.unreachable := rfl
@[simp] theorem setHandle_cxlDown : (s.setHandle c h x).cxlDown = s.cxlDown := rfl
@[simp] theorem setHandle_resync : (s.setHandle c h x).resync = s.resync := rfl
@[simp] theorem setHandle_resyncStat : (s.setHandle c h x).resyncStat = s.resyncStat := rfl
@[simp] theorem setHandle_clusters : (s.setHandle c h x).clusters = s.clusters := rfl
@[simp] theorem setHandle_dies : (s.setHandle c h x).dies = s.dies := rfl
@[simp] theorem setHandle_net : (s.setHandle c h x).net = s.net := rfl
@[simp] theorem setHandle_transfers : (s.setHandle c h x).transfers = s.transfers := rfl
@[simp] theorem setHandle_moves : (s.setHandle c h x).moves = s.moves := rfl
@[simp] theorem setHandle_fabric : (s.setHandle c h x).fabric = s.fabric := rfl
@[simp] theorem setHandle_fabOut : (s.setHandle c h x).fabOut = s.fabOut := rfl
@[simp] theorem setHandle_fabIn : (s.setHandle c h x).fabIn = s.fabIn := rfl
@[simp] theorem setHandle_agenda : (s.setHandle c h x).agenda = s.agenda := rfl
@[simp] theorem setHandle_serial : (s.setHandle c h x).serial = s.serial := rfl
@[simp] theorem setHandle_free : (s.setHandle c h x).free = s.free := rfl
@[simp] theorem setHandle_curCid : (s.setHandle c h x).curCid = s.curCid := rfl
@[simp] theorem setHandle_curSlot : (s.setHandle c h x).curSlot = s.curSlot := rfl
@[simp] theorem setHandle_lender : (s.setHandle c h x).lender = s.lender := rfl
@[simp] theorem setHandle_banks : (s.setHandle c h x).banks = s.banks := rfl
@[simp] theorem setHandle_obj : (s.setHandle c h x).obj = s.obj := rfl
end setHandle

section modChan
variable (s : State) (c n : Nat) (f : Chan → Chan)
@[simp] theorem modChan_cycle : (s.modChan c n f).cycle = s.cycle := rfl
@[simp] theorem modChan_gtc : (s.modChan c n f).gtc = s.gtc := rfl
@[simp] theorem modChan_gtcRem : (s.modChan c n f).gtcRem = s.gtcRem := rfl
@[simp] theorem modChan_gtcOff : (s.modChan c n f).gtcOff = s.gtcOff := rfl
@[simp] theorem modChan_gtcWarn : (s.modChan c n f).gtcWarn = s.gtcWarn := rfl
@[simp] theorem modChan_mhz : (s.modChan c n f).mhz = s.mhz := rfl
@[simp] theorem modChan_budget : (s.modChan c n f).budget = s.budget := rfl
@[simp] theorem modChan_windows : (s.modChan c n f).windows = s.windows := rfl
@[simp] theorem modChan_avgw : (s.modChan c n f).avgw = s.avgw := rfl
@[simp] theorem modChan_pcap : (s.modChan c n f).pcap = s.pcap := rfl
@[simp] theorem modChan_glbase : (s.modChan c n f).glbase = s.glbase := rfl
@[simp] theorem modChan_node : (s.modChan c n f).node = s.node := rfl
@[simp] theorem modChan_stopped : (s.modChan c n f).stopped = s.stopped := rfl
@[simp] theorem modChan_bootStage : (s.modChan c n f).bootStage = s.bootStage := rfl
@[simp] theorem modChan_bootFail : (s.modChan c n f).bootFail = s.bootFail := rfl
@[simp] theorem modChan_resets : (s.modChan c n f).resets = s.resets := rfl
@[simp] theorem modChan_chain : (s.modChan c n f).chain = s.chain := rfl
@[simp] theorem modChan_attLog : (s.modChan c n f).attLog = s.attLog := rfl
@[simp] theorem modChan_quotes : (s.modChan c n f).quotes = s.quotes := rfl
@[simp] theorem modChan_mem : (s.modChan c n f).mem = s.mem := rfl
@[simp] theorem modChan_lasting : (s.modChan c n f).lasting = s.lasting := rfl
@[simp] theorem modChan_transient : (s.modChan c n f).transient = s.transient := rfl
@[simp] theorem modChan_correctable : (s.modChan c n f).correctable = s.correctable := rfl
@[simp] theorem modChan_badRows : (s.modChan c n f).badRows = s.badRows := rfl
@[simp] theorem modChan_art : (s.modChan c n f).art = s.art := rfl
@[simp] theorem modChan_quota : (s.modChan c n f).quota = s.quota := rfl
@[simp] theorem modChan_l2 : (s.modChan c n f).l2 = s.l2 := rfl
@[simp] theorem modChan_invAddr : (s.modChan c n f).invAddr = s.invAddr := rfl
@[simp] theorem modChan_invCtl : (s.modChan c n f).invCtl = s.invCtl := rfl
@[simp] theorem modChan_invStat : (s.modChan c n f).invStat = s.invStat := rfl
@[simp] theorem modChan_ports : (s.modChan c n f).ports = s.ports := rfl
@[simp] theorem modChan_regions : (s.modChan c n f).regions = s.regions := rfl
@[simp] theorem modChan_groups : (s.modChan c n f).groups = s.groups := rfl
@[simp] theorem modChan_queue : (s.modChan c n f).queue = s.queue := rfl
@[simp] theorem modChan_nextGid : (s.modChan c n f).nextGid = s.nextGid := rfl
@[simp] theorem modChan_mcast : (s.modChan c n f).mcast = s.mcast := rfl
@[simp] theorem modChan_links : (s.modChan c n f).links = s.links := rfl
@[simp] theorem modChan_unreachable : (s.modChan c n f).unreachable = s.unreachable := rfl
@[simp] theorem modChan_cxlDown : (s.modChan c n f).cxlDown = s.cxlDown := rfl
@[simp] theorem modChan_resync : (s.modChan c n f).resync = s.resync := rfl
@[simp] theorem modChan_resyncStat : (s.modChan c n f).resyncStat = s.resyncStat := rfl
@[simp] theorem modChan_clusters : (s.modChan c n f).clusters = s.clusters := rfl
@[simp] theorem modChan_dies : (s.modChan c n f).dies = s.dies := rfl
@[simp] theorem modChan_net : (s.modChan c n f).net = s.net := rfl
@[simp] theorem modChan_transfers : (s.modChan c n f).transfers = s.transfers := rfl
@[simp] theorem modChan_moves : (s.modChan c n f).moves = s.moves := rfl
@[simp] theorem modChan_fabric : (s.modChan c n f).fabric = s.fabric := rfl
@[simp] theorem modChan_fabOut : (s.modChan c n f).fabOut = s.fabOut := rfl
@[simp] theorem modChan_fabIn : (s.modChan c n f).fabIn = s.fabIn := rfl
@[simp] theorem modChan_agenda : (s.modChan c n f).agenda = s.agenda := rfl
@[simp] theorem modChan_serial : (s.modChan c n f).serial = s.serial := rfl
@[simp] theorem modChan_free : (s.modChan c n f).free = s.free := rfl
@[simp] theorem modChan_curCid : (s.modChan c n f).curCid = s.curCid := rfl
@[simp] theorem modChan_curSlot : (s.modChan c n f).curSlot = s.curSlot := rfl
@[simp] theorem modChan_lender : (s.modChan c n f).lender = s.lender := rfl
@[simp] theorem modChan_banks : (s.modChan c n f).banks = s.banks := rfl
@[simp] theorem modChan_obj : (s.modChan c n f).obj = s.obj := rfl
end modChan

section setBanks
variable (s : State) (b : List Nat)
@[simp] theorem setBanks_cycle : (s.setBanks b).cycle = s.cycle := rfl
@[simp] theorem setBanks_gtc : (s.setBanks b).gtc = s.gtc := rfl
@[simp] theorem setBanks_gtcRem : (s.setBanks b).gtcRem = s.gtcRem := rfl
@[simp] theorem setBanks_gtcOff : (s.setBanks b).gtcOff = s.gtcOff := rfl
@[simp] theorem setBanks_gtcWarn : (s.setBanks b).gtcWarn = s.gtcWarn := rfl
@[simp] theorem setBanks_mhz : (s.setBanks b).mhz = s.mhz := rfl
@[simp] theorem setBanks_budget : (s.setBanks b).budget = s.budget := rfl
@[simp] theorem setBanks_windows : (s.setBanks b).windows = s.windows := rfl
@[simp] theorem setBanks_avgw : (s.setBanks b).avgw = s.avgw := rfl
@[simp] theorem setBanks_pcap : (s.setBanks b).pcap = s.pcap := rfl
@[simp] theorem setBanks_glbase : (s.setBanks b).glbase = s.glbase := rfl
@[simp] theorem setBanks_node : (s.setBanks b).node = s.node := rfl
@[simp] theorem setBanks_stopped : (s.setBanks b).stopped = s.stopped := rfl
@[simp] theorem setBanks_bootStage : (s.setBanks b).bootStage = s.bootStage := rfl
@[simp] theorem setBanks_bootFail : (s.setBanks b).bootFail = s.bootFail := rfl
@[simp] theorem setBanks_resets : (s.setBanks b).resets = s.resets := rfl
@[simp] theorem setBanks_chain : (s.setBanks b).chain = s.chain := rfl
@[simp] theorem setBanks_attLog : (s.setBanks b).attLog = s.attLog := rfl
@[simp] theorem setBanks_quotes : (s.setBanks b).quotes = s.quotes := rfl
@[simp] theorem setBanks_mem : (s.setBanks b).mem = s.mem := rfl
@[simp] theorem setBanks_lasting : (s.setBanks b).lasting = s.lasting := rfl
@[simp] theorem setBanks_transient : (s.setBanks b).transient = s.transient := rfl
@[simp] theorem setBanks_correctable : (s.setBanks b).correctable = s.correctable := rfl
@[simp] theorem setBanks_badRows : (s.setBanks b).badRows = s.badRows := rfl
@[simp] theorem setBanks_art : (s.setBanks b).art = s.art := rfl
@[simp] theorem setBanks_quota : (s.setBanks b).quota = s.quota := rfl
@[simp] theorem setBanks_l2 : (s.setBanks b).l2 = s.l2 := rfl
@[simp] theorem setBanks_invAddr : (s.setBanks b).invAddr = s.invAddr := rfl
@[simp] theorem setBanks_invCtl : (s.setBanks b).invCtl = s.invCtl := rfl
@[simp] theorem setBanks_invStat : (s.setBanks b).invStat = s.invStat := rfl
@[simp] theorem setBanks_ports : (s.setBanks b).ports = s.ports := rfl
@[simp] theorem setBanks_regions : (s.setBanks b).regions = s.regions := rfl
@[simp] theorem setBanks_groups : (s.setBanks b).groups = s.groups := rfl
@[simp] theorem setBanks_queue : (s.setBanks b).queue = s.queue := rfl
@[simp] theorem setBanks_nextGid : (s.setBanks b).nextGid = s.nextGid := rfl
@[simp] theorem setBanks_mcast : (s.setBanks b).mcast = s.mcast := rfl
@[simp] theorem setBanks_links : (s.setBanks b).links = s.links := rfl
@[simp] theorem setBanks_unreachable : (s.setBanks b).unreachable = s.unreachable := rfl
@[simp] theorem setBanks_cxlDown : (s.setBanks b).cxlDown = s.cxlDown := rfl
@[simp] theorem setBanks_resync : (s.setBanks b).resync = s.resync := rfl
@[simp] theorem setBanks_resyncStat : (s.setBanks b).resyncStat = s.resyncStat := rfl
@[simp] theorem setBanks_cores : (s.setBanks b).cores = s.cores := rfl
@[simp] theorem setBanks_clusters : (s.setBanks b).clusters = s.clusters := rfl
@[simp] theorem setBanks_dies : (s.setBanks b).dies = s.dies := rfl
@[simp] theorem setBanks_net : (s.setBanks b).net = s.net := rfl
@[simp] theorem setBanks_transfers : (s.setBanks b).transfers = s.transfers := rfl
@[simp] theorem setBanks_moves : (s.setBanks b).moves = s.moves := rfl
@[simp] theorem setBanks_fabric : (s.setBanks b).fabric = s.fabric := rfl
@[simp] theorem setBanks_fabOut : (s.setBanks b).fabOut = s.fabOut := rfl
@[simp] theorem setBanks_fabIn : (s.setBanks b).fabIn = s.fabIn := rfl
@[simp] theorem setBanks_agenda : (s.setBanks b).agenda = s.agenda := rfl
@[simp] theorem setBanks_serial : (s.setBanks b).serial = s.serial := rfl
@[simp] theorem setBanks_free : (s.setBanks b).free = s.free := rfl
@[simp] theorem setBanks_curCid : (s.setBanks b).curCid = s.curCid := rfl
@[simp] theorem setBanks_curSlot : (s.setBanks b).curSlot = s.curSlot := rfl
@[simp] theorem setBanks_lender : (s.setBanks b).lender = s.lender := rfl
@[simp] theorem setBanks_obj : (s.setBanks b).obj = s.obj := rfl
end setBanks

section modCluster
variable (s : State) (k : Nat) (f : Cluster → Cluster)
@[simp] theorem modCluster_cycle : (s.modCluster k f).cycle = s.cycle := rfl
@[simp] theorem modCluster_gtc : (s.modCluster k f).gtc = s.gtc := rfl
@[simp] theorem modCluster_gtcRem : (s.modCluster k f).gtcRem = s.gtcRem := rfl
@[simp] theorem modCluster_gtcOff : (s.modCluster k f).gtcOff = s.gtcOff := rfl
@[simp] theorem modCluster_gtcWarn : (s.modCluster k f).gtcWarn = s.gtcWarn := rfl
@[simp] theorem modCluster_mhz : (s.modCluster k f).mhz = s.mhz := rfl
@[simp] theorem modCluster_budget : (s.modCluster k f).budget = s.budget := rfl
@[simp] theorem modCluster_windows : (s.modCluster k f).windows = s.windows := rfl
@[simp] theorem modCluster_avgw : (s.modCluster k f).avgw = s.avgw := rfl
@[simp] theorem modCluster_pcap : (s.modCluster k f).pcap = s.pcap := rfl
@[simp] theorem modCluster_glbase : (s.modCluster k f).glbase = s.glbase := rfl
@[simp] theorem modCluster_node : (s.modCluster k f).node = s.node := rfl
@[simp] theorem modCluster_stopped : (s.modCluster k f).stopped = s.stopped := rfl
@[simp] theorem modCluster_bootStage : (s.modCluster k f).bootStage = s.bootStage := rfl
@[simp] theorem modCluster_bootFail : (s.modCluster k f).bootFail = s.bootFail := rfl
@[simp] theorem modCluster_resets : (s.modCluster k f).resets = s.resets := rfl
@[simp] theorem modCluster_chain : (s.modCluster k f).chain = s.chain := rfl
@[simp] theorem modCluster_attLog : (s.modCluster k f).attLog = s.attLog := rfl
@[simp] theorem modCluster_quotes : (s.modCluster k f).quotes = s.quotes := rfl
@[simp] theorem modCluster_mem : (s.modCluster k f).mem = s.mem := rfl
@[simp] theorem modCluster_lasting : (s.modCluster k f).lasting = s.lasting := rfl
@[simp] theorem modCluster_transient : (s.modCluster k f).transient = s.transient := rfl
@[simp] theorem modCluster_correctable : (s.modCluster k f).correctable = s.correctable := rfl
@[simp] theorem modCluster_badRows : (s.modCluster k f).badRows = s.badRows := rfl
@[simp] theorem modCluster_art : (s.modCluster k f).art = s.art := rfl
@[simp] theorem modCluster_quota : (s.modCluster k f).quota = s.quota := rfl
@[simp] theorem modCluster_l2 : (s.modCluster k f).l2 = s.l2 := rfl
@[simp] theorem modCluster_invAddr : (s.modCluster k f).invAddr = s.invAddr := rfl
@[simp] theorem modCluster_invCtl : (s.modCluster k f).invCtl = s.invCtl := rfl
@[simp] theorem modCluster_invStat : (s.modCluster k f).invStat = s.invStat := rfl
@[simp] theorem modCluster_ports : (s.modCluster k f).ports = s.ports := rfl
@[simp] theorem modCluster_regions : (s.modCluster k f).regions = s.regions := rfl
@[simp] theorem modCluster_groups : (s.modCluster k f).groups = s.groups := rfl
@[simp] theorem modCluster_queue : (s.modCluster k f).queue = s.queue := rfl
@[simp] theorem modCluster_nextGid : (s.modCluster k f).nextGid = s.nextGid := rfl
@[simp] theorem modCluster_mcast : (s.modCluster k f).mcast = s.mcast := rfl
@[simp] theorem modCluster_links : (s.modCluster k f).links = s.links := rfl
@[simp] theorem modCluster_unreachable : (s.modCluster k f).unreachable = s.unreachable := rfl
@[simp] theorem modCluster_cxlDown : (s.modCluster k f).cxlDown = s.cxlDown := rfl
@[simp] theorem modCluster_resync : (s.modCluster k f).resync = s.resync := rfl
@[simp] theorem modCluster_resyncStat : (s.modCluster k f).resyncStat = s.resyncStat := rfl
@[simp] theorem modCluster_cores : (s.modCluster k f).cores = s.cores := rfl
@[simp] theorem modCluster_dies : (s.modCluster k f).dies = s.dies := rfl
@[simp] theorem modCluster_net : (s.modCluster k f).net = s.net := rfl
@[simp] theorem modCluster_transfers : (s.modCluster k f).transfers = s.transfers := rfl
@[simp] theorem modCluster_moves : (s.modCluster k f).moves = s.moves := rfl
@[simp] theorem modCluster_fabric : (s.modCluster k f).fabric = s.fabric := rfl
@[simp] theorem modCluster_fabOut : (s.modCluster k f).fabOut = s.fabOut := rfl
@[simp] theorem modCluster_fabIn : (s.modCluster k f).fabIn = s.fabIn := rfl
@[simp] theorem modCluster_agenda : (s.modCluster k f).agenda = s.agenda := rfl
@[simp] theorem modCluster_serial : (s.modCluster k f).serial = s.serial := rfl
@[simp] theorem modCluster_free : (s.modCluster k f).free = s.free := rfl
@[simp] theorem modCluster_curCid : (s.modCluster k f).curCid = s.curCid := rfl
@[simp] theorem modCluster_curSlot : (s.modCluster k f).curSlot = s.curSlot := rfl
@[simp] theorem modCluster_lender : (s.modCluster k f).lender = s.lender := rfl
@[simp] theorem modCluster_banks : (s.modCluster k f).banks = s.banks := rfl
@[simp] theorem modCluster_obj : (s.modCluster k f).obj = s.obj := rfl
end modCluster

section modDie
variable (s : State) (k : Nat) (f : Die → Die)
@[simp] theorem modDie_cycle : (s.modDie k f).cycle = s.cycle := rfl
@[simp] theorem modDie_gtc : (s.modDie k f).gtc = s.gtc := rfl
@[simp] theorem modDie_gtcRem : (s.modDie k f).gtcRem = s.gtcRem := rfl
@[simp] theorem modDie_gtcOff : (s.modDie k f).gtcOff = s.gtcOff := rfl
@[simp] theorem modDie_gtcWarn : (s.modDie k f).gtcWarn = s.gtcWarn := rfl
@[simp] theorem modDie_mhz : (s.modDie k f).mhz = s.mhz := rfl
@[simp] theorem modDie_budget : (s.modDie k f).budget = s.budget := rfl
@[simp] theorem modDie_windows : (s.modDie k f).windows = s.windows := rfl
@[simp] theorem modDie_avgw : (s.modDie k f).avgw = s.avgw := rfl
@[simp] theorem modDie_pcap : (s.modDie k f).pcap = s.pcap := rfl
@[simp] theorem modDie_glbase : (s.modDie k f).glbase = s.glbase := rfl
@[simp] theorem modDie_node : (s.modDie k f).node = s.node := rfl
@[simp] theorem modDie_stopped : (s.modDie k f).stopped = s.stopped := rfl
@[simp] theorem modDie_bootStage : (s.modDie k f).bootStage = s.bootStage := rfl
@[simp] theorem modDie_bootFail : (s.modDie k f).bootFail = s.bootFail := rfl
@[simp] theorem modDie_resets : (s.modDie k f).resets = s.resets := rfl
@[simp] theorem modDie_chain : (s.modDie k f).chain = s.chain := rfl
@[simp] theorem modDie_attLog : (s.modDie k f).attLog = s.attLog := rfl
@[simp] theorem modDie_quotes : (s.modDie k f).quotes = s.quotes := rfl
@[simp] theorem modDie_mem : (s.modDie k f).mem = s.mem := rfl
@[simp] theorem modDie_lasting : (s.modDie k f).lasting = s.lasting := rfl
@[simp] theorem modDie_transient : (s.modDie k f).transient = s.transient := rfl
@[simp] theorem modDie_correctable : (s.modDie k f).correctable = s.correctable := rfl
@[simp] theorem modDie_badRows : (s.modDie k f).badRows = s.badRows := rfl
@[simp] theorem modDie_art : (s.modDie k f).art = s.art := rfl
@[simp] theorem modDie_quota : (s.modDie k f).quota = s.quota := rfl
@[simp] theorem modDie_l2 : (s.modDie k f).l2 = s.l2 := rfl
@[simp] theorem modDie_invAddr : (s.modDie k f).invAddr = s.invAddr := rfl
@[simp] theorem modDie_invCtl : (s.modDie k f).invCtl = s.invCtl := rfl
@[simp] theorem modDie_invStat : (s.modDie k f).invStat = s.invStat := rfl
@[simp] theorem modDie_ports : (s.modDie k f).ports = s.ports := rfl
@[simp] theorem modDie_regions : (s.modDie k f).regions = s.regions := rfl
@[simp] theorem modDie_groups : (s.modDie k f).groups = s.groups := rfl
@[simp] theorem modDie_queue : (s.modDie k f).queue = s.queue := rfl
@[simp] theorem modDie_nextGid : (s.modDie k f).nextGid = s.nextGid := rfl
@[simp] theorem modDie_mcast : (s.modDie k f).mcast = s.mcast := rfl
@[simp] theorem modDie_links : (s.modDie k f).links = s.links := rfl
@[simp] theorem modDie_unreachable : (s.modDie k f).unreachable = s.unreachable := rfl
@[simp] theorem modDie_cxlDown : (s.modDie k f).cxlDown = s.cxlDown := rfl
@[simp] theorem modDie_resync : (s.modDie k f).resync = s.resync := rfl
@[simp] theorem modDie_resyncStat : (s.modDie k f).resyncStat = s.resyncStat := rfl
@[simp] theorem modDie_cores : (s.modDie k f).cores = s.cores := rfl
@[simp] theorem modDie_clusters : (s.modDie k f).clusters = s.clusters := rfl
@[simp] theorem modDie_net : (s.modDie k f).net = s.net := rfl
@[simp] theorem modDie_transfers : (s.modDie k f).transfers = s.transfers := rfl
@[simp] theorem modDie_moves : (s.modDie k f).moves = s.moves := rfl
@[simp] theorem modDie_fabric : (s.modDie k f).fabric = s.fabric := rfl
@[simp] theorem modDie_fabOut : (s.modDie k f).fabOut = s.fabOut := rfl
@[simp] theorem modDie_fabIn : (s.modDie k f).fabIn = s.fabIn := rfl
@[simp] theorem modDie_agenda : (s.modDie k f).agenda = s.agenda := rfl
@[simp] theorem modDie_serial : (s.modDie k f).serial = s.serial := rfl
@[simp] theorem modDie_free : (s.modDie k f).free = s.free := rfl
@[simp] theorem modDie_curCid : (s.modDie k f).curCid = s.curCid := rfl
@[simp] theorem modDie_curSlot : (s.modDie k f).curSlot = s.curSlot := rfl
@[simp] theorem modDie_lender : (s.modDie k f).lender = s.lender := rfl
@[simp] theorem modDie_banks : (s.modDie k f).banks = s.banks := rfl
@[simp] theorem modDie_obj : (s.modDie k f).obj = s.obj := rfl
end modDie

section modMsg
variable (s : State) (i : Nat) (f : Msg → Msg)
@[simp] theorem modMsg_cycle : (s.modMsg i f).cycle = s.cycle := rfl
@[simp] theorem modMsg_gtc : (s.modMsg i f).gtc = s.gtc := rfl
@[simp] theorem modMsg_gtcRem : (s.modMsg i f).gtcRem = s.gtcRem := rfl
@[simp] theorem modMsg_gtcOff : (s.modMsg i f).gtcOff = s.gtcOff := rfl
@[simp] theorem modMsg_gtcWarn : (s.modMsg i f).gtcWarn = s.gtcWarn := rfl
@[simp] theorem modMsg_mhz : (s.modMsg i f).mhz = s.mhz := rfl
@[simp] theorem modMsg_budget : (s.modMsg i f).budget = s.budget := rfl
@[simp] theorem modMsg_windows : (s.modMsg i f).windows = s.windows := rfl
@[simp] theorem modMsg_avgw : (s.modMsg i f).avgw = s.avgw := rfl
@[simp] theorem modMsg_pcap : (s.modMsg i f).pcap = s.pcap := rfl
@[simp] theorem modMsg_glbase : (s.modMsg i f).glbase = s.glbase := rfl
@[simp] theorem modMsg_node : (s.modMsg i f).node = s.node := rfl
@[simp] theorem modMsg_stopped : (s.modMsg i f).stopped = s.stopped := rfl
@[simp] theorem modMsg_bootStage : (s.modMsg i f).bootStage = s.bootStage := rfl
@[simp] theorem modMsg_bootFail : (s.modMsg i f).bootFail = s.bootFail := rfl
@[simp] theorem modMsg_resets : (s.modMsg i f).resets = s.resets := rfl
@[simp] theorem modMsg_chain : (s.modMsg i f).chain = s.chain := rfl
@[simp] theorem modMsg_attLog : (s.modMsg i f).attLog = s.attLog := rfl
@[simp] theorem modMsg_quotes : (s.modMsg i f).quotes = s.quotes := rfl
@[simp] theorem modMsg_mem : (s.modMsg i f).mem = s.mem := rfl
@[simp] theorem modMsg_lasting : (s.modMsg i f).lasting = s.lasting := rfl
@[simp] theorem modMsg_transient : (s.modMsg i f).transient = s.transient := rfl
@[simp] theorem modMsg_correctable : (s.modMsg i f).correctable = s.correctable := rfl
@[simp] theorem modMsg_badRows : (s.modMsg i f).badRows = s.badRows := rfl
@[simp] theorem modMsg_art : (s.modMsg i f).art = s.art := rfl
@[simp] theorem modMsg_quota : (s.modMsg i f).quota = s.quota := rfl
@[simp] theorem modMsg_l2 : (s.modMsg i f).l2 = s.l2 := rfl
@[simp] theorem modMsg_invAddr : (s.modMsg i f).invAddr = s.invAddr := rfl
@[simp] theorem modMsg_invCtl : (s.modMsg i f).invCtl = s.invCtl := rfl
@[simp] theorem modMsg_invStat : (s.modMsg i f).invStat = s.invStat := rfl
@[simp] theorem modMsg_ports : (s.modMsg i f).ports = s.ports := rfl
@[simp] theorem modMsg_regions : (s.modMsg i f).regions = s.regions := rfl
@[simp] theorem modMsg_groups : (s.modMsg i f).groups = s.groups := rfl
@[simp] theorem modMsg_queue : (s.modMsg i f).queue = s.queue := rfl
@[simp] theorem modMsg_nextGid : (s.modMsg i f).nextGid = s.nextGid := rfl
@[simp] theorem modMsg_mcast : (s.modMsg i f).mcast = s.mcast := rfl
@[simp] theorem modMsg_links : (s.modMsg i f).links = s.links := rfl
@[simp] theorem modMsg_unreachable : (s.modMsg i f).unreachable = s.unreachable := rfl
@[simp] theorem modMsg_cxlDown : (s.modMsg i f).cxlDown = s.cxlDown := rfl
@[simp] theorem modMsg_resync : (s.modMsg i f).resync = s.resync := rfl
@[simp] theorem modMsg_resyncStat : (s.modMsg i f).resyncStat = s.resyncStat := rfl
@[simp] theorem modMsg_cores : (s.modMsg i f).cores = s.cores := rfl
@[simp] theorem modMsg_clusters : (s.modMsg i f).clusters = s.clusters := rfl
@[simp] theorem modMsg_dies : (s.modMsg i f).dies = s.dies := rfl
@[simp] theorem modMsg_transfers : (s.modMsg i f).transfers = s.transfers := rfl
@[simp] theorem modMsg_moves : (s.modMsg i f).moves = s.moves := rfl
@[simp] theorem modMsg_fabric : (s.modMsg i f).fabric = s.fabric := rfl
@[simp] theorem modMsg_fabOut : (s.modMsg i f).fabOut = s.fabOut := rfl
@[simp] theorem modMsg_fabIn : (s.modMsg i f).fabIn = s.fabIn := rfl
@[simp] theorem modMsg_agenda : (s.modMsg i f).agenda = s.agenda := rfl
@[simp] theorem modMsg_serial : (s.modMsg i f).serial = s.serial := rfl
@[simp] theorem modMsg_free : (s.modMsg i f).free = s.free := rfl
@[simp] theorem modMsg_curCid : (s.modMsg i f).curCid = s.curCid := rfl
@[simp] theorem modMsg_curSlot : (s.modMsg i f).curSlot = s.curSlot := rfl
@[simp] theorem modMsg_lender : (s.modMsg i f).lender = s.lender := rfl
@[simp] theorem modMsg_banks : (s.modMsg i f).banks = s.banks := rfl
@[simp] theorem modMsg_obj : (s.modMsg i f).obj = s.obj := rfl
end modMsg

section dropMsg
variable (s : State) (i : Nat)
@[simp] theorem dropMsg_cycle : (s.dropMsg i).cycle = s.cycle := rfl
@[simp] theorem dropMsg_gtc : (s.dropMsg i).gtc = s.gtc := rfl
@[simp] theorem dropMsg_gtcRem : (s.dropMsg i).gtcRem = s.gtcRem := rfl
@[simp] theorem dropMsg_gtcOff : (s.dropMsg i).gtcOff = s.gtcOff := rfl
@[simp] theorem dropMsg_gtcWarn : (s.dropMsg i).gtcWarn = s.gtcWarn := rfl
@[simp] theorem dropMsg_mhz : (s.dropMsg i).mhz = s.mhz := rfl
@[simp] theorem dropMsg_budget : (s.dropMsg i).budget = s.budget := rfl
@[simp] theorem dropMsg_windows : (s.dropMsg i).windows = s.windows := rfl
@[simp] theorem dropMsg_avgw : (s.dropMsg i).avgw = s.avgw := rfl
@[simp] theorem dropMsg_pcap : (s.dropMsg i).pcap = s.pcap := rfl
@[simp] theorem dropMsg_glbase : (s.dropMsg i).glbase = s.glbase := rfl
@[simp] theorem dropMsg_node : (s.dropMsg i).node = s.node := rfl
@[simp] theorem dropMsg_stopped : (s.dropMsg i).stopped = s.stopped := rfl
@[simp] theorem dropMsg_bootStage : (s.dropMsg i).bootStage = s.bootStage := rfl
@[simp] theorem dropMsg_bootFail : (s.dropMsg i).bootFail = s.bootFail := rfl
@[simp] theorem dropMsg_resets : (s.dropMsg i).resets = s.resets := rfl
@[simp] theorem dropMsg_chain : (s.dropMsg i).chain = s.chain := rfl
@[simp] theorem dropMsg_attLog : (s.dropMsg i).attLog = s.attLog := rfl
@[simp] theorem dropMsg_quotes : (s.dropMsg i).quotes = s.quotes := rfl
@[simp] theorem dropMsg_mem : (s.dropMsg i).mem = s.mem := rfl
@[simp] theorem dropMsg_lasting : (s.dropMsg i).lasting = s.lasting := rfl
@[simp] theorem dropMsg_transient : (s.dropMsg i).transient = s.transient := rfl
@[simp] theorem dropMsg_correctable : (s.dropMsg i).correctable = s.correctable := rfl
@[simp] theorem dropMsg_badRows : (s.dropMsg i).badRows = s.badRows := rfl
@[simp] theorem dropMsg_art : (s.dropMsg i).art = s.art := rfl
@[simp] theorem dropMsg_quota : (s.dropMsg i).quota = s.quota := rfl
@[simp] theorem dropMsg_l2 : (s.dropMsg i).l2 = s.l2 := rfl
@[simp] theorem dropMsg_invAddr : (s.dropMsg i).invAddr = s.invAddr := rfl
@[simp] theorem dropMsg_invCtl : (s.dropMsg i).invCtl = s.invCtl := rfl
@[simp] theorem dropMsg_invStat : (s.dropMsg i).invStat = s.invStat := rfl
@[simp] theorem dropMsg_ports : (s.dropMsg i).ports = s.ports := rfl
@[simp] theorem dropMsg_regions : (s.dropMsg i).regions = s.regions := rfl
@[simp] theorem dropMsg_groups : (s.dropMsg i).groups = s.groups := rfl
@[simp] theorem dropMsg_queue : (s.dropMsg i).queue = s.queue := rfl
@[simp] theorem dropMsg_nextGid : (s.dropMsg i).nextGid = s.nextGid := rfl
@[simp] theorem dropMsg_mcast : (s.dropMsg i).mcast = s.mcast := rfl
@[simp] theorem dropMsg_links : (s.dropMsg i).links = s.links := rfl
@[simp] theorem dropMsg_unreachable : (s.dropMsg i).unreachable = s.unreachable := rfl
@[simp] theorem dropMsg_cxlDown : (s.dropMsg i).cxlDown = s.cxlDown := rfl
@[simp] theorem dropMsg_resync : (s.dropMsg i).resync = s.resync := rfl
@[simp] theorem dropMsg_resyncStat : (s.dropMsg i).resyncStat = s.resyncStat := rfl
@[simp] theorem dropMsg_cores : (s.dropMsg i).cores = s.cores := rfl
@[simp] theorem dropMsg_clusters : (s.dropMsg i).clusters = s.clusters := rfl
@[simp] theorem dropMsg_dies : (s.dropMsg i).dies = s.dies := rfl
@[simp] theorem dropMsg_transfers : (s.dropMsg i).transfers = s.transfers := rfl
@[simp] theorem dropMsg_moves : (s.dropMsg i).moves = s.moves := rfl
@[simp] theorem dropMsg_fabric : (s.dropMsg i).fabric = s.fabric := rfl
@[simp] theorem dropMsg_fabOut : (s.dropMsg i).fabOut = s.fabOut := rfl
@[simp] theorem dropMsg_fabIn : (s.dropMsg i).fabIn = s.fabIn := rfl
@[simp] theorem dropMsg_agenda : (s.dropMsg i).agenda = s.agenda := rfl
@[simp] theorem dropMsg_serial : (s.dropMsg i).serial = s.serial := rfl
@[simp] theorem dropMsg_free : (s.dropMsg i).free = s.free := rfl
@[simp] theorem dropMsg_curCid : (s.dropMsg i).curCid = s.curCid := rfl
@[simp] theorem dropMsg_curSlot : (s.dropMsg i).curSlot = s.curSlot := rfl
@[simp] theorem dropMsg_lender : (s.dropMsg i).lender = s.lender := rfl
@[simp] theorem dropMsg_banks : (s.dropMsg i).banks = s.banks := rfl
@[simp] theorem dropMsg_obj : (s.dropMsg i).obj = s.obj := rfl
end dropMsg

section modTransfer
variable (s : State) (i : Nat) (f : Transfer → Transfer)
@[simp] theorem modTransfer_cycle : (s.modTransfer i f).cycle = s.cycle := rfl
@[simp] theorem modTransfer_gtc : (s.modTransfer i f).gtc = s.gtc := rfl
@[simp] theorem modTransfer_gtcRem : (s.modTransfer i f).gtcRem = s.gtcRem := rfl
@[simp] theorem modTransfer_gtcOff : (s.modTransfer i f).gtcOff = s.gtcOff := rfl
@[simp] theorem modTransfer_gtcWarn : (s.modTransfer i f).gtcWarn = s.gtcWarn := rfl
@[simp] theorem modTransfer_mhz : (s.modTransfer i f).mhz = s.mhz := rfl
@[simp] theorem modTransfer_budget : (s.modTransfer i f).budget = s.budget := rfl
@[simp] theorem modTransfer_windows : (s.modTransfer i f).windows = s.windows := rfl
@[simp] theorem modTransfer_avgw : (s.modTransfer i f).avgw = s.avgw := rfl
@[simp] theorem modTransfer_pcap : (s.modTransfer i f).pcap = s.pcap := rfl
@[simp] theorem modTransfer_glbase : (s.modTransfer i f).glbase = s.glbase := rfl
@[simp] theorem modTransfer_node : (s.modTransfer i f).node = s.node := rfl
@[simp] theorem modTransfer_stopped : (s.modTransfer i f).stopped = s.stopped := rfl
@[simp] theorem modTransfer_bootStage : (s.modTransfer i f).bootStage = s.bootStage := rfl
@[simp] theorem modTransfer_bootFail : (s.modTransfer i f).bootFail = s.bootFail := rfl
@[simp] theorem modTransfer_resets : (s.modTransfer i f).resets = s.resets := rfl
@[simp] theorem modTransfer_chain : (s.modTransfer i f).chain = s.chain := rfl
@[simp] theorem modTransfer_attLog : (s.modTransfer i f).attLog = s.attLog := rfl
@[simp] theorem modTransfer_quotes : (s.modTransfer i f).quotes = s.quotes := rfl
@[simp] theorem modTransfer_mem : (s.modTransfer i f).mem = s.mem := rfl
@[simp] theorem modTransfer_lasting : (s.modTransfer i f).lasting = s.lasting := rfl
@[simp] theorem modTransfer_transient : (s.modTransfer i f).transient = s.transient := rfl
@[simp] theorem modTransfer_correctable : (s.modTransfer i f).correctable = s.correctable := rfl
@[simp] theorem modTransfer_badRows : (s.modTransfer i f).badRows = s.badRows := rfl
@[simp] theorem modTransfer_art : (s.modTransfer i f).art = s.art := rfl
@[simp] theorem modTransfer_quota : (s.modTransfer i f).quota = s.quota := rfl
@[simp] theorem modTransfer_l2 : (s.modTransfer i f).l2 = s.l2 := rfl
@[simp] theorem modTransfer_invAddr : (s.modTransfer i f).invAddr = s.invAddr := rfl
@[simp] theorem modTransfer_invCtl : (s.modTransfer i f).invCtl = s.invCtl := rfl
@[simp] theorem modTransfer_invStat : (s.modTransfer i f).invStat = s.invStat := rfl
@[simp] theorem modTransfer_ports : (s.modTransfer i f).ports = s.ports := rfl
@[simp] theorem modTransfer_regions : (s.modTransfer i f).regions = s.regions := rfl
@[simp] theorem modTransfer_groups : (s.modTransfer i f).groups = s.groups := rfl
@[simp] theorem modTransfer_queue : (s.modTransfer i f).queue = s.queue := rfl
@[simp] theorem modTransfer_nextGid : (s.modTransfer i f).nextGid = s.nextGid := rfl
@[simp] theorem modTransfer_mcast : (s.modTransfer i f).mcast = s.mcast := rfl
@[simp] theorem modTransfer_links : (s.modTransfer i f).links = s.links := rfl
@[simp] theorem modTransfer_unreachable : (s.modTransfer i f).unreachable = s.unreachable := rfl
@[simp] theorem modTransfer_cxlDown : (s.modTransfer i f).cxlDown = s.cxlDown := rfl
@[simp] theorem modTransfer_resync : (s.modTransfer i f).resync = s.resync := rfl
@[simp] theorem modTransfer_resyncStat : (s.modTransfer i f).resyncStat = s.resyncStat := rfl
@[simp] theorem modTransfer_cores : (s.modTransfer i f).cores = s.cores := rfl
@[simp] theorem modTransfer_clusters : (s.modTransfer i f).clusters = s.clusters := rfl
@[simp] theorem modTransfer_dies : (s.modTransfer i f).dies = s.dies := rfl
@[simp] theorem modTransfer_net : (s.modTransfer i f).net = s.net := rfl
@[simp] theorem modTransfer_moves : (s.modTransfer i f).moves = s.moves := rfl
@[simp] theorem modTransfer_fabric : (s.modTransfer i f).fabric = s.fabric := rfl
@[simp] theorem modTransfer_fabOut : (s.modTransfer i f).fabOut = s.fabOut := rfl
@[simp] theorem modTransfer_fabIn : (s.modTransfer i f).fabIn = s.fabIn := rfl
@[simp] theorem modTransfer_agenda : (s.modTransfer i f).agenda = s.agenda := rfl
@[simp] theorem modTransfer_serial : (s.modTransfer i f).serial = s.serial := rfl
@[simp] theorem modTransfer_free : (s.modTransfer i f).free = s.free := rfl
@[simp] theorem modTransfer_curCid : (s.modTransfer i f).curCid = s.curCid := rfl
@[simp] theorem modTransfer_curSlot : (s.modTransfer i f).curSlot = s.curSlot := rfl
@[simp] theorem modTransfer_lender : (s.modTransfer i f).lender = s.lender := rfl
@[simp] theorem modTransfer_banks : (s.modTransfer i f).banks = s.banks := rfl
@[simp] theorem modTransfer_obj : (s.modTransfer i f).obj = s.obj := rfl
end modTransfer

section dropTransfer
variable (s : State) (i : Nat)
@[simp] theorem dropTransfer_cycle : (s.dropTransfer i).cycle = s.cycle := rfl
@[simp] theorem dropTransfer_gtc : (s.dropTransfer i).gtc = s.gtc := rfl
@[simp] theorem dropTransfer_gtcRem : (s.dropTransfer i).gtcRem = s.gtcRem := rfl
@[simp] theorem dropTransfer_gtcOff : (s.dropTransfer i).gtcOff = s.gtcOff := rfl
@[simp] theorem dropTransfer_gtcWarn : (s.dropTransfer i).gtcWarn = s.gtcWarn := rfl
@[simp] theorem dropTransfer_mhz : (s.dropTransfer i).mhz = s.mhz := rfl
@[simp] theorem dropTransfer_budget : (s.dropTransfer i).budget = s.budget := rfl
@[simp] theorem dropTransfer_windows : (s.dropTransfer i).windows = s.windows := rfl
@[simp] theorem dropTransfer_avgw : (s.dropTransfer i).avgw = s.avgw := rfl
@[simp] theorem dropTransfer_pcap : (s.dropTransfer i).pcap = s.pcap := rfl
@[simp] theorem dropTransfer_glbase : (s.dropTransfer i).glbase = s.glbase := rfl
@[simp] theorem dropTransfer_node : (s.dropTransfer i).node = s.node := rfl
@[simp] theorem dropTransfer_stopped : (s.dropTransfer i).stopped = s.stopped := rfl
@[simp] theorem dropTransfer_bootStage : (s.dropTransfer i).bootStage = s.bootStage := rfl
@[simp] theorem dropTransfer_bootFail : (s.dropTransfer i).bootFail = s.bootFail := rfl
@[simp] theorem dropTransfer_resets : (s.dropTransfer i).resets = s.resets := rfl
@[simp] theorem dropTransfer_chain : (s.dropTransfer i).chain = s.chain := rfl
@[simp] theorem dropTransfer_attLog : (s.dropTransfer i).attLog = s.attLog := rfl
@[simp] theorem dropTransfer_quotes : (s.dropTransfer i).quotes = s.quotes := rfl
@[simp] theorem dropTransfer_mem : (s.dropTransfer i).mem = s.mem := rfl
@[simp] theorem dropTransfer_lasting : (s.dropTransfer i).lasting = s.lasting := rfl
@[simp] theorem dropTransfer_transient : (s.dropTransfer i).transient = s.transient := rfl
@[simp] theorem dropTransfer_correctable : (s.dropTransfer i).correctable = s.correctable := rfl
@[simp] theorem dropTransfer_badRows : (s.dropTransfer i).badRows = s.badRows := rfl
@[simp] theorem dropTransfer_art : (s.dropTransfer i).art = s.art := rfl
@[simp] theorem dropTransfer_quota : (s.dropTransfer i).quota = s.quota := rfl
@[simp] theorem dropTransfer_l2 : (s.dropTransfer i).l2 = s.l2 := rfl
@[simp] theorem dropTransfer_invAddr : (s.dropTransfer i).invAddr = s.invAddr := rfl
@[simp] theorem dropTransfer_invCtl : (s.dropTransfer i).invCtl = s.invCtl := rfl
@[simp] theorem dropTransfer_invStat : (s.dropTransfer i).invStat = s.invStat := rfl
@[simp] theorem dropTransfer_ports : (s.dropTransfer i).ports = s.ports := rfl
@[simp] theorem dropTransfer_regions : (s.dropTransfer i).regions = s.regions := rfl
@[simp] theorem dropTransfer_groups : (s.dropTransfer i).groups = s.groups := rfl
@[simp] theorem dropTransfer_queue : (s.dropTransfer i).queue = s.queue := rfl
@[simp] theorem dropTransfer_nextGid : (s.dropTransfer i).nextGid = s.nextGid := rfl
@[simp] theorem dropTransfer_mcast : (s.dropTransfer i).mcast = s.mcast := rfl
@[simp] theorem dropTransfer_links : (s.dropTransfer i).links = s.links := rfl
@[simp] theorem dropTransfer_unreachable : (s.dropTransfer i).unreachable = s.unreachable := rfl
@[simp] theorem dropTransfer_cxlDown : (s.dropTransfer i).cxlDown = s.cxlDown := rfl
@[simp] theorem dropTransfer_resync : (s.dropTransfer i).resync = s.resync := rfl
@[simp] theorem dropTransfer_resyncStat : (s.dropTransfer i).resyncStat = s.resyncStat := rfl
@[simp] theorem dropTransfer_cores : (s.dropTransfer i).cores = s.cores := rfl
@[simp] theorem dropTransfer_clusters : (s.dropTransfer i).clusters = s.clusters := rfl
@[simp] theorem dropTransfer_dies : (s.dropTransfer i).dies = s.dies := rfl
@[simp] theorem dropTransfer_net : (s.dropTransfer i).net = s.net := rfl
@[simp] theorem dropTransfer_moves : (s.dropTransfer i).moves = s.moves := rfl
@[simp] theorem dropTransfer_fabric : (s.dropTransfer i).fabric = s.fabric := rfl
@[simp] theorem dropTransfer_fabOut : (s.dropTransfer i).fabOut = s.fabOut := rfl
@[simp] theorem dropTransfer_fabIn : (s.dropTransfer i).fabIn = s.fabIn := rfl
@[simp] theorem dropTransfer_agenda : (s.dropTransfer i).agenda = s.agenda := rfl
@[simp] theorem dropTransfer_serial : (s.dropTransfer i).serial = s.serial := rfl
@[simp] theorem dropTransfer_free : (s.dropTransfer i).free = s.free := rfl
@[simp] theorem dropTransfer_curCid : (s.dropTransfer i).curCid = s.curCid := rfl
@[simp] theorem dropTransfer_curSlot : (s.dropTransfer i).curSlot = s.curSlot := rfl
@[simp] theorem dropTransfer_lender : (s.dropTransfer i).lender = s.lender := rfl
@[simp] theorem dropTransfer_banks : (s.dropTransfer i).banks = s.banks := rfl
@[simp] theorem dropTransfer_obj : (s.dropTransfer i).obj = s.obj := rfl
end dropTransfer

section schedule
variable (s : State) (d : Due) (r : Nat) (i : Instr) (o : Obj)
@[simp] theorem schedule_cycle : (s.schedule d r i o).cycle = s.cycle := rfl
@[simp] theorem schedule_gtc : (s.schedule d r i o).gtc = s.gtc := rfl
@[simp] theorem schedule_gtcRem : (s.schedule d r i o).gtcRem = s.gtcRem := rfl
@[simp] theorem schedule_gtcOff : (s.schedule d r i o).gtcOff = s.gtcOff := rfl
@[simp] theorem schedule_gtcWarn : (s.schedule d r i o).gtcWarn = s.gtcWarn := rfl
@[simp] theorem schedule_mhz : (s.schedule d r i o).mhz = s.mhz := rfl
@[simp] theorem schedule_budget : (s.schedule d r i o).budget = s.budget := rfl
@[simp] theorem schedule_windows : (s.schedule d r i o).windows = s.windows := rfl
@[simp] theorem schedule_avgw : (s.schedule d r i o).avgw = s.avgw := rfl
@[simp] theorem schedule_pcap : (s.schedule d r i o).pcap = s.pcap := rfl
@[simp] theorem schedule_glbase : (s.schedule d r i o).glbase = s.glbase := rfl
@[simp] theorem schedule_node : (s.schedule d r i o).node = s.node := rfl
@[simp] theorem schedule_stopped : (s.schedule d r i o).stopped = s.stopped := rfl
@[simp] theorem schedule_bootStage : (s.schedule d r i o).bootStage = s.bootStage := rfl
@[simp] theorem schedule_bootFail : (s.schedule d r i o).bootFail = s.bootFail := rfl
@[simp] theorem schedule_resets : (s.schedule d r i o).resets = s.resets := rfl
@[simp] theorem schedule_chain : (s.schedule d r i o).chain = s.chain := rfl
@[simp] theorem schedule_attLog : (s.schedule d r i o).attLog = s.attLog := rfl
@[simp] theorem schedule_quotes : (s.schedule d r i o).quotes = s.quotes := rfl
@[simp] theorem schedule_mem : (s.schedule d r i o).mem = s.mem := rfl
@[simp] theorem schedule_lasting : (s.schedule d r i o).lasting = s.lasting := rfl
@[simp] theorem schedule_transient : (s.schedule d r i o).transient = s.transient := rfl
@[simp] theorem schedule_correctable : (s.schedule d r i o).correctable = s.correctable := rfl
@[simp] theorem schedule_badRows : (s.schedule d r i o).badRows = s.badRows := rfl
@[simp] theorem schedule_art : (s.schedule d r i o).art = s.art := rfl
@[simp] theorem schedule_quota : (s.schedule d r i o).quota = s.quota := rfl
@[simp] theorem schedule_l2 : (s.schedule d r i o).l2 = s.l2 := rfl
@[simp] theorem schedule_invAddr : (s.schedule d r i o).invAddr = s.invAddr := rfl
@[simp] theorem schedule_invCtl : (s.schedule d r i o).invCtl = s.invCtl := rfl
@[simp] theorem schedule_invStat : (s.schedule d r i o).invStat = s.invStat := rfl
@[simp] theorem schedule_ports : (s.schedule d r i o).ports = s.ports := rfl
@[simp] theorem schedule_regions : (s.schedule d r i o).regions = s.regions := rfl
@[simp] theorem schedule_groups : (s.schedule d r i o).groups = s.groups := rfl
@[simp] theorem schedule_queue : (s.schedule d r i o).queue = s.queue := rfl
@[simp] theorem schedule_nextGid : (s.schedule d r i o).nextGid = s.nextGid := rfl
@[simp] theorem schedule_mcast : (s.schedule d r i o).mcast = s.mcast := rfl
@[simp] theorem schedule_links : (s.schedule d r i o).links = s.links := rfl
@[simp] theorem schedule_unreachable : (s.schedule d r i o).unreachable = s.unreachable := rfl
@[simp] theorem schedule_cxlDown : (s.schedule d r i o).cxlDown = s.cxlDown := rfl
@[simp] theorem schedule_resync : (s.schedule d r i o).resync = s.resync := rfl
@[simp] theorem schedule_resyncStat : (s.schedule d r i o).resyncStat = s.resyncStat := rfl
@[simp] theorem schedule_cores : (s.schedule d r i o).cores = s.cores := rfl
@[simp] theorem schedule_clusters : (s.schedule d r i o).clusters = s.clusters := rfl
@[simp] theorem schedule_dies : (s.schedule d r i o).dies = s.dies := rfl
@[simp] theorem schedule_net : (s.schedule d r i o).net = s.net := rfl
@[simp] theorem schedule_transfers : (s.schedule d r i o).transfers = s.transfers := rfl
@[simp] theorem schedule_moves : (s.schedule d r i o).moves = s.moves := rfl
@[simp] theorem schedule_fabric : (s.schedule d r i o).fabric = s.fabric := rfl
@[simp] theorem schedule_fabOut : (s.schedule d r i o).fabOut = s.fabOut := rfl
@[simp] theorem schedule_fabIn : (s.schedule d r i o).fabIn = s.fabIn := rfl
@[simp] theorem schedule_serial : (s.schedule d r i o).serial = s.serial := rfl
@[simp] theorem schedule_free : (s.schedule d r i o).free = s.free := rfl
@[simp] theorem schedule_curCid : (s.schedule d r i o).curCid = s.curCid := rfl
@[simp] theorem schedule_curSlot : (s.schedule d r i o).curSlot = s.curSlot := rfl
@[simp] theorem schedule_lender : (s.schedule d r i o).lender = s.lender := rfl
@[simp] theorem schedule_banks : (s.schedule d r i o).banks = s.banks := rfl
@[simp] theorem schedule_obj : (s.schedule d r i o).obj = s.obj := rfl
end schedule

section dropEvent
variable (s : State) (e : Event)
@[simp] theorem dropEvent_cycle : (s.dropEvent e).cycle = s.cycle := rfl
@[simp] theorem dropEvent_gtc : (s.dropEvent e).gtc = s.gtc := rfl
@[simp] theorem dropEvent_gtcRem : (s.dropEvent e).gtcRem = s.gtcRem := rfl
@[simp] theorem dropEvent_gtcOff : (s.dropEvent e).gtcOff = s.gtcOff := rfl
@[simp] theorem dropEvent_gtcWarn : (s.dropEvent e).gtcWarn = s.gtcWarn := rfl
@[simp] theorem dropEvent_mhz : (s.dropEvent e).mhz = s.mhz := rfl
@[simp] theorem dropEvent_budget : (s.dropEvent e).budget = s.budget := rfl
@[simp] theorem dropEvent_windows : (s.dropEvent e).windows = s.windows := rfl
@[simp] theorem dropEvent_avgw : (s.dropEvent e).avgw = s.avgw := rfl
@[simp] theorem dropEvent_pcap : (s.dropEvent e).pcap = s.pcap := rfl
@[simp] theorem dropEvent_glbase : (s.dropEvent e).glbase = s.glbase := rfl
@[simp] theorem dropEvent_node : (s.dropEvent e).node = s.node := rfl
@[simp] theorem dropEvent_stopped : (s.dropEvent e).stopped = s.stopped := rfl
@[simp] theorem dropEvent_bootStage : (s.dropEvent e).bootStage = s.bootStage := rfl
@[simp] theorem dropEvent_bootFail : (s.dropEvent e).bootFail = s.bootFail := rfl
@[simp] theorem dropEvent_resets : (s.dropEvent e).resets = s.resets := rfl
@[simp] theorem dropEvent_chain : (s.dropEvent e).chain = s.chain := rfl
@[simp] theorem dropEvent_attLog : (s.dropEvent e).attLog = s.attLog := rfl
@[simp] theorem dropEvent_quotes : (s.dropEvent e).quotes = s.quotes := rfl
@[simp] theorem dropEvent_mem : (s.dropEvent e).mem = s.mem := rfl
@[simp] theorem dropEvent_lasting : (s.dropEvent e).lasting = s.lasting := rfl
@[simp] theorem dropEvent_transient : (s.dropEvent e).transient = s.transient := rfl
@[simp] theorem dropEvent_correctable : (s.dropEvent e).correctable = s.correctable := rfl
@[simp] theorem dropEvent_badRows : (s.dropEvent e).badRows = s.badRows := rfl
@[simp] theorem dropEvent_art : (s.dropEvent e).art = s.art := rfl
@[simp] theorem dropEvent_quota : (s.dropEvent e).quota = s.quota := rfl
@[simp] theorem dropEvent_l2 : (s.dropEvent e).l2 = s.l2 := rfl
@[simp] theorem dropEvent_invAddr : (s.dropEvent e).invAddr = s.invAddr := rfl
@[simp] theorem dropEvent_invCtl : (s.dropEvent e).invCtl = s.invCtl := rfl
@[simp] theorem dropEvent_invStat : (s.dropEvent e).invStat = s.invStat := rfl
@[simp] theorem dropEvent_ports : (s.dropEvent e).ports = s.ports := rfl
@[simp] theorem dropEvent_regions : (s.dropEvent e).regions = s.regions := rfl
@[simp] theorem dropEvent_groups : (s.dropEvent e).groups = s.groups := rfl
@[simp] theorem dropEvent_queue : (s.dropEvent e).queue = s.queue := rfl
@[simp] theorem dropEvent_nextGid : (s.dropEvent e).nextGid = s.nextGid := rfl
@[simp] theorem dropEvent_mcast : (s.dropEvent e).mcast = s.mcast := rfl
@[simp] theorem dropEvent_links : (s.dropEvent e).links = s.links := rfl
@[simp] theorem dropEvent_unreachable : (s.dropEvent e).unreachable = s.unreachable := rfl
@[simp] theorem dropEvent_cxlDown : (s.dropEvent e).cxlDown = s.cxlDown := rfl
@[simp] theorem dropEvent_resync : (s.dropEvent e).resync = s.resync := rfl
@[simp] theorem dropEvent_resyncStat : (s.dropEvent e).resyncStat = s.resyncStat := rfl
@[simp] theorem dropEvent_cores : (s.dropEvent e).cores = s.cores := rfl
@[simp] theorem dropEvent_clusters : (s.dropEvent e).clusters = s.clusters := rfl
@[simp] theorem dropEvent_dies : (s.dropEvent e).dies = s.dies := rfl
@[simp] theorem dropEvent_net : (s.dropEvent e).net = s.net := rfl
@[simp] theorem dropEvent_transfers : (s.dropEvent e).transfers = s.transfers := rfl
@[simp] theorem dropEvent_moves : (s.dropEvent e).moves = s.moves := rfl
@[simp] theorem dropEvent_fabric : (s.dropEvent e).fabric = s.fabric := rfl
@[simp] theorem dropEvent_fabOut : (s.dropEvent e).fabOut = s.fabOut := rfl
@[simp] theorem dropEvent_fabIn : (s.dropEvent e).fabIn = s.fabIn := rfl
@[simp] theorem dropEvent_serial : (s.dropEvent e).serial = s.serial := rfl
@[simp] theorem dropEvent_free : (s.dropEvent e).free = s.free := rfl
@[simp] theorem dropEvent_curCid : (s.dropEvent e).curCid = s.curCid := rfl
@[simp] theorem dropEvent_curSlot : (s.dropEvent e).curSlot = s.curSlot := rfl
@[simp] theorem dropEvent_lender : (s.dropEvent e).lender = s.lender := rfl
@[simp] theorem dropEvent_banks : (s.dropEvent e).banks = s.banks := rfl
@[simp] theorem dropEvent_obj : (s.dropEvent e).obj = s.obj := rfl
end dropEvent

section fresh
variable (s : State)
@[simp] theorem fresh_cycle : s.fresh.2.cycle = s.cycle := rfl
@[simp] theorem fresh_gtc : s.fresh.2.gtc = s.gtc := rfl
@[simp] theorem fresh_gtcRem : s.fresh.2.gtcRem = s.gtcRem := rfl
@[simp] theorem fresh_gtcOff : s.fresh.2.gtcOff = s.gtcOff := rfl
@[simp] theorem fresh_gtcWarn : s.fresh.2.gtcWarn = s.gtcWarn := rfl
@[simp] theorem fresh_mhz : s.fresh.2.mhz = s.mhz := rfl
@[simp] theorem fresh_budget : s.fresh.2.budget = s.budget := rfl
@[simp] theorem fresh_windows : s.fresh.2.windows = s.windows := rfl
@[simp] theorem fresh_avgw : s.fresh.2.avgw = s.avgw := rfl
@[simp] theorem fresh_pcap : s.fresh.2.pcap = s.pcap := rfl
@[simp] theorem fresh_glbase : s.fresh.2.glbase = s.glbase := rfl
@[simp] theorem fresh_node : s.fresh.2.node = s.node := rfl
@[simp] theorem fresh_stopped : s.fresh.2.stopped = s.stopped := rfl
@[simp] theorem fresh_bootStage : s.fresh.2.bootStage = s.bootStage := rfl
@[simp] theorem fresh_bootFail : s.fresh.2.bootFail = s.bootFail := rfl
@[simp] theorem fresh_resets : s.fresh.2.resets = s.resets := rfl
@[simp] theorem fresh_chain : s.fresh.2.chain = s.chain := rfl
@[simp] theorem fresh_attLog : s.fresh.2.attLog = s.attLog := rfl
@[simp] theorem fresh_quotes : s.fresh.2.quotes = s.quotes := rfl
@[simp] theorem fresh_mem : s.fresh.2.mem = s.mem := rfl
@[simp] theorem fresh_lasting : s.fresh.2.lasting = s.lasting := rfl
@[simp] theorem fresh_transient : s.fresh.2.transient = s.transient := rfl
@[simp] theorem fresh_correctable : s.fresh.2.correctable = s.correctable := rfl
@[simp] theorem fresh_badRows : s.fresh.2.badRows = s.badRows := rfl
@[simp] theorem fresh_art : s.fresh.2.art = s.art := rfl
@[simp] theorem fresh_quota : s.fresh.2.quota = s.quota := rfl
@[simp] theorem fresh_l2 : s.fresh.2.l2 = s.l2 := rfl
@[simp] theorem fresh_invAddr : s.fresh.2.invAddr = s.invAddr := rfl
@[simp] theorem fresh_invCtl : s.fresh.2.invCtl = s.invCtl := rfl
@[simp] theorem fresh_invStat : s.fresh.2.invStat = s.invStat := rfl
@[simp] theorem fresh_ports : s.fresh.2.ports = s.ports := rfl
@[simp] theorem fresh_regions : s.fresh.2.regions = s.regions := rfl
@[simp] theorem fresh_groups : s.fresh.2.groups = s.groups := rfl
@[simp] theorem fresh_queue : s.fresh.2.queue = s.queue := rfl
@[simp] theorem fresh_nextGid : s.fresh.2.nextGid = s.nextGid := rfl
@[simp] theorem fresh_mcast : s.fresh.2.mcast = s.mcast := rfl
@[simp] theorem fresh_links : s.fresh.2.links = s.links := rfl
@[simp] theorem fresh_unreachable : s.fresh.2.unreachable = s.unreachable := rfl
@[simp] theorem fresh_cxlDown : s.fresh.2.cxlDown = s.cxlDown := rfl
@[simp] theorem fresh_resync : s.fresh.2.resync = s.resync := rfl
@[simp] theorem fresh_resyncStat : s.fresh.2.resyncStat = s.resyncStat := rfl
@[simp] theorem fresh_cores : s.fresh.2.cores = s.cores := rfl
@[simp] theorem fresh_clusters : s.fresh.2.clusters = s.clusters := rfl
@[simp] theorem fresh_dies : s.fresh.2.dies = s.dies := rfl
@[simp] theorem fresh_net : s.fresh.2.net = s.net := rfl
@[simp] theorem fresh_transfers : s.fresh.2.transfers = s.transfers := rfl
@[simp] theorem fresh_moves : s.fresh.2.moves = s.moves := rfl
@[simp] theorem fresh_fabric : s.fresh.2.fabric = s.fabric := rfl
@[simp] theorem fresh_fabOut : s.fresh.2.fabOut = s.fabOut := rfl
@[simp] theorem fresh_fabIn : s.fresh.2.fabIn = s.fabIn := rfl
@[simp] theorem fresh_agenda : s.fresh.2.agenda = s.agenda := rfl
@[simp] theorem fresh_free : s.fresh.2.free = s.free := rfl
@[simp] theorem fresh_curCid : s.fresh.2.curCid = s.curCid := rfl
@[simp] theorem fresh_curSlot : s.fresh.2.curSlot = s.curSlot := rfl
@[simp] theorem fresh_lender : s.fresh.2.lender = s.lender := rfl
@[simp] theorem fresh_banks : s.fresh.2.banks = s.banks := rfl
@[simp] theorem fresh_obj : s.fresh.2.obj = s.obj := rfl
end fresh

section delay
variable (s : State)
@[simp] theorem delay_cycle : s.delay.2.cycle = s.cycle := rfl
@[simp] theorem delay_gtc : s.delay.2.gtc = s.gtc := rfl
@[simp] theorem delay_gtcRem : s.delay.2.gtcRem = s.gtcRem := rfl
@[simp] theorem delay_gtcOff : s.delay.2.gtcOff = s.gtcOff := rfl
@[simp] theorem delay_gtcWarn : s.delay.2.gtcWarn = s.gtcWarn := rfl
@[simp] theorem delay_mhz : s.delay.2.mhz = s.mhz := rfl
@[simp] theorem delay_budget : s.delay.2.budget = s.budget := rfl
@[simp] theorem delay_windows : s.delay.2.windows = s.windows := rfl
@[simp] theorem delay_avgw : s.delay.2.avgw = s.avgw := rfl
@[simp] theorem delay_pcap : s.delay.2.pcap = s.pcap := rfl
@[simp] theorem delay_glbase : s.delay.2.glbase = s.glbase := rfl
@[simp] theorem delay_node : s.delay.2.node = s.node := rfl
@[simp] theorem delay_stopped : s.delay.2.stopped = s.stopped := rfl
@[simp] theorem delay_bootStage : s.delay.2.bootStage = s.bootStage := rfl
@[simp] theorem delay_bootFail : s.delay.2.bootFail = s.bootFail := rfl
@[simp] theorem delay_resets : s.delay.2.resets = s.resets := rfl
@[simp] theorem delay_chain : s.delay.2.chain = s.chain := rfl
@[simp] theorem delay_attLog : s.delay.2.attLog = s.attLog := rfl
@[simp] theorem delay_quotes : s.delay.2.quotes = s.quotes := rfl
@[simp] theorem delay_mem : s.delay.2.mem = s.mem := rfl
@[simp] theorem delay_lasting : s.delay.2.lasting = s.lasting := rfl
@[simp] theorem delay_transient : s.delay.2.transient = s.transient := rfl
@[simp] theorem delay_correctable : s.delay.2.correctable = s.correctable := rfl
@[simp] theorem delay_badRows : s.delay.2.badRows = s.badRows := rfl
@[simp] theorem delay_art : s.delay.2.art = s.art := rfl
@[simp] theorem delay_quota : s.delay.2.quota = s.quota := rfl
@[simp] theorem delay_l2 : s.delay.2.l2 = s.l2 := rfl
@[simp] theorem delay_invAddr : s.delay.2.invAddr = s.invAddr := rfl
@[simp] theorem delay_invCtl : s.delay.2.invCtl = s.invCtl := rfl
@[simp] theorem delay_invStat : s.delay.2.invStat = s.invStat := rfl
@[simp] theorem delay_ports : s.delay.2.ports = s.ports := rfl
@[simp] theorem delay_regions : s.delay.2.regions = s.regions := rfl
@[simp] theorem delay_groups : s.delay.2.groups = s.groups := rfl
@[simp] theorem delay_queue : s.delay.2.queue = s.queue := rfl
@[simp] theorem delay_nextGid : s.delay.2.nextGid = s.nextGid := rfl
@[simp] theorem delay_mcast : s.delay.2.mcast = s.mcast := rfl
@[simp] theorem delay_links : s.delay.2.links = s.links := rfl
@[simp] theorem delay_unreachable : s.delay.2.unreachable = s.unreachable := rfl
@[simp] theorem delay_cxlDown : s.delay.2.cxlDown = s.cxlDown := rfl
@[simp] theorem delay_resync : s.delay.2.resync = s.resync := rfl
@[simp] theorem delay_resyncStat : s.delay.2.resyncStat = s.resyncStat := rfl
@[simp] theorem delay_cores : s.delay.2.cores = s.cores := rfl
@[simp] theorem delay_clusters : s.delay.2.clusters = s.clusters := rfl
@[simp] theorem delay_dies : s.delay.2.dies = s.dies := rfl
@[simp] theorem delay_net : s.delay.2.net = s.net := rfl
@[simp] theorem delay_transfers : s.delay.2.transfers = s.transfers := rfl
@[simp] theorem delay_moves : s.delay.2.moves = s.moves := rfl
@[simp] theorem delay_fabric : s.delay.2.fabric = s.fabric := rfl
@[simp] theorem delay_fabOut : s.delay.2.fabOut = s.fabOut := rfl
@[simp] theorem delay_fabIn : s.delay.2.fabIn = s.fabIn := rfl
@[simp] theorem delay_agenda : s.delay.2.agenda = s.agenda := rfl
@[simp] theorem delay_serial : s.delay.2.serial = s.serial := rfl
@[simp] theorem delay_curCid : s.delay.2.curCid = s.curCid := rfl
@[simp] theorem delay_curSlot : s.delay.2.curSlot = s.curSlot := rfl
@[simp] theorem delay_lender : s.delay.2.lender = s.lender := rfl
@[simp] theorem delay_banks : s.delay.2.banks = s.banks := rfl
@[simp] theorem delay_obj : s.delay.2.obj = s.obj := rfl
end delay

section modGroup
variable (s : State) (g : Nat) (f : Group → Group)
@[simp] theorem modGroup_cycle : (s.modGroup g f).cycle = s.cycle := by unfold modGroup; split <;> rfl
@[simp] theorem modGroup_gtc : (s.modGroup g f).gtc = s.gtc := by unfold modGroup; split <;> rfl
@[simp] theorem modGroup_gtcRem : (s.modGroup g f).gtcRem = s.gtcRem := by unfold modGroup; split <;> rfl
@[simp] theorem modGroup_gtcOff : (s.modGroup g f).gtcOff = s.gtcOff := by unfold modGroup; split <;> rfl
@[simp] theorem modGroup_gtcWarn : (s.modGroup g f).gtcWarn = s.gtcWarn := by unfold modGroup; split <;> rfl
@[simp] theorem modGroup_mhz : (s.modGroup g f).mhz = s.mhz := by unfold modGroup; split <;> rfl
@[simp] theorem modGroup_budget : (s.modGroup g f).budget = s.budget := by unfold modGroup; split <;> rfl
@[simp] theorem modGroup_windows : (s.modGroup g f).windows = s.windows := by unfold modGroup; split <;> rfl
@[simp] theorem modGroup_avgw : (s.modGroup g f).avgw = s.avgw := by unfold modGroup; split <;> rfl
@[simp] theorem modGroup_pcap : (s.modGroup g f).pcap = s.pcap := by unfold modGroup; split <;> rfl
@[simp] theorem modGroup_glbase : (s.modGroup g f).glbase = s.glbase := by unfold modGroup; split <;> rfl
@[simp] theorem modGroup_node : (s.modGroup g f).node = s.node := by unfold modGroup; split <;> rfl
@[simp] theorem modGroup_stopped : (s.modGroup g f).stopped = s.stopped := by unfold modGroup; split <;> rfl
@[simp] theorem modGroup_bootStage : (s.modGroup g f).bootStage = s.bootStage := by unfold modGroup; split <;> rfl
@[simp] theorem modGroup_bootFail : (s.modGroup g f).bootFail = s.bootFail := by unfold modGroup; split <;> rfl
@[simp] theorem modGroup_resets : (s.modGroup g f).resets = s.resets := by unfold modGroup; split <;> rfl
@[simp] theorem modGroup_chain : (s.modGroup g f).chain = s.chain := by unfold modGroup; split <;> rfl
@[simp] theorem modGroup_attLog : (s.modGroup g f).attLog = s.attLog := by unfold modGroup; split <;> rfl
@[simp] theorem modGroup_quotes : (s.modGroup g f).quotes = s.quotes := by unfold modGroup; split <;> rfl
@[simp] theorem modGroup_mem : (s.modGroup g f).mem = s.mem := by unfold modGroup; split <;> rfl
@[simp] theorem modGroup_lasting : (s.modGroup g f).lasting = s.lasting := by unfold modGroup; split <;> rfl
@[simp] theorem modGroup_transient : (s.modGroup g f).transient = s.transient := by unfold modGroup; split <;> rfl
@[simp] theorem modGroup_correctable : (s.modGroup g f).correctable = s.correctable := by unfold modGroup; split <;> rfl
@[simp] theorem modGroup_badRows : (s.modGroup g f).badRows = s.badRows := by unfold modGroup; split <;> rfl
@[simp] theorem modGroup_art : (s.modGroup g f).art = s.art := by unfold modGroup; split <;> rfl
@[simp] theorem modGroup_quota : (s.modGroup g f).quota = s.quota := by unfold modGroup; split <;> rfl
@[simp] theorem modGroup_l2 : (s.modGroup g f).l2 = s.l2 := by unfold modGroup; split <;> rfl
@[simp] theorem modGroup_invAddr : (s.modGroup g f).invAddr = s.invAddr := by unfold modGroup; split <;> rfl
@[simp] theorem modGroup_invCtl : (s.modGroup g f).invCtl = s.invCtl := by unfold modGroup; split <;> rfl
@[simp] theorem modGroup_invStat : (s.modGroup g f).invStat = s.invStat := by unfold modGroup; split <;> rfl
@[simp] theorem modGroup_ports : (s.modGroup g f).ports = s.ports := by unfold modGroup; split <;> rfl
@[simp] theorem modGroup_regions : (s.modGroup g f).regions = s.regions := by unfold modGroup; split <;> rfl
@[simp] theorem modGroup_queue : (s.modGroup g f).queue = s.queue := by unfold modGroup; split <;> rfl
@[simp] theorem modGroup_nextGid : (s.modGroup g f).nextGid = s.nextGid := by unfold modGroup; split <;> rfl
@[simp] theorem modGroup_mcast : (s.modGroup g f).mcast = s.mcast := by unfold modGroup; split <;> rfl
@[simp] theorem modGroup_links : (s.modGroup g f).links = s.links := by unfold modGroup; split <;> rfl
@[simp] theorem modGroup_unreachable : (s.modGroup g f).unreachable = s.unreachable := by unfold modGroup; split <;> rfl
@[simp] theorem modGroup_cxlDown : (s.modGroup g f).cxlDown = s.cxlDown := by unfold modGroup; split <;> rfl
@[simp] theorem modGroup_resync : (s.modGroup g f).resync = s.resync := by unfold modGroup; split <;> rfl
@[simp] theorem modGroup_resyncStat : (s.modGroup g f).resyncStat = s.resyncStat := by unfold modGroup; split <;> rfl
@[simp] theorem modGroup_cores : (s.modGroup g f).cores = s.cores := by unfold modGroup; split <;> rfl
@[simp] theorem modGroup_clusters : (s.modGroup g f).clusters = s.clusters := by unfold modGroup; split <;> rfl
@[simp] theorem modGroup_dies : (s.modGroup g f).dies = s.dies := by unfold modGroup; split <;> rfl
@[simp] theorem modGroup_net : (s.modGroup g f).net = s.net := by unfold modGroup; split <;> rfl
@[simp] theorem modGroup_transfers : (s.modGroup g f).transfers = s.transfers := by unfold modGroup; split <;> rfl
@[simp] theorem modGroup_moves : (s.modGroup g f).moves = s.moves := by unfold modGroup; split <;> rfl
@[simp] theorem modGroup_fabric : (s.modGroup g f).fabric = s.fabric := by unfold modGroup; split <;> rfl
@[simp] theorem modGroup_fabOut : (s.modGroup g f).fabOut = s.fabOut := by unfold modGroup; split <;> rfl
@[simp] theorem modGroup_fabIn : (s.modGroup g f).fabIn = s.fabIn := by unfold modGroup; split <;> rfl
@[simp] theorem modGroup_agenda : (s.modGroup g f).agenda = s.agenda := by unfold modGroup; split <;> rfl
@[simp] theorem modGroup_serial : (s.modGroup g f).serial = s.serial := by unfold modGroup; split <;> rfl
@[simp] theorem modGroup_free : (s.modGroup g f).free = s.free := by unfold modGroup; split <;> rfl
@[simp] theorem modGroup_curCid : (s.modGroup g f).curCid = s.curCid := by unfold modGroup; split <;> rfl
@[simp] theorem modGroup_curSlot : (s.modGroup g f).curSlot = s.curSlot := by unfold modGroup; split <;> rfl
@[simp] theorem modGroup_lender : (s.modGroup g f).lender = s.lender := by unfold modGroup; split <;> rfl
@[simp] theorem modGroup_banks : (s.modGroup g f).banks = s.banks := by unfold modGroup; split <;> rfl
@[simp] theorem modGroup_obj : (s.modGroup g f).obj = s.obj := by unfold modGroup; split <;> rfl
end modGroup

end Sys2Proof.Machine.State
end

