-- ==== Sys2Proof/Laws/Tables.lean ====
section
/-!
SUPPORT. Sparse tables, bytes of memory, and the parts of the state: what a read gives after a write.
-/
namespace Sys2Proof.Machine

section Tables
variable {α : Type}

theorem tget_tset_same (t : Tab α) (k : Nat) (v d : α) : tget (tset t k v) k d = v := by
  induction t with
  | nil => simp [tset, tget]
  | cons p r ih =>
    obtain ⟨k', v'⟩ := p
    by_cases h : k < k'
    · simp [tset, tget, h]
    · by_cases e : k = k'
      · simp [tset, tget, e]
      · have e' : ¬k' = k := fun x => e x.symm
        simp [tset, tget, h, e, e', ih]

theorem tget_tset_other (t : Tab α) {k j : Nat} (v d : α) (h : k ≠ j) : tget (tset t k v) j d = tget t j d := by
  induction t with
  | nil => simp [tset, tget, h]
  | cons p r ih =>
    obtain ⟨k', v'⟩ := p
    by_cases l : k < k'
    · simp [tset, tget, l, h]
    · by_cases e : k = k'
      · subst e
        simp [tset, tget, h]
      · simp [tset, tget, l, e, ih]

/-- A table read after an entry was set. -/
@[simp] theorem tget_tset (t : Tab α) (k j : Nat) (v d : α) : tget (tset t k v) j d = if k = j then v else tget t j d := by
  by_cases h : k = j
  · subst h
    simp [tget_tset_same]
  · simp [h, tget_tset_other]

theorem tfind_tset_same (t : Tab α) (k : Nat) (v : α) : tfind (tset t k v) k = some v := by
  induction t with
  | nil => simp [tset, tfind]
  | cons p r ih =>
    obtain ⟨k', v'⟩ := p
    by_cases h : k < k'
    · simp [tset, tfind, h]
    · by_cases e : k = k'
      · simp [tset, tfind, e]
      · have e' : ¬k' = k := fun x => e x.symm
        simp [tset, tfind, h, e, e', ih]

theorem tfind_tset_other (t : Tab α) {k j : Nat} (v : α) (h : k ≠ j) : tfind (tset t k v) j = tfind t j := by
  induction t with
  | nil => simp [tset, tfind, h]
  | cons p r ih =>
    obtain ⟨k', v'⟩ := p
    by_cases l : k < k'
    · simp [tset, tfind, l, h]
    · by_cases e : k = k'
      · subst e
        simp [tset, tfind, h]
      · simp [tset, tfind, l, e, ih]

/-- A table searched after an entry was set. -/
@[simp] theorem tfind_tset (t : Tab α) (k j : Nat) (v : α) : tfind (tset t k v) j = if k = j then some v else tfind t j := by
  by_cases h : k = j
  · subst h
    simp [tfind_tset_same]
  · simp [h, tfind_tset_other]

/-- Setting an entry twice leaves the second. -/
@[simp] theorem tset_tset (t : Tab α) (k : Nat) (v w : α) : tset (tset t k v) k w = tset t k w := by
  induction t with
  | nil => simp [tset]
  | cons p r ih =>
    obtain ⟨k', v'⟩ := p
    by_cases h : k < k'
    · simp [tset, h]
    · by_cases e : k = k'
      · simp [tset, e]
      · simp [tset, h, e, ih]

end Tables

/-! ### Memory -/

namespace Mem

/-- A byte read after a byte was written. -/
@[simp] theorem get_nil (a : Nat) : Mem.get [] a = 0 := rfl

theorem get_below (m : Mem) (lo a : Nat) (h : m.wfFrom lo = true) (l : a < lo) : m.get a = 0 := by
  induction m generalizing lo with
  | nil => rfl
  | cons p r ih =>
    obtain ⟨k, b⟩ := p
    simp only [wfFrom, Bool.and_eq_true, decide_eq_true_eq] at h
    have e : ¬k = a := by omega
    simp only [Mem.get, e, if_false]
    exact ih (k + 1) h.2 (by omega)

theorem wfFrom_mono (m : Mem) {lo lo' : Nat} (h : m.wfFrom lo = true) (l : lo' ≤ lo) : m.wfFrom lo' = true := by
  cases m with
  | nil => rfl
  | cons p r =>
    obtain ⟨k, b⟩ := p
    simp only [wfFrom, Bool.and_eq_true, decide_eq_true_eq] at h ⊢
    exact ⟨⟨by omega, h.1.2⟩, h.2⟩

/-- Writing a byte keeps the canonical form. -/
theorem put_wfFrom (m : Mem) (lo a : Nat) (b : Byte) (h : m.wfFrom lo = true) (l : lo ≤ a) : (m.put a b).wfFrom lo = true := by
  induction m generalizing lo with
  | nil =>
    by_cases z : b = 0#8
    · simp [put, z, wfFrom]
    · simp [put, z, wfFrom, l]
  | cons p r ih =>
    obtain ⟨k, c⟩ := p
    simp only [wfFrom, Bool.and_eq_true, decide_eq_true_eq] at h
    by_cases lt : a < k
    · by_cases z : b = 0#8
      · simp [put, lt, z, wfFrom, h.1.1, h.2, show ¬c = 0#8 by simpa using h.1.2]
      · have hk : a + 1 ≤ k := by omega
        have hc : ¬c = 0#8 := by simpa using h.1.2
        simp [put, lt, z, wfFrom, l, h.2, hc, hk]
    · by_cases e : a = k
      · subst e
        by_cases z : b = 0#8
        · simp [put, z]
          exact wfFrom_mono r h.2 (by omega)
        · simp [put, z, wfFrom, l, h.2]
      · have hc : ¬c = 0#8 := by simpa using h.1.2
        simp [put, lt, e, wfFrom, h.1.1, hc]
        exact ih (k + 1) h.2 (by omega)

/-- Every write of memory keeps the canonical form. -/
theorem put_wf (m : Mem) (a : Nat) (b : Byte) (h : m.wf = true) : (m.put a b).wf = true :=
  put_wfFrom m 0 a b h (Nat.zero_le a)

theorem write_wf (m : Mem) (a : Nat) (bs : List Byte) (h : m.wf = true) : (m.write a bs).wf = true := by
  induction bs generalizing m a with
  | nil => exact h
  | cons b bs ih => exact ih _ _ (put_wf m a b h)

theorem writeMasked_wf (m : Mem) (a : Nat) (bs : List (Byte × Bool)) (h : m.wf = true) : (m.writeMasked a bs).wf = true := by
  induction bs generalizing m a with
  | nil => exact h
  | cons b bs ih =>
    obtain ⟨b, on⟩ := b
    cases on
    · exact ih _ _ h
    · exact ih _ _ (put_wf m a b h)

theorem filter_wfFrom (m : Mem) (lo : Nat) (p : Host.Cell → Bool) (h : m.wfFrom lo = true) : Mem.wfFrom lo (m.filter p) = true := by
  induction m generalizing lo with
  | nil => rfl
  | cons c r ih =>
    obtain ⟨k, b⟩ := c
    simp only [wfFrom, Bool.and_eq_true, decide_eq_true_eq] at h
    by_cases e : p (k, b) = true
    · simp [List.filter, e, wfFrom, h.1.1]
      exact ⟨by simpa using h.1.2, ih (k + 1) h.2⟩
    · simp only [Bool.not_eq_true] at e
      simp [List.filter, e]
      exact ih lo (wfFrom_mono r h.2 (by omega))

/-- Dropping bytes, as a scrub does, keeps the canonical form. -/
theorem filter_wf (m : Mem) (p : Host.Cell → Bool) (h : m.wf = true) : Mem.wf (m.filter p) = true := filter_wfFrom m 0 p h

/-- The memory of a module that was reset is in canonical form. -/
theorem reset_wf : State.reset.mem.wf = true := rfl

theorem get_put_from (m : Mem) (lo a c : Nat) (b : Byte) (h : m.wfFrom lo = true) :
    (m.put a b).get c = if a = c then b else m.get c := by
  induction m generalizing lo with
  | nil =>
    by_cases z : b = 0#8
    · by_cases e : a = c <;> simp [put, z, e]
    · by_cases e : a = c <;> simp [put, z, e, Mem.get]
  | cons p r ih =>
    obtain ⟨k, d⟩ := p
    simp only [wfFrom, Bool.and_eq_true, decide_eq_true_eq] at h
    by_cases lt : a < k
    · by_cases z : b = 0#8
      · by_cases e : a = c
        · subst e
          have : ¬k = a := by omega
          simp [put, lt, z, Mem.get, this]
          exact get_below r (k + 1) a h.2 (by omega)
        · simp [put, lt, z, e]
      · have q : Mem.put ((k, d) :: r) a b = (a, b) :: (k, d) :: r := by simp [put, lt, z]
        rw [q]
        by_cases e : a = c <;> simp [e, Mem.get]
    · by_cases ek : a = k
      · subst ek
        by_cases z : b = 0#8
        · by_cases e : a = c
          · subst e
            simp [put, z]
            exact get_below r (a + 1) a h.2 (by omega)
          · simp [put, z, e, Mem.get]
        · by_cases e : a = c <;> simp [put, z, e, Mem.get]
      · have q : Mem.put ((k, d) :: r) a b = (k, d) :: Mem.put r a b := by simp [put, lt, ek]
        rw [q]
        by_cases kc : k = c
        · have : ¬a = c := by omega
          simp [Mem.get, kc, this]
        · simp [Mem.get, kc]
          exact ih (k + 1) h.2

/-- In canonical memory a byte reads as it was written, and every other byte as before. -/
theorem get_put (m : Mem) (a c : Nat) (b : Byte) (h : m.wf = true) : (m.put a b).get c = if a = c then b else m.get c :=
  get_put_from m 0 a c b h

/-- A write of bytes leaves every byte outside it. -/
theorem get_write_outside (m : Mem) (a c : Nat) (bs : List Byte) (h : m.wf = true) (o : c < a ∨ a + bs.length ≤ c) :
    (m.write a bs).get c = m.get c := by
  induction bs generalizing m a with
  | nil => rfl
  | cons b bs ih =>
    simp only [List.length_cons] at o
    rw [write, ih _ _ (put_wf m a b h) (by omega), get_put m a c b h, if_neg (by omega)]

/-- A byte of a write reads as the byte written there. -/
theorem get_write_inside (m : Mem) (a i : Nat) (bs : List Byte) (h : m.wf = true) (o : i < bs.length) :
    (m.write a bs).get (a + i) = bs[i] := by
  induction bs generalizing m a i with
  | nil => simp at o
  | cons b bs ih =>
    cases i with
    | zero =>
      rw [write, get_write_outside _ _ _ _ (put_wf m a b h) (by omega)]
      simp [get_put m a a b h]
    | succ i =>
      have := ih (m.put a b) (a + 1) i (put_wf m a b h) (by simpa using o)
      rw [write, show a + (i + 1) = a + 1 + i by omega, this]
      rfl

@[simp] theorem length_bytes (m : Mem) (a n : Nat) : (m.bytes a n).length = n := by
  induction n generalizing a with
  | zero => rfl
  | succ n ih => simp [bytes, ih]

end Mem

/-! ### Parts of the state -/

namespace State
variable (s : State)

@[simp] theorem core_setCore (c d : Nat) (x : Core) : (s.setCore c x).core d = if c = d then x else s.core d := by
  simp [core, setCore]

@[simp] theorem core_modCore (c d : Nat) (f : Core → Core) : (s.modCore c f).core d = if c = d then f (s.core d) else s.core d := by
  by_cases h : c = d
  · subst h
    simp [modCore]
  · simp [modCore, h]

@[simp] theorem slot_setSlot (c i d j : Nat) (x : Slot) :
    (s.setSlot c i x).slot d j = if c = d ∧ i = j then x else s.slot d j := by
  by_cases h : c = d
  · subst h
    by_cases e : i = j <;> simp [slot, setSlot, e]
  · simp [slot, setSlot, h]

@[simp] theorem slot_modSlot (c i d j : Nat) (f : Slot → Slot) :
    (s.modSlot c i f).slot d j = if c = d ∧ i = j then f (s.slot d j) else s.slot d j := by
  by_cases h : c = d ∧ i = j
  · obtain ⟨rfl, rfl⟩ := h
    simp [modSlot]
  · simp [modSlot, h]

@[simp] theorem here_modHere (f : Slot → Slot) : (s.modHere f).here = f s.here := by
  simp [here, modHere]

@[simp] theorem hereCore_modHereCore (f : Core → Core) : (s.modHereCore f).hereCore = f s.hereCore := by
  simp [hereCore, modHereCore]

@[simp] theorem chan_modChan (c n d k : Nat) (f : Chan → Chan) :
    (s.modChan c n f).chan d k = if c = d ∧ n = k then f (s.chan d k) else s.chan d k := by
  by_cases h : c = d
  · subst h
    by_cases e : n = k
    · subst e
      simp [chan, modChan]
    · simp [chan, modChan, e]
  · simp [chan, modChan, h]

@[simp] theorem mailbox_setMailbox (c t d u : Nat) (m : Mailbox) :
    (s.setMailbox c t m).mailbox d u = if c = d ∧ t = u then m else s.mailbox d u := by
  by_cases h : c = d
  · subst h
    by_cases e : t = u <;> simp [mailbox, setMailbox, e]
  · simp [mailbox, setMailbox, h]

@[simp] theorem handle_setHandle (c h d k : Nat) (x : Handle) :
    (s.setHandle c h x).handle d k = if c = d ∧ h = k then x else s.handle d k := by
  by_cases e : c = d
  · subst e
    by_cases e' : h = k <;> simp [handle, setHandle, e']
  · simp [handle, setHandle, e]

@[simp] theorem cluster_modCluster (k j : Nat) (f : Cluster → Cluster) :
    (s.modCluster k f).cluster j = if k = j then f (s.cluster j) else s.cluster j := by
  by_cases h : k = j
  · subst h
    simp [cluster, modCluster]
  · simp [cluster, modCluster, h]

@[simp] theorem die_modDie (k j : Nat) (f : Die → Die) : (s.modDie k f).die j = if k = j then f (s.die j) else s.die j := by
  by_cases h : k = j
  · subst h
    simp [die, modDie]
  · simp [die, modDie, h]

/-! The parts that an update of another part leaves. -/

@[simp] theorem core_schedule (d : Due) (r : Nat) (i : Instr) (o : Obj) (c : Nat) : (s.schedule d r i o).core c = s.core c := rfl
@[simp] theorem slot_schedule (d : Due) (r : Nat) (i : Instr) (o : Obj) (c j : Nat) : (s.schedule d r i o).slot c j = s.slot c j := rfl
@[simp] theorem here_schedule (d : Due) (r : Nat) (i : Instr) (o : Obj) : (s.schedule d r i o).here = s.here := rfl
@[simp] theorem hereCore_schedule (d : Due) (r : Nat) (i : Instr) (o : Obj) : (s.schedule d r i o).hereCore = s.hereCore := rfl
@[simp] theorem group_schedule (d : Due) (r : Nat) (i : Instr) (o : Obj) (g : Nat) : (s.schedule d r i o).group? g = s.group? g := rfl
@[simp] theorem group_modCore (c : Nat) (f : Core → Core) (g : Nat) : (s.modCore c f).group? g = s.group? g := rfl
@[simp] theorem group_modSlot (c i : Nat) (f : Slot → Slot) (g : Nat) : (s.modSlot c i f).group? g = s.group? g := rfl
@[simp] theorem cluster_modCore (c : Nat) (f : Core → Core) (k : Nat) : (s.modCore c f).cluster k = s.cluster k := rfl
@[simp] theorem cluster_modSlot (c i : Nat) (f : Slot → Slot) (k : Nat) : (s.modSlot c i f).cluster k = s.cluster k := rfl
@[simp] theorem die_modCore (c : Nat) (f : Core → Core) (k : Nat) : (s.modCore c f).die k = s.die k := rfl

theorem slot_modCore (c d i : Nat) (f : Core → Core) (h : ∀ x, (f x).slots = x.slots) : (s.modCore c f).slot d i = s.slot d i := by
  by_cases e : c = d
  · subst e
    simp [slot, h]
  · simp [slot, e]

end State

end Sys2Proof.Machine
end

