-- ==== Sys2Proof/Laws/Issue.lean ====
section
/-!
SUPPORT. The issue of an instruction, said once: it completes with its effect, it traps, or it is held.
-/
namespace Sys2Proof.Machine

/-- A computation goes on with what its first part gives. -/
theorem Do.bind_ok {α β : Type} {x : Do α} {f : α → Do β} {s t : State} {a : α} (h : x.run s = .ok (a, t)) :
    (x >>= f).run s = (f a).run t := by
  rw [StateT.run_bind, h]
  rfl

/-- A computation stops where its first part stops. -/
theorem Do.bind_error {α β : Type} {x : Do α} {f : α → Do β} {s : State} {e : Stop} (h : x.run s = .error e) :
    (x >>= f).run s = .error e := by
  rw [StateT.run_bind, h]
  rfl

theorem State.admits_iff (s : State) (ins : Instr) :
    s.admits ins = true ↔ (s.here.guest && State.atHomeOnly ins) = false ∧ s.heldFor s.curCid s.curSlot ins = false
      ∧ s.hereCore.feat.getLsbD ins.feature = true
      ∧ (if s.here.mode.sbchk then s.firstAwaited s.curCid s.curSlot (uses ins) else none) = none ∧ s.here.late = [] := by
  unfold State.admits
  cases s.here.mode.sbchk <;> cases s.here.guest <;> simp [and_assoc]

/-- An admitted instruction whose effect can be computed completes with it. -/
theorem issueChecked_completes {ins : Instr} {early : State → Option Word} {body : Do Unit} {s t : State} {u : Unit}
    (a : s.admits ins = true) (e : early s = none) (h : body.run (s.begin_ ins) = .ok (u, t)) :
    issueChecked ins early body s = .next t.issueDone.stretchTurn := by
  obtain ⟨g, hd, f, b, l⟩ := (State.admits_iff s ins).1 a
  simp [issueChecked, issueWith, issueOnce, l, g, hd, f, b, e, h]

theorem issue_completes {ins : Instr} {body : Do Unit} {s t : State} {u : Unit}
    (a : s.admits ins = true) (h : body.run (s.begin_ ins) = .ok (u, t)) : issue ins body s = .next t.issueDone.stretchTurn :=
  issueChecked_completes a rfl h

/-- An admitted instruction whose effect stops ends as the stop says. -/
theorem issueChecked_stops {ins : Instr} {early : State → Option Word} {body : Do Unit} {s : State} {x : Stop}
    (a : s.admits ins = true) (e : early s = none) (h : body.run (s.begin_ ins) = .error x) :
    issueChecked ins early body s = .next (s.stopIssue ins x) := by
  obtain ⟨g, hd, f, b, l⟩ := (State.admits_iff s ins).1 a
  simp [issueChecked, issueWith, issueOnce, l, g, hd, f, b, e, h]

theorem issue_stops {ins : Instr} {body : Do Unit} {s : State} {x : Stop}
    (a : s.admits ins = true) (h : body.run (s.begin_ ins) = .error x) : issue ins body s = .next (s.stopIssue ins x) :=
  issueChecked_stops a rfl h

/-- A held instruction leaves the state as it is (R16, R19). -/
theorem issueChecked_held {ins : Instr} {early : State → Option Word} {body : Do Unit} {s : State}
    (g : (s.here.guest && State.atHomeOnly ins) = false) (l : s.here.late = [])
    (h : s.heldFor s.curCid s.curSlot ins = true) : issueChecked ins early body s = .next s := by
  simp [issueChecked, issueWith, issueOnce, l, g, h]

end Sys2Proof.Machine
end

