-- ==== Sys2Proof/Laws/Operands.lean ====
section
/-!
SUPPORT. What the operand forms on registers give in a module without memory errors, and what is left by an instruction
that has one fixed-latency register result.
-/
namespace Sys2Proof.Machine

theorem State.sound_iff (s : State) : s.sound = true ↔ s.lasting = [] ∧ s.transient = [] ∧ s.correctable = [] := by
  simp [State.sound, State.errorFree, and_assoc]

/-- A word of the own workspace is read without effect. -/
theorem readWord_run {s : State} (h : s.sound = true) (use off n : Nat) :
    (readWord use off n).run s = .ok (s.wsRead s.curCid s.curSlot off n, s) := by
  simp [readWord, show s.errorFree = true from h, get, getThe, MonadStateOf.get, StateT.get, StateT.run, bind, StateT.bind, Except.bind, pure, StateT.pure, Except.pure]

/-- A scalar register, or w0, is read without effect. -/
theorem readS_run {s : State} (h : s.sound = true) (use : Nat) {code : BitVec 5} (c : code.toNat < 28) :
    (readS use code).run s = .ok (s.hereW code, s) := by
  have hw := readWord_run h use (8 * code.toNat) 8
  unfold readS
  by_cases z : code = 0
  · subst z
    rfl
  · have n : ¬code.toNat = 0 := fun e => z (by apply BitVec.eq_of_toNat_eq; simpa using e)
    simp only [n, c, if_true, if_false]
    simp only [StateT.run_bind, hw]
    simp only [State.hereW, if_neg z]
    rfl

/-- A fixed-latency result joins those that are pending (R20). -/
theorem later_run (s : State) (lat : Nat) (d : Dest) (v : VWord) (m : BitVec 16) :
    ∃ t, (later lat d v m).run s = .ok ((), t)
      ∧ t.hereCore = { s.hereCore with
          pend := s.hereCore.pend ++ [{ due := s.hereCore.turn + lat, slot := s.curSlot, dest := d, data := v, mask := m }] }
      ∧ (∀ c, c ≠ s.curCid → t.core c = s.core c)
      ∧ t.offCore = s.offCore := by
  unfold later
  refine ⟨_, rfl, ?_, ?_, ?_⟩
  · dsimp only
    split <;> simp [State.hereCore, State.modHereCore]
  · intro c h
    have h' : ¬s.curCid = c := fun e => h e.symm
    dsimp only
    split <;> simp [State.modHereCore, h']
  · dsimp only
    split <;> rfl

/-- A scalar result goes to a register, and one for w0 is discarded (R18). -/
theorem writeS_run (s : State) (use : Nat) {d : BitVec 5} (lat : Nat) (v : Word) (c : d.toNat < 28) :
    ∃ t, (writeS use d lat v).run s = .ok ((), t)
      ∧ t.hereCore = { s.hereCore with pend := s.hereCore.pend ++ s.scalarResult d lat v }
      ∧ (∀ c, c ≠ s.curCid → t.core c = s.core c)
      ∧ t.offCore = s.offCore := by
  by_cases z : d = 0
  · subst z
    exact ⟨s, rfl, by simp [State.scalarResult], fun _ _ => rfl, rfl⟩
  · have n : ¬d.toNat = 0 := fun e => z (by apply BitVec.eq_of_toNat_eq; simpa using e)
    obtain ⟨t, h, r⟩ := later_run s lat (.reg s.curSlot (8 * d.toNat)) (v.setWidth 128) (lowMask 8)
    refine ⟨t, ?_, ?_⟩
    · unfold writeS destS
      simp only [n, c, if_true, if_false]
      exact h
    · rw [show s.scalarResult d lat v = [_] from if_neg z]
      exact r

/-! ### The state in which an instruction works, and the state that it leaves -/

namespace State
variable (s : State) (ins : Instr)

@[simp] theorem offCore_modCore (c : Nat) (f : Core → Core) : (s.modCore c f).offCore = s.offCore := rfl
@[simp] theorem offCore_modSlot (c i : Nat) (f : Slot → Slot) : (s.modSlot c i f).offCore = s.offCore := rfl
@[simp] theorem offCore_modHere (f : Slot → Slot) : (s.modHere f).offCore = s.offCore := rfl
@[simp] theorem offCore_modHereCore (f : Core → Core) : (s.modHereCore f).offCore = s.offCore := rfl
@[simp] theorem offCore_schedule (d : Due) (r : Nat) (i : Instr) (o : Obj) : (s.schedule d r i o).offCore = s.offCore := rfl
@[simp] theorem offCore_banks (b : List Nat) : (s.setBanks b).offCore = s.offCore := rfl
@[simp] theorem curCid_offCore : s.offCore.curCid = s.curCid := rfl
@[simp] theorem curSlot_offCore : s.offCore.curSlot = s.curSlot := rfl

theorem core_modHereCore (f : Core → Core) (c : Nat) : (s.modHereCore f).core c = if s.curCid = c then f (s.core c) else s.core c := by
  simp [modHereCore]
theorem core_modHere (f : Slot → Slot) (c : Nat) : (s.modHere f).core c
    = if s.curCid = c then { s.core c with slots := tset (s.core c).slots s.curSlot (f s.here) } else s.core c := by
  by_cases h : s.curCid = c
  · subst h
    simp [modHere, modSlot, setSlot, here]
  · simp [modHere, modSlot, setSlot, h]
@[simp] theorem core_banks (b : List Nat) (c : Nat) : (s.setBanks b).core c = s.core c := rfl

/-- `begin_` counts the issue and touches the own slot, the banks and the agenda. -/
theorem begin_spec :
    (s.begin_ ins).offCore = s.offCore
      ∧ (∀ c, c ≠ s.curCid → (s.begin_ ins).core c = s.core c)
      ∧ (∃ x : Slot, (s.begin_ ins).hereCore
          = { s.hereCore with issued := s.hereCore.issued + 1, slots := tset s.hereCore.slots s.curSlot x }
        ∧ { x with stall := s.here.stall } = { s.here with pc := s.nextPc ins, lent := s.lender.isSome, own := false
                                                           fetched := none, ins := none, undo := []
                                                           since := s.cycle })
      ∧ (s.begin_ ins).banks = [] := by
  refine ⟨?_, ?_, ?_, ?_⟩
  · unfold begin_ countIssue; dsimp only; split <;> simp
  · intro c h
    have h' : ¬s.curCid = c := fun e => h e.symm
    unfold begin_ countIssue; dsimp only
    split <;> simp [core_modHere, core_modHereCore, h']
  · unfold begin_ countIssue; dsimp only
    split
    · exact ⟨_, by simp [hereCore, core_modHere, core_modHereCore]; rfl, by simp [here, slot, core_modHereCore, nextPc]⟩
    · exact ⟨_, by simp [hereCore, core_modHere, core_modHereCore]; rfl, by simp [here, slot, core_modHereCore, nextPc]⟩
  · unfold begin_; dsimp only; split <;> rfl

@[simp] theorem begin_curCid : (s.begin_ ins).curCid = s.curCid :=
  show (s.begin_ ins).offCore.curCid = s.offCore.curCid from congrArg State.curCid (begin_spec s ins).1
@[simp] theorem begin_curSlot : (s.begin_ ins).curSlot = s.curSlot :=
  show (s.begin_ ins).offCore.curSlot = s.offCore.curSlot from congrArg State.curSlot (begin_spec s ins).1
@[simp] theorem begin_mem : (s.begin_ ins).mem = s.mem :=
  show (s.begin_ ins).offCore.mem = s.offCore.mem from congrArg State.mem (begin_spec s ins).1
@[simp] theorem begin_lasting : (s.begin_ ins).lasting = s.lasting :=
  show (s.begin_ ins).offCore.lasting = s.offCore.lasting from congrArg State.lasting (begin_spec s ins).1
@[simp] theorem begin_transient : (s.begin_ ins).transient = s.transient :=
  show (s.begin_ ins).offCore.transient = s.offCore.transient from congrArg State.transient (begin_spec s ins).1
@[simp] theorem begin_correctable : (s.begin_ ins).correctable = s.correctable :=
  show (s.begin_ ins).offCore.correctable = s.offCore.correctable from congrArg State.correctable (begin_spec s ins).1

theorem begin_sound (h : s.sound = true) : (s.begin_ ins).sound = true := by
  simpa [sound, errorFree] using h

/-- The registers that an instruction reads are those of the state before its issue. -/
theorem begin_wsRead (off n : Nat) : (s.begin_ ins).wsRead s.curCid s.curSlot off n = s.wsRead s.curCid s.curSlot off n := by
  obtain ⟨x, hc, hx⟩ := (begin_spec s ins).2.2.1
  have sp : ((s.begin_ ins).core s.curCid).sp = (s.core s.curCid).sp := by
    have := congrArg Core.sp hc
    simpa [hereCore] using this
  have sl : (s.begin_ ins).slot s.curCid s.curSlot = x := by
    have := congrArg Core.slots hc
    simp only [hereCore, begin_curCid] at this
    simp [slot, this]
  have g : x.guest = s.here.guest := (congrArg Slot.guest hx : _)
  have f : x.frame = s.here.frame := (congrArg Slot.frame hx : _)
  simp [wsRead, wsMem, sl, sp, g, f, here]

@[simp] theorem begin_hereW (n : BitVec 5) : (s.begin_ ins).hereW n = s.hereW n := by
  simp [hereW, wreg, begin_wsRead]
@[simp] theorem begin_hereQ (n : BitVec 5) : (s.begin_ ins).hereQ n = s.hereQ n := by
  simp [hereQ, qreg, begin_wsRead]
@[simp] theorem begin_hereK (n : Nat) : (s.begin_ ins).hereK n = s.hereK n := by
  simp [hereK, kreg, begin_wsRead]

/-- The end of an issue touches the notes of walks, the stretch of the turn, and the banks. -/
theorem finish_spec :
    s.issueDone.stretchTurn.offCore = s.offCore
      ∧ (∀ c, c ≠ s.curCid → s.issueDone.stretchTurn.core c = s.core c)
      ∧ (∃ (x : Slot) (k : Nat), s.issueDone.stretchTurn.hereCore
          = { s.hereCore with stretch := k, bankstall := s.hereCore.bankstall + BitVec.ofNat 64 k
                              slots := if (s.here.again || !s.here.late.isEmpty || s.here.refusedNode.isSome) = true
                                then tset s.hereCore.slots s.curSlot x else s.hereCore.slots }
        ∧ x = { s.here with walked := none, trans := [], late := [], refusedNode := none }) := by
  have d : s.issueDone = if (s.here.again || !s.here.late.isEmpty || s.here.refusedNode.isSome) = true then
    s.modHere fun x => { x with walked := none, trans := [], late := [], refusedNode := none } else s := rfl
  refine ⟨?_, ?_, ?_⟩
  · unfold stretchTurn; rw [d]; split <;> simp
  · intro c h
    have h' : ¬s.curCid = c := fun e => h e.symm
    unfold stretchTurn; rw [d]; split <;> simp [core_modHere, core_modHereCore, h']
  · refine ⟨_, s.issueDone.banks.length - s.issueDone.banks.eraseDups.length, ?_, rfl⟩
    unfold stretchTurn; rw [d]; split <;> simp [hereCore, core_modHere, core_modHereCore]

end State

/-! ### Frames compose -/

namespace State
variable {s t u : State}

theorem OnlyIssue.curCid (h : s.OnlyIssue t) : t.curCid = s.curCid :=
  show t.offCore.curCid = s.offCore.curCid from congrArg State.curCid h.1
theorem OnlyIssue.curSlot (h : s.OnlyIssue t) : t.curSlot = s.curSlot :=
  show t.offCore.curSlot = s.offCore.curSlot from congrArg State.curSlot h.1

theorem OnlyIssue.trans (h : s.OnlyIssue t) (g : t.OnlyIssue u) : s.OnlyIssue u := by
  have hc := h.curCid
  have hs := h.curSlot
  obtain ⟨h1, h2, h3, h4, h5⟩ := h
  obtain ⟨g1, g2, g3, g4, g5⟩ := g
  rw [hc] at g2 g4
  rw [hs] at g4
  exact ⟨g1.trans h1, fun c n => (g2 c n).trans (h2 c n), g3.trans h3, fun i n => (g4 i n).trans (h4 i n), g5.trans h5⟩

theorem begin_pend (s : State) (ins : Instr) : (s.begin_ ins).hereCore.pend = s.hereCore.pend := by
  obtain ⟨_, _, ⟨x, b3, _⟩, _⟩ := begin_spec s ins
  rw [b3]
theorem begin_issued (s : State) (ins : Instr) : (s.begin_ ins).hereCore.issued = s.hereCore.issued + 1 := by
  obtain ⟨_, _, ⟨x, b3, _⟩, _⟩ := begin_spec s ins
  rw [b3]
theorem begin_turn (s : State) (ins : Instr) : (s.begin_ ins).hereCore.turn = s.hereCore.turn := by
  obtain ⟨_, _, ⟨x, b3, _⟩, _⟩ := begin_spec s ins
  rw [b3]

/-- The own slot when an instruction works. -/
theorem begin_here (s : State) (ins : Instr) :
    ∃ st, (s.begin_ ins).here
      = { s.here with pc := s.nextPc ins, lent := s.lender.isSome, own := false, fetched := none, ins := none, undo := []
                      since := s.cycle, stall := st } := by
  obtain ⟨_, _, ⟨x, b3, b4⟩, _⟩ := begin_spec s ins
  have := congrArg Core.slots b3
  simp only [hereCore, begin_curCid] at this
  have e : (s.begin_ ins).here = x := by simp [here, slot, this]
  refine ⟨x.stall, ?_⟩
  rw [e]
  cases x
  simp only [Slot.mk.injEq] at b4 ⊢
  simp_all

/-- The own slot after an issue, the notes of walks apart. -/
theorem finish_here (s : State) : ∃ w tr la rn, s.issueDone.stretchTurn.here
    = { s.here with walked := w, trans := tr, late := la, refusedNode := rn } := by
  obtain ⟨f1, f2, x, k, f3, f4⟩ := finish_spec s
  have cc : s.issueDone.stretchTurn.curCid = s.curCid := show State.curCid (offCore _) = s.offCore.curCid from congrArg State.curCid f1
  have cs : s.issueDone.stretchTurn.curSlot = s.curSlot := show State.curSlot (offCore _) = s.offCore.curSlot from congrArg State.curSlot f1
  have := congrArg Core.slots f3
  simp only [hereCore, cc] at this
  by_cases h : (s.here.again || !s.here.late.isEmpty || s.here.refusedNode.isSome) = true
  · refine ⟨none, [], [], none, ?_⟩
    simp only [h, if_true] at this
    rw [here, slot, cc, cs, this, tget_tset, if_pos rfl, f4]
  · refine ⟨s.here.walked, s.here.trans, s.here.late, s.here.refusedNode, ?_⟩
    simp only [h] at this
    rw [here, slot, cc, cs, this]
    rfl

theorem begin_only (s : State) (ins : Instr) : s.OnlyIssue (s.begin_ ins) := by
  obtain ⟨b1, b2, ⟨x, b3, _⟩, _⟩ := begin_spec s ins
  refine ⟨b1, b2, by rw [b3]; rfl, fun i n => ?_, by obtain ⟨st, h⟩ := begin_here s ins; rw [h]; rfl⟩
  have := congrArg Core.slots b3
  simp only [hereCore, begin_curCid] at this
  have n' : ¬s.curSlot = i := fun e => n e.symm
  simp [slot, this, n']

theorem finish_only (s : State) : s.OnlyIssue s.issueDone.stretchTurn := by
  obtain ⟨f1, f2, x, k, f3, _⟩ := finish_spec s
  have cc : s.issueDone.stretchTurn.curCid = s.curCid := show State.curCid (offCore _) = s.offCore.curCid from congrArg State.curCid f1
  refine ⟨f1, f2, by rw [f3]; rfl, fun i n => ?_, by obtain ⟨w, tr, la, rn, h⟩ := finish_here s; rw [h]; rfl⟩
  have := congrArg Core.slots f3
  simp only [hereCore, cc] at this
  have n' : ¬s.curSlot = i := fun e => n e.symm
  rw [slot, this]
  split <;> simp [slot, n']

theorem finish_pend (s : State) : s.issueDone.stretchTurn.hereCore.pend = s.hereCore.pend := by
  obtain ⟨_, _, x, k, f3, _⟩ := finish_spec s
  rw [f3]
theorem finish_issued (s : State) : s.issueDone.stretchTurn.hereCore.issued = s.hereCore.issued := by
  obtain ⟨_, _, x, k, f3, _⟩ := finish_spec s
  rw [f3]

end State

/-- What is left by an instruction on registers whose effect is one scalar result. -/
theorem scalar_completes {ins : Instr} {early : State → Option Word} {body : Do Unit} {s : State} {use lat : Nat} {d : BitVec 5} {v : Word}
    (a : s.admits ins = true) (e : early s = none) (w : s.here.wait = .ready) (c : d.toNat < 28)
    (h : body.run (s.begin_ ins) = (writeS use d lat v).run (s.begin_ ins)) :
    ∃ t, issueChecked ins early body s = .next t ∧ s.OnlyIssue t ∧ s.IssuedTo t (s.nextPc ins)
      ∧ t.hereCore.pend = s.hereCore.pend ++ s.scalarResult d lat v := by
  obtain ⟨u, hu, hc, ho, hr⟩ := writeS_run (s.begin_ ins) use lat v c
  refine ⟨_, issueChecked_completes a e (h.trans hu), ?_⟩
  have cu : u.curCid = (s.begin_ ins).curCid := show u.offCore.curCid = (s.begin_ ins).offCore.curCid from congrArg State.curCid hr
  have su : u.curSlot = (s.begin_ ins).curSlot := show u.offCore.curSlot = (s.begin_ ins).offCore.curSlot from congrArg State.curSlot hr
  have hs : u.here = (s.begin_ ins).here := by
    have := congrArg Core.slots hc
    simp only [State.hereCore, cu] at this
    rw [State.here, State.slot, cu, su, this]
    rfl
  have ou : (s.begin_ ins).OnlyIssue u := by
    refine ⟨hr, ho, by rw [hc]; rfl, fun i _ => ?_, by rw [hs]⟩
    have := congrArg Core.slots hc
    simp only [State.hereCore, cu] at this
    rw [State.slot, this]
    rfl
  obtain ⟨st, bh⟩ := State.begin_here s ins
  obtain ⟨x1, x2, x3, x4, fh⟩ := State.finish_here u
  refine ⟨(State.begin_only s ins).trans (ou.trans (State.finish_only u)), ⟨?_, ?_, ?_⟩, ?_⟩
  · rw [State.finish_issued, hc, State.begin_issued]
  · rw [fh, hs, bh]
  · rw [fh, hs, bh]
    exact w
  · rw [State.finish_pend, hc, State.begin_pend]
    simp [State.scalarResult, State.begin_turn]

end Sys2Proof.Machine
end

