-- ==== Sys2Proof/Laws/PerInstr.lean ====
section
/-!
SUPPORT. Facts about every instruction as syntax, one lemma for each constructor.
-/

/-- How many words an instruction is written in (R46): one, three or five, and none for a word that is no instruction. -/
def Sys2Proof.Laws.WordsWritten.Statement (i : Sys2Proof.Instr) : Prop :=
  (Sys2Proof.encode i).length ∈ (if i.layout.isSome then [1, 3, 5] else [0])

open Sys2Proof Sys2Proof.Laws

theorem Sys2Proof.Laws.WordsWritten.add (f : RF) : WordsWritten.Statement (.add f) := List.Mem.head _
theorem Sys2Proof.Laws.WordsWritten.sub (f : RF) : WordsWritten.Statement (.sub f) := List.Mem.head _
theorem Sys2Proof.Laws.WordsWritten.mul (f : RF) : WordsWritten.Statement (.mul f) := List.Mem.head _
theorem Sys2Proof.Laws.WordsWritten.mulh (f : RF) : WordsWritten.Statement (.mulh f) := List.Mem.head _
theorem Sys2Proof.Laws.WordsWritten.mulhu (f : RF) : WordsWritten.Statement (.mulhu f) := List.Mem.head _
theorem Sys2Proof.Laws.WordsWritten.div (f : RF) : WordsWritten.Statement (.div f) := List.Mem.head _
theorem Sys2Proof.Laws.WordsWritten.divu (f : RF) : WordsWritten.Statement (.divu f) := List.Mem.head _
theorem Sys2Proof.Laws.WordsWritten.rem (f : RF) : WordsWritten.Statement (.rem f) := List.Mem.head _
theorem Sys2Proof.Laws.WordsWritten.remu (f : RF) : WordsWritten.Statement (.remu f) := List.Mem.head _
theorem Sys2Proof.Laws.WordsWritten.and (f : RF) : WordsWritten.Statement (.and f) := List.Mem.head _
theorem Sys2Proof.Laws.WordsWritten.or (f : RF) : WordsWritten.Statement (.or f) := List.Mem.head _
theorem Sys2Proof.Laws.WordsWritten.xor (f : RF) : WordsWritten.Statement (.xor f) := List.Mem.head _
theorem Sys2Proof.Laws.WordsWritten.andn (f : RF) : WordsWritten.Statement (.andn f) := List.Mem.head _
theorem Sys2Proof.Laws.WordsWritten.shl (f : RF) : WordsWritten.Statement (.shl f) := List.Mem.head _
theorem Sys2Proof.Laws.WordsWritten.shr (f : RF) : WordsWritten.Statement (.shr f) := List.Mem.head _
theorem Sys2Proof.Laws.WordsWritten.sra (f : RF) : WordsWritten.Statement (.sra f) := List.Mem.head _
theorem Sys2Proof.Laws.WordsWritten.rotr (f : RF) : WordsWritten.Statement (.rotr f) := List.Mem.head _
theorem Sys2Proof.Laws.WordsWritten.slt (f : RF) : WordsWritten.Statement (.slt f) := List.Mem.head _
theorem Sys2Proof.Laws.WordsWritten.sltu (f : RF) : WordsWritten.Statement (.sltu f) := List.Mem.head _
theorem Sys2Proof.Laws.WordsWritten.min (f : RF) : WordsWritten.Statement (.min f) := List.Mem.head _
theorem Sys2Proof.Laws.WordsWritten.max (f : RF) : WordsWritten.Statement (.max f) := List.Mem.head _
theorem Sys2Proof.Laws.WordsWritten.minu (f : RF) : WordsWritten.Statement (.minu f) := List.Mem.head _
theorem Sys2Proof.Laws.WordsWritten.maxu (f : RF) : WordsWritten.Statement (.maxu f) := List.Mem.head _
theorem Sys2Proof.Laws.WordsWritten.sel (f : RF) : WordsWritten.Statement (.sel f) := List.Mem.head _
theorem Sys2Proof.Laws.WordsWritten.clz (f : RF) : WordsWritten.Statement (.clz f) := List.Mem.head _
theorem Sys2Proof.Laws.WordsWritten.ctz (f : RF) : WordsWritten.Statement (.ctz f) := List.Mem.head _
theorem Sys2Proof.Laws.WordsWritten.popc (f : RF) : WordsWritten.Statement (.popc f) := List.Mem.head _
theorem Sys2Proof.Laws.WordsWritten.bfx (f : RF) : WordsWritten.Statement (.bfx f) := List.Mem.head _
theorem Sys2Proof.Laws.WordsWritten.bfxu (f : RF) : WordsWritten.Statement (.bfxu f) := List.Mem.head _
theorem Sys2Proof.Laws.WordsWritten.bfi (f : RF) : WordsWritten.Statement (.bfi f) := List.Mem.head _
theorem Sys2Proof.Laws.WordsWritten.addi (f : IF) : WordsWritten.Statement (.addi f) := List.Mem.head _
theorem Sys2Proof.Laws.WordsWritten.addiLit (f : IL) : WordsWritten.Statement (.addiLit f) := List.Mem.tail _ (List.Mem.head _)
theorem Sys2Proof.Laws.WordsWritten.andi (f : IF) : WordsWritten.Statement (.andi f) := List.Mem.head _
theorem Sys2Proof.Laws.WordsWritten.andiLit (f : IL) : WordsWritten.Statement (.andiLit f) := List.Mem.tail _ (List.Mem.head _)
theorem Sys2Proof.Laws.WordsWritten.ori (f : IF) : WordsWritten.Statement (.ori f) := List.Mem.head _
theorem Sys2Proof.Laws.WordsWritten.oriLit (f : IL) : WordsWritten.Statement (.oriLit f) := List.Mem.tail _ (List.Mem.head _)
theorem Sys2Proof.Laws.WordsWritten.xori (f : IF) : WordsWritten.Statement (.xori f) := List.Mem.head _
theorem Sys2Proof.Laws.WordsWritten.xoriLit (f : IL) : WordsWritten.Statement (.xoriLit f) := List.Mem.tail _ (List.Mem.head _)
theorem Sys2Proof.Laws.WordsWritten.shli (f : IF) : WordsWritten.Statement (.shli f) := List.Mem.head _
theorem Sys2Proof.Laws.WordsWritten.shliLit (f : IL) : WordsWritten.Statement (.shliLit f) := List.Mem.tail _ (List.Mem.head _)
theorem Sys2Proof.Laws.WordsWritten.shri (f : IF) : WordsWritten.Statement (.shri f) := List.Mem.head _
theorem Sys2Proof.Laws.WordsWritten.shriLit (f : IL) : WordsWritten.Statement (.shriLit f) := List.Mem.tail _ (List.Mem.head _)
theorem Sys2Proof.Laws.WordsWritten.srai (f : IF) : WordsWritten.Statement (.srai f) := List.Mem.head _
theorem Sys2Proof.Laws.WordsWritten.sraiLit (f : IL) : WordsWritten.Statement (.sraiLit f) := List.Mem.tail _ (List.Mem.head _)
theorem Sys2Proof.Laws.WordsWritten.slti (f : IF) : WordsWritten.Statement (.slti f) := List.Mem.head _
theorem Sys2Proof.Laws.WordsWritten.sltiLit (f : IL) : WordsWritten.Statement (.sltiLit f) := List.Mem.tail _ (List.Mem.head _)
theorem Sys2Proof.Laws.WordsWritten.sltiu (f : IF) : WordsWritten.Statement (.sltiu f) := List.Mem.head _
theorem Sys2Proof.Laws.WordsWritten.sltiuLit (f : IL) : WordsWritten.Statement (.sltiuLit f) := List.Mem.tail _ (List.Mem.head _)
theorem Sys2Proof.Laws.WordsWritten.movi (f : IF) : WordsWritten.Statement (.movi f) := List.Mem.head _
theorem Sys2Proof.Laws.WordsWritten.moviLit (f : IL) : WordsWritten.Statement (.moviLit f) := List.Mem.tail _ (List.Mem.head _)
theorem Sys2Proof.Laws.WordsWritten.fadd (f : RF) : WordsWritten.Statement (.fadd f) := List.Mem.head _
theorem Sys2Proof.Laws.WordsWritten.fsub (f : RF) : WordsWritten.Statement (.fsub f) := List.Mem.head _
theorem Sys2Proof.Laws.WordsWritten.fmul (f : RF) : WordsWritten.Statement (.fmul f) := List.Mem.head _
theorem Sys2Proof.Laws.WordsWritten.ffma (f : RF) : WordsWritten.Statement (.ffma f) := List.Mem.head _
theorem Sys2Proof.Laws.WordsWritten.fmin (f : RF) : WordsWritten.Statement (.fmin f) := List.Mem.head _
theorem Sys2Proof.Laws.WordsWritten.fmax (f : RF) : WordsWritten.Statement (.fmax f) := List.Mem.head _
theorem Sys2Proof.Laws.WordsWritten.fabs (f : RF) : WordsWritten.Statement (.fabs f) := List.Mem.head _
theorem Sys2Proof.Laws.WordsWritten.fneg (f : RF) : WordsWritten.Statement (.fneg f) := List.Mem.head _
theorem Sys2Proof.Laws.WordsWritten.fcmpeq (f : RF) : WordsWritten.Statement (.fcmpeq f) := List.Mem.head _
theorem Sys2Proof.Laws.WordsWritten.fcmplt (f : RF) : WordsWritten.Statement (.fcmplt f) := List.Mem.head _
theorem Sys2Proof.Laws.WordsWritten.fcmple (f : RF) : WordsWritten.Statement (.fcmple f) := List.Mem.head _
theorem Sys2Proof.Laws.WordsWritten.fcvtif (f : RF) : WordsWritten.Statement (.fcvtif f) := List.Mem.head _
theorem Sys2Proof.Laws.WordsWritten.fcvtfi (f : RF) : WordsWritten.Statement (.fcvtfi f) := List.Mem.head _
theorem Sys2Proof.Laws.WordsWritten.fclass (f : RF) : WordsWritten.Statement (.fclass f) := List.Mem.head _
theorem Sys2Proof.Laws.WordsWritten.br (f : BF) : WordsWritten.Statement (.br f) := List.Mem.head _
theorem Sys2Proof.Laws.WordsWritten.brLong (f : BL) : WordsWritten.Statement (.brLong f) := List.Mem.tail _ (List.Mem.head _)
theorem Sys2Proof.Laws.WordsWritten.jmp (f : JF) : WordsWritten.Statement (.jmp f) := List.Mem.head _
theorem Sys2Proof.Laws.WordsWritten.jmpLit (f : JL) : WordsWritten.Statement (.jmpLit f) := List.Mem.tail _ (List.Mem.head _)
theorem Sys2Proof.Laws.WordsWritten.call (f : JF) : WordsWritten.Statement (.call f) := List.Mem.head _
theorem Sys2Proof.Laws.WordsWritten.callLit (f : JL) : WordsWritten.Statement (.callLit f) := List.Mem.tail _ (List.Mem.head _)
theorem Sys2Proof.Laws.WordsWritten.jr (f : RF) : WordsWritten.Statement (.jr f) := List.Mem.head _
theorem Sys2Proof.Laws.WordsWritten.callr (f : RF) : WordsWritten.Statement (.callr f) := List.Mem.head _
theorem Sys2Proof.Laws.WordsWritten.nop (f : RF) : WordsWritten.Statement (.nop f) := List.Mem.head _
theorem Sys2Proof.Laws.WordsWritten.safept (f : RF) : WordsWritten.Statement (.safept f) := List.Mem.head _
theorem Sys2Proof.Laws.WordsWritten.trap (f : RF) : WordsWritten.Statement (.trap f) := List.Mem.head _
theorem Sys2Proof.Laws.WordsWritten.tret (f : RF) : WordsWritten.Statement (.tret f) := List.Mem.head _
theorem Sys2Proof.Laws.WordsWritten.bkpt (f : RF) : WordsWritten.Statement (.bkpt f) := List.Mem.head _
theorem Sys2Proof.Laws.WordsWritten.mfs (f : RF) : WordsWritten.Statement (.mfs f) := List.Mem.head _
theorem Sys2Proof.Laws.WordsWritten.mts (f : RF) : WordsWritten.Statement (.mts f) := List.Mem.head _
theorem Sys2Proof.Laws.WordsWritten.rdtime (f : RF) : WordsWritten.Statement (.rdtime f) := List.Mem.head _
theorem Sys2Proof.Laws.WordsWritten.getid (f : RF) : WordsWritten.Statement (.getid f) := List.Mem.head _
theorem Sys2Proof.Laws.WordsWritten.ld (f : MF) : WordsWritten.Statement (.ld f) := List.Mem.head _
theorem Sys2Proof.Laws.WordsWritten.ldLit (f : ML) : WordsWritten.Statement (.ldLit f) := List.Mem.tail _ (List.Mem.head _)
theorem Sys2Proof.Laws.WordsWritten.st (f : MF) : WordsWritten.Statement (.st f) := List.Mem.head _
theorem Sys2Proof.Laws.WordsWritten.stLit (f : ML) : WordsWritten.Statement (.stLit f) := List.Mem.tail _ (List.Mem.head _)
theorem Sys2Proof.Laws.WordsWritten.ldAcq (f : MF) : WordsWritten.Statement (.ldAcq f) := List.Mem.head _
theorem Sys2Proof.Laws.WordsWritten.ldAcqLit (f : ML) : WordsWritten.Statement (.ldAcqLit f) := List.Mem.tail _ (List.Mem.head _)
theorem Sys2Proof.Laws.WordsWritten.stRel (f : MF) : WordsWritten.Statement (.stRel f) := List.Mem.head _
theorem Sys2Proof.Laws.WordsWritten.stRelLit (f : ML) : WordsWritten.Statement (.stRelLit f) := List.Mem.tail _ (List.Mem.head _)
theorem Sys2Proof.Laws.WordsWritten.pfetch (f : RF) : WordsWritten.Statement (.pfetch f) := List.Mem.head _
theorem Sys2Proof.Laws.WordsWritten.l1inv (f : RF) : WordsWritten.Statement (.l1inv f) := List.Mem.head _
theorem Sys2Proof.Laws.WordsWritten.waitv (f : RF) : WordsWritten.Statement (.waitv f) := List.Mem.head _
theorem Sys2Proof.Laws.WordsWritten.amoadd (f : AF) : WordsWritten.Statement (.amoadd f) := List.Mem.head _
theorem Sys2Proof.Laws.WordsWritten.amoand (f : AF) : WordsWritten.Statement (.amoand f) := List.Mem.head _
theorem Sys2Proof.Laws.WordsWritten.amoor (f : AF) : WordsWritten.Statement (.amoor f) := List.Mem.head _
theorem Sys2Proof.Laws.WordsWritten.amoxor (f : AF) : WordsWritten.Statement (.amoxor f) := List.Mem.head _
theorem Sys2Proof.Laws.WordsWritten.amomin (f : AF) : WordsWritten.Statement (.amomin f) := List.Mem.head _
theorem Sys2Proof.Laws.WordsWritten.amomax (f : AF) : WordsWritten.Statement (.amomax f) := List.Mem.head _
theorem Sys2Proof.Laws.WordsWritten.amominu (f : AF) : WordsWritten.Statement (.amominu f) := List.Mem.head _
theorem Sys2Proof.Laws.WordsWritten.amomaxu (f : AF) : WordsWritten.Statement (.amomaxu f) := List.Mem.head _
theorem Sys2Proof.Laws.WordsWritten.amoswap (f : AF) : WordsWritten.Statement (.amoswap f) := List.Mem.head _
theorem Sys2Proof.Laws.WordsWritten.amocas (f : AF) : WordsWritten.Statement (.amocas f) := List.Mem.head _
theorem Sys2Proof.Laws.WordsWritten.amofadd (f : AF) : WordsWritten.Statement (.amofadd f) := List.Mem.head _
theorem Sys2Proof.Laws.WordsWritten.amoamax (f : AF) : WordsWritten.Statement (.amoamax f) := List.Mem.head _
theorem Sys2Proof.Laws.WordsWritten.fenceC (f : RF) : WordsWritten.Statement (.fenceC f) := List.Mem.head _
theorem Sys2Proof.Laws.WordsWritten.fenceK (f : RF) : WordsWritten.Statement (.fenceK f) := List.Mem.head _
theorem Sys2Proof.Laws.WordsWritten.fenceP (f : RF) : WordsWritten.Statement (.fenceP f) := List.Mem.head _
theorem Sys2Proof.Laws.WordsWritten.fenceS (f : RF) : WordsWritten.Statement (.fenceS f) := List.Mem.head _
theorem Sys2Proof.Laws.WordsWritten.vadd (f : XF) : WordsWritten.Statement (.vadd f) := List.Mem.tail _ (List.Mem.head _)
theorem Sys2Proof.Laws.WordsWritten.vsub (f : XF) : WordsWritten.Statement (.vsub f) := List.Mem.tail _ (List.Mem.head _)
theorem Sys2Proof.Laws.WordsWritten.vmul (f : XF) : WordsWritten.Statement (.vmul f) := List.Mem.tail _ (List.Mem.head _)
theorem Sys2Proof.Laws.WordsWritten.vmulh (f : XF) : WordsWritten.Statement (.vmulh f) := List.Mem.tail _ (List.Mem.head _)
theorem Sys2Proof.Laws.WordsWritten.vmad (f : XF) : WordsWritten.Statement (.vmad f) := List.Mem.tail _ (List.Mem.head _)
theorem Sys2Proof.Laws.WordsWritten.vmacw (f : XF) : WordsWritten.Statement (.vmacw f) := List.Mem.tail _ (List.Mem.head _)
theorem Sys2Proof.Laws.WordsWritten.vdot4 (f : XF) : WordsWritten.Statement (.vdot4 f) := List.Mem.tail _ (List.Mem.head _)
theorem Sys2Proof.Laws.WordsWritten.vmin (f : XF) : WordsWritten.Statement (.vmin f) := List.Mem.tail _ (List.Mem.head _)
theorem Sys2Proof.Laws.WordsWritten.vmax (f : XF) : WordsWritten.Statement (.vmax f) := List.Mem.tail _ (List.Mem.head _)
theorem Sys2Proof.Laws.WordsWritten.vabs (f : XF) : WordsWritten.Statement (.vabs f) := List.Mem.tail _ (List.Mem.head _)
theorem Sys2Proof.Laws.WordsWritten.vand (f : XF) : WordsWritten.Statement (.vand f) := List.Mem.tail _ (List.Mem.head _)
theorem Sys2Proof.Laws.WordsWritten.vor (f : XF) : WordsWritten.Statement (.vor f) := List.Mem.tail _ (List.Mem.head _)
theorem Sys2Proof.Laws.WordsWritten.vxor (f : XF) : WordsWritten.Statement (.vxor f) := List.Mem.tail _ (List.Mem.head _)
theorem Sys2Proof.Laws.WordsWritten.vshli (f : XF) : WordsWritten.Statement (.vshli f) := List.Mem.tail _ (List.Mem.head _)
theorem Sys2Proof.Laws.WordsWritten.vshri (f : XF) : WordsWritten.Statement (.vshri f) := List.Mem.tail _ (List.Mem.head _)
theorem Sys2Proof.Laws.WordsWritten.vsrai (f : XF) : WordsWritten.Statement (.vsrai f) := List.Mem.tail _ (List.Mem.head _)
theorem Sys2Proof.Laws.WordsWritten.vrshr (f : XF) : WordsWritten.Statement (.vrshr f) := List.Mem.tail _ (List.Mem.head _)
theorem Sys2Proof.Laws.WordsWritten.vfadd (f : XF) : WordsWritten.Statement (.vfadd f) := List.Mem.tail _ (List.Mem.head _)
theorem Sys2Proof.Laws.WordsWritten.vfsub (f : XF) : WordsWritten.Statement (.vfsub f) := List.Mem.tail _ (List.Mem.head _)
theorem Sys2Proof.Laws.WordsWritten.vfmul (f : XF) : WordsWritten.Statement (.vfmul f) := List.Mem.tail _ (List.Mem.head _)
theorem Sys2Proof.Laws.WordsWritten.vffma (f : XF) : WordsWritten.Statement (.vffma f) := List.Mem.tail _ (List.Mem.head _)
theorem Sys2Proof.Laws.WordsWritten.vfmin (f : XF) : WordsWritten.Statement (.vfmin f) := List.Mem.tail _ (List.Mem.head _)
theorem Sys2Proof.Laws.WordsWritten.vfmax (f : XF) : WordsWritten.Statement (.vfmax f) := List.Mem.tail _ (List.Mem.head _)
theorem Sys2Proof.Laws.WordsWritten.vld (f : XF) : WordsWritten.Statement (.vld f) := List.Mem.tail _ (List.Mem.head _)
theorem Sys2Proof.Laws.WordsWritten.vst (f : XF) : WordsWritten.Statement (.vst f) := List.Mem.tail _ (List.Mem.head _)
theorem Sys2Proof.Laws.WordsWritten.vsplat (f : XF) : WordsWritten.Statement (.vsplat f) := List.Mem.tail _ (List.Mem.head _)
theorem Sys2Proof.Laws.WordsWritten.vsplatLit (f : XL) : WordsWritten.Statement (.vsplatLit f) := List.Mem.tail _ (List.Mem.tail _ (List.Mem.head _))
theorem Sys2Proof.Laws.WordsWritten.vperm (f : XF) : WordsWritten.Statement (.vperm f) := List.Mem.tail _ (List.Mem.head _)
theorem Sys2Proof.Laws.WordsWritten.vpermLit (f : XL) : WordsWritten.Statement (.vpermLit f) := List.Mem.tail _ (List.Mem.tail _ (List.Mem.head _))
theorem Sys2Proof.Laws.WordsWritten.vslide (f : XF) : WordsWritten.Statement (.vslide f) := List.Mem.tail _ (List.Mem.head _)
theorem Sys2Proof.Laws.WordsWritten.vred (f : XF) : WordsWritten.Statement (.vred f) := List.Mem.tail _ (List.Mem.head _)
theorem Sys2Proof.Laws.WordsWritten.vsel (f : XF) : WordsWritten.Statement (.vsel f) := List.Mem.tail _ (List.Mem.head _)
theorem Sys2Proof.Laws.WordsWritten.vcmp (f : XF) : WordsWritten.Statement (.vcmp f) := List.Mem.tail _ (List.Mem.head _)
theorem Sys2Proof.Laws.WordsWritten.kand (f : XF) : WordsWritten.Statement (.kand f) := List.Mem.tail _ (List.Mem.head _)
theorem Sys2Proof.Laws.WordsWritten.kor (f : XF) : WordsWritten.Statement (.kor f) := List.Mem.tail _ (List.Mem.head _)
theorem Sys2Proof.Laws.WordsWritten.knot (f : XF) : WordsWritten.Statement (.knot f) := List.Mem.tail _ (List.Mem.head _)
theorem Sys2Proof.Laws.WordsWritten.kmov (f : XF) : WordsWritten.Statement (.kmov f) := List.Mem.tail _ (List.Mem.head _)
theorem Sys2Proof.Laws.WordsWritten.kmovImm (f : XF) : WordsWritten.Statement (.kmovImm f) := List.Mem.tail _ (List.Mem.head _)
theorem Sys2Proof.Laws.WordsWritten.vfcvt (f : XF) : WordsWritten.Statement (.vfcvt f) := List.Mem.tail _ (List.Mem.head _)
theorem Sys2Proof.Laws.WordsWritten.vnarrow (f : XF) : WordsWritten.Statement (.vnarrow f) := List.Mem.tail _ (List.Mem.head _)
theorem Sys2Proof.Laws.WordsWritten.vwiden (f : XF) : WordsWritten.Statement (.vwiden f) := List.Mem.tail _ (List.Mem.head _)
theorem Sys2Proof.Laws.WordsWritten.srcp (f : XF) : WordsWritten.Statement (.srcp f) := List.Mem.tail _ (List.Mem.head _)
theorem Sys2Proof.Laws.WordsWritten.srsq (f : XF) : WordsWritten.Statement (.srsq f) := List.Mem.tail _ (List.Mem.head _)
theorem Sys2Proof.Laws.WordsWritten.sexp2 (f : XF) : WordsWritten.Statement (.sexp2 f) := List.Mem.tail _ (List.Mem.head _)
theorem Sys2Proof.Laws.WordsWritten.slog2 (f : XF) : WordsWritten.Statement (.slog2 f) := List.Mem.tail _ (List.Mem.head _)
theorem Sys2Proof.Laws.WordsWritten.ssin (f : XF) : WordsWritten.Statement (.ssin f) := List.Mem.tail _ (List.Mem.head _)
theorem Sys2Proof.Laws.WordsWritten.scos (f : XF) : WordsWritten.Statement (.scos f) := List.Mem.tail _ (List.Mem.head _)
theorem Sys2Proof.Laws.WordsWritten.stanh (f : XF) : WordsWritten.Statement (.stanh f) := List.Mem.tail _ (List.Mem.head _)
theorem Sys2Proof.Laws.WordsWritten.ssigm (f : XF) : WordsWritten.Statement (.ssigm f) := List.Mem.tail _ (List.Mem.head _)
theorem Sys2Proof.Laws.WordsWritten.stbind (f : XF) : WordsWritten.Statement (.stbind f) := List.Mem.tail _ (List.Mem.head _)
theorem Sys2Proof.Laws.WordsWritten.stend (f : XF) : WordsWritten.Statement (.stend f) := List.Mem.tail _ (List.Mem.head _)
theorem Sys2Proof.Laws.WordsWritten.chbind (f : XF) : WordsWritten.Statement (.chbind f) := List.Mem.tail _ (List.Mem.head _)
theorem Sys2Proof.Laws.WordsWritten.chend (f : XF) : WordsWritten.Statement (.chend f) := List.Mem.tail _ (List.Mem.head _)
theorem Sys2Proof.Laws.WordsWritten.mxldw (f : XF) : WordsWritten.Statement (.mxldw f) := List.Mem.tail _ (List.Mem.head _)
theorem Sys2Proof.Laws.WordsWritten.mxswap (f : XF) : WordsWritten.Statement (.mxswap f) := List.Mem.tail _ (List.Mem.head _)
theorem Sys2Proof.Laws.WordsWritten.mxq (f : XF) : WordsWritten.Statement (.mxq f) := List.Mem.tail _ (List.Mem.head _)
theorem Sys2Proof.Laws.WordsWritten.mxwaitv (f : XF) : WordsWritten.Statement (.mxwaitv f) := List.Mem.tail _ (List.Mem.head _)
theorem Sys2Proof.Laws.WordsWritten.mxwaitvReg (f : XF) : WordsWritten.Statement (.mxwaitvReg f) := List.Mem.tail _ (List.Mem.head _)
theorem Sys2Proof.Laws.WordsWritten.mxdrain (f : XF) : WordsWritten.Statement (.mxdrain f) := List.Mem.tail _ (List.Mem.head _)
theorem Sys2Proof.Laws.WordsWritten.mxdrainCe (f : XF) : WordsWritten.Statement (.mxdrainCe f) := List.Mem.tail _ (List.Mem.head _)
theorem Sys2Proof.Laws.WordsWritten.mxzero (f : XF) : WordsWritten.Statement (.mxzero f) := List.Mem.tail _ (List.Mem.head _)
theorem Sys2Proof.Laws.WordsWritten.mxzeroLd (f : XF) : WordsWritten.Statement (.mxzeroLd f) := List.Mem.tail _ (List.Mem.head _)
theorem Sys2Proof.Laws.WordsWritten.mxcb (f : XF) : WordsWritten.Statement (.mxcb f) := List.Mem.tail _ (List.Mem.head _)
theorem Sys2Proof.Laws.WordsWritten.scacc (f : XF) : WordsWritten.Statement (.scacc f) := List.Mem.tail _ (List.Mem.head _)
theorem Sys2Proof.Laws.WordsWritten.mxstat (f : XF) : WordsWritten.Statement (.mxstat f) := List.Mem.tail _ (List.Mem.head _)
theorem Sys2Proof.Laws.WordsWritten.normref (f : XF) : WordsWritten.Statement (.normref f) := List.Mem.tail _ (List.Mem.head _)
theorem Sys2Proof.Laws.WordsWritten.normrd (f : XF) : WordsWritten.Statement (.normrd f) := List.Mem.tail _ (List.Mem.head _)
theorem Sys2Proof.Laws.WordsWritten.send (f : XF) : WordsWritten.Statement (.send f) := List.Mem.tail _ (List.Mem.head _)
theorem Sys2Proof.Laws.WordsWritten.mbwait (f : XF) : WordsWritten.Statement (.mbwait f) := List.Mem.tail _ (List.Mem.head _)
theorem Sys2Proof.Laws.WordsWritten.mbread (f : XF) : WordsWritten.Statement (.mbread f) := List.Mem.tail _ (List.Mem.head _)
theorem Sys2Proof.Laws.WordsWritten.mbset (f : XF) : WordsWritten.Statement (.mbset f) := List.Mem.tail _ (List.Mem.head _)
theorem Sys2Proof.Laws.WordsWritten.hclaim (f : XF) : WordsWritten.Statement (.hclaim f) := List.Mem.tail _ (List.Mem.head _)
theorem Sys2Proof.Laws.WordsWritten.hwait (f : XF) : WordsWritten.Statement (.hwait f) := List.Mem.tail _ (List.Mem.head _)
theorem Sys2Proof.Laws.WordsWritten.hfree (f : XF) : WordsWritten.Statement (.hfree f) := List.Mem.tail _ (List.Mem.head _)
theorem Sys2Proof.Laws.WordsWritten.hstat (f : XF) : WordsWritten.Statement (.hstat f) := List.Mem.tail _ (List.Mem.head _)
theorem Sys2Proof.Laws.WordsWritten.gather (f : XF) : WordsWritten.Statement (.gather f) := List.Mem.tail _ (List.Mem.head _)
theorem Sys2Proof.Laws.WordsWritten.nzscan (f : XF) : WordsWritten.Statement (.nzscan f) := List.Mem.tail _ (List.Mem.head _)
theorem Sys2Proof.Laws.WordsWritten.rscat (f : XF) : WordsWritten.Statement (.rscat f) := List.Mem.tail _ (List.Mem.head _)
theorem Sys2Proof.Laws.WordsWritten.vdec (f : XF) : WordsWritten.Statement (.vdec f) := List.Mem.tail _ (List.Mem.head _)
theorem Sys2Proof.Laws.WordsWritten.gmadd (f : XF) : WordsWritten.Statement (.gmadd f) := List.Mem.tail _ (List.Mem.head _)
theorem Sys2Proof.Laws.WordsWritten.gmaddJ (f : XF) : WordsWritten.Statement (.gmaddJ f) := List.Mem.tail _ (List.Mem.head _)
theorem Sys2Proof.Laws.WordsWritten.gmsub (f : XF) : WordsWritten.Statement (.gmsub f) := List.Mem.tail _ (List.Mem.head _)
theorem Sys2Proof.Laws.WordsWritten.gmsubJ (f : XF) : WordsWritten.Statement (.gmsubJ f) := List.Mem.tail _ (List.Mem.head _)
theorem Sys2Proof.Laws.WordsWritten.gmschur (f : XF) : WordsWritten.Statement (.gmschur f) := List.Mem.tail _ (List.Mem.head _)
theorem Sys2Proof.Laws.WordsWritten.gmdamp (f : XF) : WordsWritten.Statement (.gmdamp f) := List.Mem.tail _ (List.Mem.head _)
theorem Sys2Proof.Laws.WordsWritten.gmsend (f : XF) : WordsWritten.Statement (.gmsend f) := List.Mem.tail _ (List.Mem.head _)
theorem Sys2Proof.Laws.WordsWritten.gmpoll (f : XF) : WordsWritten.Statement (.gmpoll f) := List.Mem.tail _ (List.Mem.head _)
theorem Sys2Proof.Laws.WordsWritten.gmmean (f : XF) : WordsWritten.Statement (.gmmean f) := List.Mem.tail _ (List.Mem.head _)
theorem Sys2Proof.Laws.WordsWritten.start (f : XF) : WordsWritten.Statement (.start f) := List.Mem.tail _ (List.Mem.head _)
theorem Sys2Proof.Laws.WordsWritten.startR (f : XF) : WordsWritten.Statement (.startR f) := List.Mem.tail _ (List.Mem.head _)
theorem Sys2Proof.Laws.WordsWritten.reap (f : XF) : WordsWritten.Statement (.reap f) := List.Mem.tail _ (List.Mem.head _)
theorem Sys2Proof.Laws.WordsWritten.exit (f : XF) : WordsWritten.Statement (.exit f) := List.Mem.tail _ (List.Mem.head _)
theorem Sys2Proof.Laws.WordsWritten.resole (f : XF) : WordsWritten.Statement (.resole f) := List.Mem.tail _ (List.Mem.head _)
theorem Sys2Proof.Laws.WordsWritten.launch (f : XF) : WordsWritten.Statement (.launch f) := List.Mem.tail _ (List.Mem.head _)
theorem Sys2Proof.Laws.WordsWritten.migrate (f : XF) : WordsWritten.Statement (.migrate f) := List.Mem.tail _ (List.Mem.head _)
theorem Sys2Proof.Laws.WordsWritten.yield (f : XF) : WordsWritten.Statement (.yield f) := List.Mem.tail _ (List.Mem.head _)
theorem Sys2Proof.Laws.WordsWritten.rdvinit (f : XF) : WordsWritten.Statement (.rdvinit f) := List.Mem.tail _ (List.Mem.head _)
theorem Sys2Proof.Laws.WordsWritten.arrive (f : XF) : WordsWritten.Statement (.arrive f) := List.Mem.tail _ (List.Mem.head _)
theorem Sys2Proof.Laws.WordsWritten.rdvwait (f : XF) : WordsWritten.Statement (.rdvwait f) := List.Mem.tail _ (List.Mem.head _)
theorem Sys2Proof.Laws.WordsWritten.rdvwaitPhase (f : XF) : WordsWritten.Statement (.rdvwaitPhase f) := List.Mem.tail _ (List.Mem.head _)
theorem Sys2Proof.Laws.WordsWritten.fixedLatencyWrite : WordsWritten.Statement .fixedLatencyWrite := List.Mem.head _
theorem Sys2Proof.Laws.WordsWritten.interlockedResult : WordsWritten.Statement .interlockedResult := List.Mem.head _
theorem Sys2Proof.Laws.WordsWritten.stallDistanceEnd : WordsWritten.Statement .stallDistanceEnd := List.Mem.head _
theorem Sys2Proof.Laws.WordsWritten.yieldEnd : WordsWritten.Statement .yieldEnd := List.Mem.head _
theorem Sys2Proof.Laws.WordsWritten.homeAccess : WordsWritten.Statement .homeAccess := List.Mem.head _
theorem Sys2Proof.Laws.WordsWritten.storeAck : WordsWritten.Statement .storeAck := List.Mem.head _
theorem Sys2Proof.Laws.WordsWritten.l1Fill : WordsWritten.Statement .l1Fill := List.Mem.head _
theorem Sys2Proof.Laws.WordsWritten.waitvPoll : WordsWritten.Statement .waitvPoll := List.Mem.head _
theorem Sys2Proof.Laws.WordsWritten.streamPrefetch : WordsWritten.Statement .streamPrefetch := List.Mem.head _
theorem Sys2Proof.Laws.WordsWritten.channelWordDelivery : WordsWritten.Statement .channelWordDelivery := List.Mem.head _
theorem Sys2Proof.Laws.WordsWritten.channelCreditReturn : WordsWritten.Statement .channelCreditReturn := List.Mem.head _
theorem Sys2Proof.Laws.WordsWritten.engineQueueAccept : WordsWritten.Statement .engineQueueAccept := List.Mem.head _
theorem Sys2Proof.Laws.WordsWritten.taskStart : WordsWritten.Statement .taskStart := List.Mem.head _
theorem Sys2Proof.Laws.WordsWritten.swapStart : WordsWritten.Statement .swapStart := List.Mem.head _
theorem Sys2Proof.Laws.WordsWritten.codebookLoadStart : WordsWritten.Statement .codebookLoadStart := List.Mem.head _
theorem Sys2Proof.Laws.WordsWritten.drainStart : WordsWritten.Statement .drainStart := List.Mem.head _
theorem Sys2Proof.Laws.WordsWritten.zeroStart : WordsWritten.Statement .zeroStart := List.Mem.head _
theorem Sys2Proof.Laws.WordsWritten.fillStart : WordsWritten.Statement .fillStart := List.Mem.head _
theorem Sys2Proof.Laws.WordsWritten.scaleStart : WordsWritten.Statement .scaleStart := List.Mem.head _
theorem Sys2Proof.Laws.WordsWritten.entryCompletion : WordsWritten.Statement .entryCompletion := List.Mem.head _
theorem Sys2Proof.Laws.WordsWritten.sfuServiceStart : WordsWritten.Statement .sfuServiceStart := List.Mem.head _
theorem Sys2Proof.Laws.WordsWritten.sfuCompletion : WordsWritten.Statement .sfuCompletion := List.Mem.head _
theorem Sys2Proof.Laws.WordsWritten.transferAccept : WordsWritten.Statement .transferAccept := List.Mem.head _
theorem Sys2Proof.Laws.WordsWritten.lockMessageArrival : WordsWritten.Statement .lockMessageArrival := List.Mem.head _
theorem Sys2Proof.Laws.WordsWritten.gateRequest : WordsWritten.Statement .gateRequest := List.Mem.head _
theorem Sys2Proof.Laws.WordsWritten.tokenGrant : WordsWritten.Statement .tokenGrant := List.Mem.head _
theorem Sys2Proof.Laws.WordsWritten.tokenArrival : WordsWritten.Statement .tokenArrival := List.Mem.head _
theorem Sys2Proof.Laws.WordsWritten.tokenExpiry : WordsWritten.Statement .tokenExpiry := List.Mem.head _
theorem Sys2Proof.Laws.WordsWritten.packetLanding : WordsWritten.Statement .packetLanding := List.Mem.head _
theorem Sys2Proof.Laws.WordsWritten.notifyLatchDrain : WordsWritten.Statement .notifyLatchDrain := List.Mem.head _
theorem Sys2Proof.Laws.WordsWritten.lastSourceRead : WordsWritten.Statement .lastSourceRead := List.Mem.head _
theorem Sys2Proof.Laws.WordsWritten.sendDone : WordsWritten.Statement .sendDone := List.Mem.head _
theorem Sys2Proof.Laws.WordsWritten.cxlTransferFailure : WordsWritten.Statement .cxlTransferFailure := List.Mem.head _
theorem Sys2Proof.Laws.WordsWritten.gatherRowFetch : WordsWritten.Statement .gatherRowFetch := List.Mem.head _
theorem Sys2Proof.Laws.WordsWritten.gatherCompletion : WordsWritten.Statement .gatherCompletion := List.Mem.head _
theorem Sys2Proof.Laws.WordsWritten.rscatCompletion : WordsWritten.Statement .rscatCompletion := List.Mem.head _
theorem Sys2Proof.Laws.WordsWritten.vdecCommandStart : WordsWritten.Statement .vdecCommandStart := List.Mem.head _
theorem Sys2Proof.Laws.WordsWritten.frameLanding : WordsWritten.Statement .frameLanding := List.Mem.head _
theorem Sys2Proof.Laws.WordsWritten.decodeBatchEnd : WordsWritten.Statement .decodeBatchEnd := List.Mem.head _
theorem Sys2Proof.Laws.WordsWritten.gmsendLanding : WordsWritten.Statement .gmsendLanding := List.Mem.head _
theorem Sys2Proof.Laws.WordsWritten.rendezvousArrival : WordsWritten.Statement .rendezvousArrival := List.Mem.head _
theorem Sys2Proof.Laws.WordsWritten.arriveResponse : WordsWritten.Statement .arriveResponse := List.Mem.head _
theorem Sys2Proof.Laws.WordsWritten.phaseUpdate : WordsWritten.Statement .phaseUpdate := List.Mem.head _
theorem Sys2Proof.Laws.WordsWritten.rdvinitAtHome : WordsWritten.Statement .rdvinitAtHome := List.Mem.head _
theorem Sys2Proof.Laws.WordsWritten.cloadRefresh : WordsWritten.Statement .cloadRefresh := List.Mem.head _
theorem Sys2Proof.Laws.WordsWritten.migrationSend : WordsWritten.Statement .migrationSend := List.Mem.head _
theorem Sys2Proof.Laws.WordsWritten.migrationReservation : WordsWritten.Statement .migrationReservation := List.Mem.head _
theorem Sys2Proof.Laws.WordsWritten.migrationLanding : WordsWritten.Statement .migrationLanding := List.Mem.head _
theorem Sys2Proof.Laws.WordsWritten.remoteLoadMove : WordsWritten.Statement .remoteLoadMove := List.Mem.head _
theorem Sys2Proof.Laws.WordsWritten.guestLanding : WordsWritten.Statement .guestLanding := List.Mem.head _
theorem Sys2Proof.Laws.WordsWritten.guestReturn : WordsWritten.Statement .guestReturn := List.Mem.head _
theorem Sys2Proof.Laws.WordsWritten.guestHomeLanding : WordsWritten.Statement .guestHomeLanding := List.Mem.head _
theorem Sys2Proof.Laws.WordsWritten.resoleScrub : WordsWritten.Statement .resoleScrub := List.Mem.head _
theorem Sys2Proof.Laws.WordsWritten.resoleSuccessorStart : WordsWritten.Statement .resoleSuccessorStart := List.Mem.head _
theorem Sys2Proof.Laws.WordsWritten.pitchRelease : WordsWritten.Statement .pitchRelease := List.Mem.head _
theorem Sys2Proof.Laws.WordsWritten.releaseScrubDone : WordsWritten.Statement .releaseScrubDone := List.Mem.head _
theorem Sys2Proof.Laws.WordsWritten.placement : WordsWritten.Statement .placement := List.Mem.head _
theorem Sys2Proof.Laws.WordsWritten.saveRoutineStart : WordsWritten.Statement .saveRoutineStart := List.Mem.head _
theorem Sys2Proof.Laws.WordsWritten.preemptHwSave : WordsWritten.Statement .preemptHwSave := List.Mem.head _
theorem Sys2Proof.Laws.WordsWritten.preemptTimeout : WordsWritten.Statement .preemptTimeout := List.Mem.head _
theorem Sys2Proof.Laws.WordsWritten.restoreHwWriteback : WordsWritten.Statement .restoreHwWriteback := List.Mem.head _
theorem Sys2Proof.Laws.WordsWritten.pageWalk : WordsWritten.Statement .pageWalk := List.Mem.head _
theorem Sys2Proof.Laws.WordsWritten.tlbMissRetry : WordsWritten.Statement .tlbMissRetry := List.Mem.head _
theorem Sys2Proof.Laws.WordsWritten.instructionFetchDone : WordsWritten.Statement .instructionFetchDone := List.Mem.head _
theorem Sys2Proof.Laws.WordsWritten.portRcb : WordsWritten.Statement .portRcb := List.Mem.head _
theorem Sys2Proof.Laws.WordsWritten.portLaunch : WordsWritten.Statement .portLaunch := List.Mem.head _
theorem Sys2Proof.Laws.WordsWritten.portPreempt : WordsWritten.Statement .portPreempt := List.Mem.head _
theorem Sys2Proof.Laws.WordsWritten.portKill : WordsWritten.Statement .portKill := List.Mem.head _
theorem Sys2Proof.Laws.WordsWritten.portWriteDone : WordsWritten.Statement .portWriteDone := List.Mem.head _
theorem Sys2Proof.Laws.WordsWritten.artCtrlWrite : WordsWritten.Statement .artCtrlWrite := List.Mem.head _
theorem Sys2Proof.Laws.WordsWritten.invalidatePage : WordsWritten.Statement .invalidatePage := List.Mem.head _
theorem Sys2Proof.Laws.WordsWritten.invalidateRange : WordsWritten.Statement .invalidateRange := List.Mem.head _
theorem Sys2Proof.Laws.WordsWritten.invalidateRegion : WordsWritten.Statement .invalidateRegion := List.Mem.head _
theorem Sys2Proof.Laws.WordsWritten.invalidateAll : WordsWritten.Statement .invalidateAll := List.Mem.head _
theorem Sys2Proof.Laws.WordsWritten.invalidationDone : WordsWritten.Statement .invalidationDone := List.Mem.head _
theorem Sys2Proof.Laws.WordsWritten.multicastCommit : WordsWritten.Statement .multicastCommit := List.Mem.head _
theorem Sys2Proof.Laws.WordsWritten.commitAck : WordsWritten.Statement .commitAck := List.Mem.head _
theorem Sys2Proof.Laws.WordsWritten.resync : WordsWritten.Statement .resync := List.Mem.head _
theorem Sys2Proof.Laws.WordsWritten.resyncDone : WordsWritten.Statement .resyncDone := List.Mem.head _
theorem Sys2Proof.Laws.WordsWritten.attestationQuote : WordsWritten.Statement .attestationQuote := List.Mem.head _
theorem Sys2Proof.Laws.WordsWritten.moduleReset : WordsWritten.Statement .moduleReset := List.Mem.head _
theorem Sys2Proof.Laws.WordsWritten.bootStage : WordsWritten.Statement .bootStage := List.Mem.head _
theorem Sys2Proof.Laws.WordsWritten.governorWindow : WordsWritten.Statement .governorWindow := List.Mem.head _
theorem Sys2Proof.Laws.WordsWritten.patrolScrub : WordsWritten.Statement .patrolScrub := List.Mem.head _
theorem Sys2Proof.Laws.WordsWritten.gtcSync : WordsWritten.Statement .gtcSync := List.Mem.head _
theorem Sys2Proof.Laws.WordsWritten.laneSample : WordsWritten.Statement .laneSample := List.Mem.head _
theorem Sys2Proof.Laws.WordsWritten.flitReceive : WordsWritten.Statement .flitReceive := List.Mem.head _
theorem Sys2Proof.Laws.WordsWritten.e2eTimeout : WordsWritten.Statement .e2eTimeout := List.Mem.head _
theorem Sys2Proof.Laws.WordsWritten.fabricPacketDelivery : WordsWritten.Statement .fabricPacketDelivery := List.Mem.head _
theorem Sys2Proof.Laws.WordsWritten.registerWrite : WordsWritten.Statement .registerWrite := List.Mem.head _
theorem Sys2Proof.Laws.WordsWritten.illegalEncoding (w0 : BitVec 32) : WordsWritten.Statement (.illegalEncoding w0) := List.Mem.head _
theorem Sys2Proof.Laws.WordsWritten.linkRetryTimeout : WordsWritten.Statement .linkRetryTimeout := List.Mem.head _
theorem Sys2Proof.Laws.WordsWritten.cxlLinkDrop : WordsWritten.Statement .cxlLinkDrop := List.Mem.head _
theorem Sys2Proof.Laws.WordsWritten.cxlLinkReturn : WordsWritten.Statement .cxlLinkReturn := List.Mem.head _
end

