-- ==== Sys2Proof/Tests/Slice0.lean ====
section
/-!
SUPPORT. The author's tests.  The words of every instruction, put together by hand from the encoding tables of the manual, decode to
it (R46 to R58); an ill-formed operand for each check of Instr.wf is refused; a few instructions make one step to results worked out
by hand from their rules; and for every obligation with hypotheses a theorem `witness_…` meets all of them together, clause by
clause, at a concrete state and concrete operands.  A witness names its clause by the path of .1 and .2 into the statement, and does
not repeat a fact that an earlier clause of the same theorem states.
-/
set_option maxRecDepth 100000
set_option Elab.async false
set_option linter.unusedVariables false

namespace Sys2Proof.Tests
open Sys2Proof.Machine Sys2Proof.Claims

/-! ### Small states and their parts -/

/-- Bytes placed at an offset; zeros are not listed. -/
def by_ (off : Nat) (l : List Nat) : List Host.Cell := (l.zipIdx.filter (fun p => p.1 % 256 != 0)).map fun p => (off + p.2, BitVec.ofNat 8 p.1)

/-- The state after a step, or the reset state where there is none. -/
def after (o : Host.Outcome State Fault Refusal) : State := match o with | .next t => t | _ => State.reset

/-- A deterministic group of one pitch on core 1: context 0 alone, w1 at bytes 8 on, q0 to q2 at 256 on, RND from the argument. -/
def small (rnd : Nat) : State :=
  let sl : Slot := { live := true, serial := 7, gid := 1, home := 1, region := 0x10000, mode := { det := true }, pc := 0x100000 }
  let q0 := [0x81, 0x7f, 0xff, 1, 0x80, 0, 0, 0x80, 5, 6, 7, 8, 0xfe, 0xff, 0xff, 0x7f]
  let q1 := [0x02, 0x90, 0xf0, 0xbf, 0xcc, 0xdd, 0x10, 0x40, 0x11, 0x22, 0x33, 0x3f, 1, 0, 0, 0x80]
  let q2 := [9, 8, 7, 6, 5, 4, 3, 2, 1, 0, 255, 254, 253, 252, 251, 250]
  let co : Core :=
    { on := true, gid := 1, slots := [(0, sl)]
      sp := by_ 16 [0x00, 0x50] ++ by_ 256 (q0 ++ q1 ++ q2) ++ by_ 512 [0x10, 0x50] ++ by_ 576 [rnd, 0, 0, 0, 0xff] ++ by_ 584 [3]
        ++ by_ 592 [0x14] ++ by_ 618 [0x35, 0x0a] ++ by_ 0x5000 (q0 ++ q1) }
  { State.reset with
      bootStage := 3, curCid := 1, cores := [(1, co)], serial := 8, regions := [(0x10000, { regid := 1 })], mem := [(5, 1)]
      groups := [(1, { gid := 1, region := 0x10000, header := { nsafe := 5 }, mode := { det := true }, pitch := [1], state := .running })] }

/-- The operands of a long instruction by number. -/
def xf (d a b c et k : Nat) (kn : Bool) (ro aux : Nat) : XF :=
  ⟨0, BitVec.ofNat 5 d, BitVec.ofNat 5 a, BitVec.ofNat 5 b, BitVec.ofNat 5 c, BitVec.ofNat 4 et, BitVec.ofNat 3 k, kn, BitVec.ofNat 3 ro, BitVec.ofNat 8 aux, 0⟩

/-! ### Facts over every key of a table, from its listed entries -/

theorem tget_all {α : Type} {t : Tab α} {k : Nat} {d : α} {P : α → Bool} (hd : P d = true) (h : (t.all fun p => P p.2) = true) : P (tget t k d) = true := by
  induction t with
  | nil => exact hd
  | cons x t ih =>
    obtain ⟨j, v⟩ := x
    simp only [List.all_cons, Bool.and_eq_true] at h
    simp only [tget]
    split
    · exact h.1
    · exact ih h.2

theorem tfind_all {α : Type} {t : Tab α} {k : Nat} {v : α} {P : α → Bool} (h : (t.all fun p => P p.2) = true) (e : tfind t k = some v) : P v = true := by
  induction t with
  | nil => cases e
  | cons x t ih =>
    obtain ⟨j, w⟩ := x
    simp only [List.all_cons, Bool.and_eq_true] at h
    simp only [tfind] at e
    split at e
    · cases e; exact h.1
    · exact ih h.2 e

theorem settled_of {s : State} {c : Nat} (h : ((s.core c).slots.all fun p => decide (p.2.wait = .ready)) = true) : s.Settled c := fun i =>
  of_decide_eq_true (tget_all (P := fun x : Slot => decide (x.wait = .ready)) rfl h)

theorem others_ready {s : State} {c k : Nat} (h : ((s.core c).slots.all fun p => p.1 == k || decide (p.2.wait = .ready)) = true) :
    ∀ j, j ≠ k → (s.slot c j).wait = .ready := by
  intro j hj
  show (tget (s.core c).slots j {}).wait = .ready
  generalize (s.core c).slots = t at h ⊢
  induction t with
  | nil => rfl
  | cons x t ih =>
    obtain ⟨i, v⟩ := x
    simp only [List.all_cons, Bool.and_eq_true, Bool.or_eq_true, beq_iff_eq, decide_eq_true_eq] at h
    simp only [tget]
    split
    · rename_i e
      exact h.1.resolve_left fun e' => hj (e.symm.trans e')
    · exact ih h.2

theorem after_eq {o : Host.Outcome State Fault Refusal} (h : (match o with | .next _ => true | _ => false) = true) : o = .next (after o) := by
  cases o <;> first | rfl | cases h

theorem allRun_of {s : State} (h : (s.groups.all fun p => decide (p.2.state = .running)) = true) : allRun s := fun _ _ e =>
  of_decide_eq_true (tfind_all (P := fun g : Group => decide (g.state = .running)) h e)

theorem every_some {α : Type} {o : Option α} {P : α → Prop} [DecidablePred P] (h : (o.all fun x => decide (P x)) = true) : ∀ x, o = some x → P x := by
  rintro x rfl
  exact of_decide_eq_true h

theorem exists_some {α : Type} {o : Option α} {P : α → Prop} [DecidablePred P] (h : (o.any fun x => decide (P x)) = true) : ∃ x, o = some x ∧ P x := by
  cases o with
  | none => cases h
  | some x => exact ⟨x, rfl, of_decide_eq_true h⟩

theorem first_event {s : State} {k : Nat × Nat} (h : (match s.firstEvent s.agenda with | some (_, q) => State.keyLt k q | none => true) = true) :
    ∀ e q, s.firstEvent s.agenda = some (e, q) → State.keyLt k q = true := by
  intro e q he
  rw [he] at h
  exact h

theorem code_at {s : State} {c r : Nat} {det : Bool} {pc : Word} {ws : List W32}
    (h : ∀ j, j < ws.length → 0x80000 ≤ pc.toNat + 4 * j ∧ pc.toNat + 4 * j < 2 ^ 55
      ∧ (match if det then s.codeIndex c (pc + BitVec.ofNat 64 (4 * j)) else none with
        | some k => (match (s.core c).code with | some d => d.words[k]? == some (.word (ws.getD j 0)) | none => false)
        | none => (match s.fetchPlace c r (pc.toNat + 4 * j) with | .ok l => leNat (s.readLoc l 4) == (ws.getD j 0).toNat | .error _ => false)) = true) :
    codeAt s c r det pc ws := by
  intro j hj
  obtain ⟨h1, h2, h'⟩ := h j hj
  refine ⟨h1, h2, ?_⟩
  generalize (if det then s.codeIndex c (pc + BitVec.ofNat 64 (4 * j)) else none) = o at h' ⊢
  cases o with
  | some k =>
    simp only at h' ⊢
    split at h'
    · rename_i d hd
      exact ⟨d, hd, by simpa using h'⟩
    · cases h'
  | none =>
    simp only at h' ⊢
    split at h'
    · rename_i l hl
      exact ⟨l, hl, by simpa using h'⟩
    · cases h'

/-- What a function that may fail gives, or another value where it fails; and its failure. -/
def okOf {ε α : Type} (x : Except ε α) (d : α) : α := match x with | .ok p => p | .error _ => d
def errOf {ε α : Type} (x : Except ε α) (d : ε) : ε := match x with | .ok _ => d | .error e => e

theorem ok_of {ε α β : Type} [DecidableEq α] {x : Except ε (α × β)} {a : α} {d : α × β}
    (h : (match x with | .ok p => decide (p.1 = a) | .error _ => false) = true) :
    x = .ok (a, (okOf x d).2) := by
  split at h
  · rename_i p
    have e := of_decide_eq_true h
    subst e
    rfl
  · cases h

theorem ok_pair {ε α β : Type} {x : Except ε (α × β)} {d : α × β} (h : (match x with | .ok _ => true | .error _ => false) = true) :
    x = .ok ((okOf x d).1, (okOf x d).2) := by
  cases x <;> first | rfl | cases h

theorem below2 {a b : Nat} {P : Nat → Nat → Prop} (h : ∀ c, c < a → ∀ i, i < b → P c i) : ∀ c i, c < a → i < b → P c i := fun c i hc hi => h c hc i hi

theorem error_of {ε α : Type} {x : Except ε α} {d : ε} (h : (match x with | .ok _ => false | .error _ => true) = true) :
    x = .error (errOf x d) := by
  cases x <;> first | rfl | cases h

theorem no_guest {s : State} {n : Nat} (h : (s.dies.all fun p => decide (n ∉ p.2.guests)) = true) : ∀ d, n ∉ (s.die d).guests := fun _ =>
  of_decide_eq_true (tget_all (P := fun x : Die => decide (n ∉ x.guests)) (by simp) h)

theorem no_handle {s : State} {c : Nat} (h : ((s.core c).slots.all fun p => decide (p.2.wait = .ready)) = true) :
    ∀ i n d, (s.slot c i).wait ≠ .handle n d := fun i _ _ e => nomatch ((settled_of h i).symm.trans e : Wait.ready = _)

theorem gaussReady_of {s : State} {r : SfuReq} {d n : Nat}
    (h : s.obj.b = r.id ∧ r.id ≠ 0 ∧ r ∈ (s.cluster s.obj.a).sfu ∧ (∀ x ∈ (s.cluster s.obj.a).sfu, x.id = r.id → x = r) ∧ r.trap = none ∧ r.clamped = false
      ∧ s.sound = true ∧ (s.core r.cid).sp.wf = true ∧ s.unwritten r.cid d n = true ∧ s.unwatched (.scratch r.cid) d n = true
      ∧ s.ownerOf r.cid r.slot r.serial = some (r.cid, r.slot) ∧ (s.slot r.cid r.slot).wait = .sfu r.id ∧ (s.slot r.cid r.slot).guest = false
      ∧ s.ustore r.serial ≤ 64 ∧ (s.core r.cid).idleAt ≠ some s.cycle)
    (hg : ((s.group? (s.core r.cid).gid).all fun g => decide (g.state = .running)) = true) : gaussReady s r d n := by
  obtain ⟨h1, h2, h3, h4, h5, h6, h7, h8, h9, h10, h11, h12, h13, h14, h15⟩ := h
  exact ⟨h1, h2, h3, h4, h5, h6, h7, h8, h9, h10, h11, h12, h13, h14, h15, every_some hg⟩

theorem isFactor_of {M : Nat → Nat → Nat} {p thr : Nat} {L : Nat → Nat → Nat} {cols : Nat}
    (h : ∀ j, j < cols → L j j = Gauss.sqrt (if lowPivot M L thr j then thr else pivotOf M L j)
      ∧ ∀ i, i < p → j < i → L i j = divF f32 .rne (lessProducts (M i j) (L i) (L j) (List.range j)) (L j j)) : isFactor M p thr L cols :=
  fun j hj => ⟨(h j hj).1, fun i hi hp => (h j hj).2 i hp hi⟩

theorem stepMessage_of {s : State} {m : Msg} (k : Nat)
    (h : m.id = s.obj.a ∧ s.net = s.net.take k ++ m :: s.net.drop (k + 1) ∧ ∀ x ∈ s.net.take k ++ s.net.drop (k + 1), x.id ≠ m.id) : stepMessage s m :=
  ⟨h.1, _, _, h.2⟩

/-! ### Every instruction from its word, built by hand from the layouts of R47 to R51 and the opcodes of R56 and R57 -/

theorem test_decode_integer : ∀ p ∈ ([
    ([0x00C51834], .add ⟨5, 3, 5, 6⟩),
    ([0x04C51834], .sub ⟨5, 3, 5, 6⟩),
    ([0x08C51834], .mul ⟨5, 3, 5, 6⟩),
    ([0x0CC51834], .mulh ⟨5, 3, 5, 6⟩),
    ([0x10C51834], .mulhu ⟨5, 3, 5, 6⟩),
    ([0x14C51834], .div ⟨5, 3, 5, 6⟩),
    ([0x18C51834], .divu ⟨5, 3, 5, 6⟩),
    ([0x1CC51834], .rem ⟨5, 3, 5, 6⟩),
    ([0x20C51834], .remu ⟨5, 3, 5, 6⟩),
    ([0x24C51834], .and ⟨5, 3, 5, 6⟩),
    ([0x28C51834], .or ⟨5, 3, 5, 6⟩),
    ([0x2CC51834], .xor ⟨5, 3, 5, 6⟩),
    ([0x30C51834], .andn ⟨5, 3, 5, 6⟩),
    ([0x34C51834], .shl ⟨5, 3, 5, 6⟩),
    ([0x38C51834], .shr ⟨5, 3, 5, 6⟩),
    ([0x3CC51834], .sra ⟨5, 3, 5, 6⟩),
    ([0x40C51834], .rotr ⟨5, 3, 5, 6⟩),
    ([0x44C51834], .slt ⟨5, 3, 5, 6⟩),
    ([0x48C51834], .sltu ⟨5, 3, 5, 6⟩),
    ([0x4CC51834], .min ⟨5, 3, 5, 6⟩),
    ([0x50C51834], .max ⟨5, 3, 5, 6⟩),
    ([0x54C51834], .minu ⟨5, 3, 5, 6⟩),
    ([0x58C51834], .maxu ⟨5, 3, 5, 6⟩),
    ([0x5CC51834], .sel ⟨5, 3, 5, 6⟩),
    ([0x60051834], .clz ⟨5, 3, 5, 0⟩),
    ([0x64051834], .ctz ⟨5, 3, 5, 0⟩),
    ([0x68051834], .popc ⟨5, 3, 5, 0⟩),
    ([0x6CC51834], .bfx ⟨5, 3, 5, 6⟩),
    ([0x70C51834], .bfxu ⟨5, 3, 5, 6⟩),
    ([0x74C51834], .bfi ⟨5, 3, 5, 6⟩)
    ] : List (List W32 × Instr)), decode p.1 = some p.2 ∧ p.2.wf = true ∧ encode p.2 = p.1 := by decide +kernel

theorem test_decode_immediate : ∀ p ∈ ([
    ([0xFFA51854], .addi ⟨5, 3, 5, 0x7FD⟩),
    ([0x00051856, 0x89ABCDEF, 0x81234567], .addiLit ⟨5, 3, 5, 0x8123456789ABCDEF⟩),
    ([0xFFA51874], .andi ⟨5, 3, 5, 0x7FD⟩),
    ([0x00051876, 0x89ABCDEF, 0x81234567], .andiLit ⟨5, 3, 5, 0x8123456789ABCDEF⟩),
    ([0xFFA51894], .ori ⟨5, 3, 5, 0x7FD⟩),
    ([0x00051896, 0x89ABCDEF, 0x81234567], .oriLit ⟨5, 3, 5, 0x8123456789ABCDEF⟩),
    ([0xFFA518B4], .xori ⟨5, 3, 5, 0x7FD⟩),
    ([0x000518B6, 0x89ABCDEF, 0x81234567], .xoriLit ⟨5, 3, 5, 0x8123456789ABCDEF⟩),
    ([0xFFA518D4], .shli ⟨5, 3, 5, 0x7FD⟩),
    ([0x000518D6, 0x89ABCDEF, 0x81234567], .shliLit ⟨5, 3, 5, 0x8123456789ABCDEF⟩),
    ([0xFFA518F4], .shri ⟨5, 3, 5, 0x7FD⟩),
    ([0x000518F6, 0x89ABCDEF, 0x81234567], .shriLit ⟨5, 3, 5, 0x8123456789ABCDEF⟩),
    ([0xFFA51914], .srai ⟨5, 3, 5, 0x7FD⟩),
    ([0x00051916, 0x89ABCDEF, 0x81234567], .sraiLit ⟨5, 3, 5, 0x8123456789ABCDEF⟩),
    ([0xFFA51934], .slti ⟨5, 3, 5, 0x7FD⟩),
    ([0x00051936, 0x89ABCDEF, 0x81234567], .sltiLit ⟨5, 3, 5, 0x8123456789ABCDEF⟩),
    ([0xFFA51954], .sltiu ⟨5, 3, 5, 0x7FD⟩),
    ([0x00051956, 0x89ABCDEF, 0x81234567], .sltiuLit ⟨5, 3, 5, 0x8123456789ABCDEF⟩),
    ([0xFFA01974], .movi ⟨5, 3, 0, 0x7FD⟩),
    ([0x00001976, 0x89ABCDEF, 0x81234567], .moviLit ⟨5, 3, 0, 0x8123456789ABCDEF⟩)
    ] : List (List W32 × Instr)), decode p.1 = some p.2 ∧ p.2.wf = true ∧ encode p.2 = p.1 := by decide +kernel

theorem test_decode_scalar_float : ∀ p ∈ ([
    ([0x00C51994], .fadd ⟨5, 3, 5, 6⟩),
    ([0x04C51994], .fsub ⟨5, 3, 5, 6⟩),
    ([0x08C51994], .fmul ⟨5, 3, 5, 6⟩),
    ([0x0CC51994], .ffma ⟨5, 3, 5, 6⟩),
    ([0x10C51994], .fmin ⟨5, 3, 5, 6⟩),
    ([0x14C51994], .fmax ⟨5, 3, 5, 6⟩),
    ([0x18051994], .fabs ⟨5, 3, 5, 0⟩),
    ([0x1C051994], .fneg ⟨5, 3, 5, 0⟩),
    ([0x20C51994], .fcmpeq ⟨5, 3, 5, 6⟩),
    ([0x24C51994], .fcmplt ⟨5, 3, 5, 6⟩),
    ([0x28C51994], .fcmple ⟨5, 3, 5, 6⟩),
    ([0x2C051994], .fcvtif ⟨5, 3, 5, 0⟩),
    ([0x30051994], .fcvtfi ⟨5, 3, 5, 0⟩),
    ([0x34051994], .fclass ⟨5, 3, 5, 0⟩)
    ] : List (List W32 × Instr)), decode p.1 = some p.2 ∧ p.2.wf = true ∧ encode p.2 = p.1 := by decide +kernel

theorem test_decode_control : ∀ p ∈ ([
    ([0xFD3161B4], .br ⟨5, 4, 5, 6, 0xFD⟩),
    ([0x003161B5, 0x00000000, 0xFFFFFFF0], .brLong ⟨5, 4, 5, 6, 0xFFFFFFF0⟩),
    ([0xFFFF81D4], .jmp ⟨5, 0x1FFFF0⟩),
    ([0x000001D6, 0x89ABCDEC, 0x00234567], .jmpLit ⟨5, 0x23456789ABCDEC⟩),
    ([0xFFFF81F4], .call ⟨5, 0x1FFFF0⟩),
    ([0x000001F6, 0x89ABCDEC, 0x00234567], .callLit ⟨5, 0x23456789ABCDEC⟩),
    ([0x00050214], .jr ⟨5, 0, 5, 0⟩),
    ([0x04051A14], .callr ⟨5, 3, 5, 0⟩)
    ] : List (List W32 × Instr)), decode p.1 = some p.2 ∧ p.2.wf = true ∧ encode p.2 = p.1 := by decide +kernel

theorem test_decode_system : ∀ p ∈ ([
    ([0x00000234], .nop ⟨5, 0, 0, 0⟩),
    ([0x04C51A34], .safept ⟨5, 3, 5, 6⟩),
    ([0x08C51A34], .trap ⟨5, 3, 5, 6⟩),
    ([0x0C000234], .tret ⟨5, 0, 0, 0⟩),
    ([0x10C51A34], .bkpt ⟨5, 3, 5, 6⟩),
    ([0x15A01A34], .mfs ⟨5, 3, 0, 13⟩),
    ([0x18E50234], .mts ⟨5, 0, 5, 7⟩),
    ([0x1C001A34], .rdtime ⟨5, 3, 0, 0⟩),
    ([0x20C01A34], .getid ⟨5, 3, 0, 6⟩)
    ] : List (List W32 × Instr)), decode p.1 = some p.2 ∧ p.2.wf = true ∧ encode p.2 = p.1 := by decide +kernel

theorem test_decode_loads_and_stores : ∀ p ∈ ([
    ([0xFD451A54], .ld ⟨5, 3, 5, 2, 0xFD⟩),
    ([0x00451A56, 0x89ABCDEF, 0x81234567], .ldLit ⟨5, 3, 5, 2, 0x8123456789ABCDEF⟩),
    ([0xFD451A74], .st ⟨5, 3, 5, 2, 0xFD⟩),
    ([0x00451A76, 0x89ABCDEF, 0x81234567], .stLit ⟨5, 3, 5, 2, 0x8123456789ABCDEF⟩),
    ([0xFD451A94], .ldAcq ⟨5, 3, 5, 2, 0xFD⟩),
    ([0x00451A96, 0x89ABCDEF, 0x81234567], .ldAcqLit ⟨5, 3, 5, 2, 0x8123456789ABCDEF⟩),
    ([0xFD451AB4], .stRel ⟨5, 3, 5, 2, 0xFD⟩),
    ([0x00451AB6, 0x89ABCDEF, 0x81234567], .stRelLit ⟨5, 3, 5, 2, 0x8123456789ABCDEF⟩),
    ([0x000502D4], .pfetch ⟨5, 0, 5, 0⟩),
    ([0x040002D4], .l1inv ⟨5, 0, 0, 0⟩),
    ([0x08C51AD4], .waitv ⟨5, 3, 5, 6⟩)
    ] : List (List W32 × Instr)), decode p.1 = some p.2 ∧ p.2.wf = true ∧ encode p.2 = p.1 := by decide +kernel

theorem test_decode_atomic : ∀ p ∈ ([
    ([0x08C51AF4], .amoadd ⟨5, 3, 5, 6, 2⟩),
    ([0x18C51AF4], .amoand ⟨5, 3, 5, 6, 2⟩),
    ([0x28C51AF4], .amoor ⟨5, 3, 5, 6, 2⟩),
    ([0x38C51AF4], .amoxor ⟨5, 3, 5, 6, 2⟩),
    ([0x48C51AF4], .amomin ⟨5, 3, 5, 6, 2⟩),
    ([0x58C51AF4], .amomax ⟨5, 3, 5, 6, 2⟩),
    ([0x68C51AF4], .amominu ⟨5, 3, 5, 6, 2⟩),
    ([0x78C51AF4], .amomaxu ⟨5, 3, 5, 6, 2⟩),
    ([0x88C51AF4], .amoswap ⟨5, 3, 5, 6, 2⟩),
    ([0x98C51AF4], .amocas ⟨5, 3, 5, 6, 2⟩),
    ([0xA8C51AF4], .amofadd ⟨5, 3, 5, 6, 2⟩),
    ([0xB8C51AF4], .amoamax ⟨5, 3, 5, 6, 2⟩)
    ] : List (List W32 × Instr)), decode p.1 = some p.2 ∧ p.2.wf = true ∧ encode p.2 = p.1 := by decide +kernel

theorem test_decode_fence : ∀ p ∈ ([
    ([0x00000314], .fenceC ⟨5, 0, 0, 0⟩),
    ([0x04000314], .fenceK ⟨5, 0, 0, 0⟩),
    ([0x08000314], .fenceP ⟨5, 0, 0, 0⟩),
    ([0x0C051B14], .fenceS ⟨5, 3, 5, 0⟩)
    ] : List (List W32 × Instr)), decode p.1 = some p.2 ∧ p.2.wf = true ∧ encode p.2 = p.1 := by decide +kernel

theorem test_decode_vector_integer : ∀ p ∈ ([
    ([0x0258D335, 0x0000D800, 0x00000000], .vadd ⟨5, 26, 24, 18, 0, 8, 5, true, 0, 0x0, 0x0⟩),
    ([0x0258D335, 0x0000D801, 0x00000000], .vsub ⟨5, 26, 24, 18, 0, 8, 5, true, 0, 0x0, 0x0⟩),
    ([0x0258D335, 0x0000D802, 0x00000000], .vmul ⟨5, 26, 24, 18, 0, 8, 5, true, 0, 0x0, 0x0⟩),
    ([0x0258D335, 0x0000D803, 0x00000000], .vmulh ⟨5, 26, 24, 18, 0, 8, 5, true, 0, 0x0, 0x0⟩),
    ([0x0258D335, 0x0048D804, 0x00000000], .vmad ⟨5, 26, 24, 18, 9, 8, 5, true, 0, 0x0, 0x0⟩),
    ([0x02584335, 0x0000D205, 0x00000000], .vmacw ⟨5, 8, 24, 18, 0, 2, 5, true, 0, 0x0, 0x0⟩),
    ([0x02581B35, 0x0000D206, 0x00000000], .vdot4 ⟨5, 3, 24, 18, 0, 2, 5, true, 0, 0x0, 0x0⟩),
    ([0x0258D335, 0x0000D807, 0x00000000], .vmin ⟨5, 26, 24, 18, 0, 8, 5, true, 0, 0x0, 0x0⟩),
    ([0x0258D335, 0x0000D808, 0x00000000], .vmax ⟨5, 26, 24, 18, 0, 8, 5, true, 0, 0x0, 0x0⟩),
    ([0x0018D335, 0x0000D509, 0x00000000], .vabs ⟨5, 26, 24, 0, 0, 5, 5, true, 0, 0x0, 0x0⟩),
    ([0x0258D335, 0x0000D80A, 0x00000000], .vand ⟨5, 26, 24, 18, 0, 8, 5, true, 0, 0x0, 0x0⟩),
    ([0x0258D335, 0x0000D80B, 0x00000000], .vor ⟨5, 26, 24, 18, 0, 8, 5, true, 0, 0x0, 0x0⟩),
    ([0x0258D335, 0x0000D80C, 0x00000000], .vxor ⟨5, 26, 24, 18, 0, 8, 5, true, 0, 0x0, 0x0⟩),
    ([0x0018D335, 0x1500D80D, 0x00000000], .vshli ⟨5, 26, 24, 0, 0, 8, 5, true, 0, 0x15, 0x0⟩),
    ([0x0018D335, 0x1500D80E, 0x00000000], .vshri ⟨5, 26, 24, 0, 0, 8, 5, true, 0, 0x15, 0x0⟩),
    ([0x0018D335, 0x1500D80F, 0x00000000], .vsrai ⟨5, 26, 24, 0, 0, 8, 5, true, 0, 0x15, 0x0⟩),
    ([0x0018D335, 0x1500D810, 0x00000000], .vrshr ⟨5, 26, 24, 0, 0, 8, 5, true, 0, 0x15, 0x0⟩)
    ] : List (List W32 × Instr)), decode p.1 = some p.2 ∧ p.2.wf = true ∧ encode p.2 = p.1 := by decide +kernel

theorem test_decode_vector_float : ∀ p ∈ ([
    ([0x0258D355, 0x0006DB00, 0x00000000], .vfadd ⟨5, 26, 24, 18, 0, 11, 5, true, 6, 0x0, 0x0⟩),
    ([0x0258D355, 0x0006DB01, 0x00000000], .vfsub ⟨5, 26, 24, 18, 0, 11, 5, true, 6, 0x0, 0x0⟩),
    ([0x0258D355, 0x0006DB02, 0x00000000], .vfmul ⟨5, 26, 24, 18, 0, 11, 5, true, 6, 0x0, 0x0⟩),
    ([0x0258D355, 0x004EDB03, 0x00000000], .vffma ⟨5, 26, 24, 18, 9, 11, 5, true, 6, 0x0, 0x0⟩),
    ([0x0258D355, 0x0006DB04, 0x00000000], .vfmin ⟨5, 26, 24, 18, 0, 11, 5, true, 6, 0x0, 0x0⟩),
    ([0x0258D355, 0x0006DB05, 0x00000000], .vfmax ⟨5, 26, 24, 18, 0, 11, 5, true, 6, 0x0, 0x0⟩)
    ] : List (List W32 × Instr)), decode p.1 = some p.2 ∧ p.2.wf = true ∧ encode p.2 = p.1 := by decide +kernel

theorem test_decode_vector_memory : ∀ p ∈ ([
    ([0x0005D375, 0x0000DD00, 0x12345678], .vld ⟨5, 26, 5, 0, 0, 13, 5, true, 0, 0x0, 0x12345678⟩),
    ([0x02450375, 0x0000DD01, 0x12345678], .vst ⟨5, 0, 5, 18, 0, 13, 5, true, 0, 0x0, 0x12345678⟩)
    ] : List (List W32 × Instr)), decode p.1 = some p.2 ∧ p.2.wf = true ∧ encode p.2 = p.1 := by decide +kernel

theorem test_decode_vector_permute : ∀ p ∈ ([
    ([0x0005D395, 0x0000DD00, 0x00000000], .vsplat ⟨5, 26, 5, 0, 0, 13, 5, true, 0, 0x0, 0x0⟩),
    ([0x0000D397, 0x0000DD00, 0x00000000, 0x89ABCDEF, 0x81234567], .vsplatLit ⟨⟨5, 26, 0, 0, 0, 13, 5, true, 0, 0x0, 0x0⟩, 0x8123456789ABCDEF⟩),
    ([0x0258D395, 0x0000DD01, 0x00000000], .vperm ⟨5, 26, 24, 18, 0, 13, 5, true, 0, 0x0, 0x0⟩),
    ([0x0018D397, 0x0000DD01, 0x00000000, 0x89ABCDEF, 0x81234567], .vpermLit ⟨⟨5, 26, 24, 0, 0, 13, 5, true, 0, 0x0, 0x0⟩, 0x8123456789ABCDEF⟩),
    ([0x0258D395, 0x1000D102, 0x00000000], .vslide ⟨5, 26, 24, 18, 0, 1, 5, true, 0, 0x10, 0x0⟩),
    ([0x0018D395, 0x0200DB03, 0x00000000], .vred ⟨5, 26, 24, 0, 0, 11, 5, true, 0, 0x2, 0x0⟩),
    ([0x0258D395, 0x0000DD04, 0x00000000], .vsel ⟨5, 26, 24, 18, 0, 13, 5, true, 0, 0x0, 0x0⟩),
    ([0x02581B95, 0x0500DD05, 0x00000000], .vcmp ⟨5, 3, 24, 18, 0, 13, 5, true, 0, 0x5, 0x0⟩),
    ([0x00C51B95, 0x00000010, 0x00000000], .kand ⟨5, 3, 5, 6, 0, 0, 0, false, 0, 0x0, 0x0⟩),
    ([0x00C51B95, 0x00000011, 0x00000000], .kor ⟨5, 3, 5, 6, 0, 0, 0, false, 0, 0x0, 0x0⟩),
    ([0x00051B95, 0x00000012, 0x00000000], .knot ⟨5, 3, 5, 0, 0, 0, 0, false, 0, 0x0, 0x0⟩),
    ([0x00051B95, 0x00000013, 0x00000000], .kmov ⟨5, 3, 5, 0, 0, 0, 0, false, 0, 0x0, 0x0⟩),
    ([0x00001B95, 0x00000013, 0x0001A5A5], .kmovImm ⟨5, 3, 0, 0, 0, 0, 0, false, 0, 0x0, 0x1A5A5⟩)
    ] : List (List W32 × Instr)), decode p.1 = some p.2 ∧ p.2.wf = true ∧ encode p.2 = p.1 := by decide +kernel

theorem test_decode_vector_conversion : ∀ p ∈ ([
    ([0x001813B5, 0x1A06D900, 0x00000000], .vfcvt ⟨5, 2, 24, 0, 0, 9, 5, true, 6, 0x1A, 0x0⟩),
    ([0x000CD3B5, 0x0100D201, 0x00000000], .vnarrow ⟨5, 26, 12, 0, 0, 2, 5, true, 0, 0x1, 0x0⟩),
    ([0x001863B5, 0x0000D202, 0x00000000], .vwiden ⟨5, 12, 24, 0, 0, 2, 5, true, 0, 0x0, 0x0⟩)
    ] : List (List W32 × Instr)), decode p.1 = some p.2 ∧ p.2.wf = true ∧ encode p.2 = p.1 := by decide +kernel

theorem test_decode_special_functions : ∀ p ∈ ([
    ([0x0018D3D5, 0x0000DB00, 0x00000000], .srcp ⟨5, 26, 24, 0, 0, 11, 5, true, 0, 0x0, 0x0⟩),
    ([0x0018D3D5, 0x0000DB01, 0x00000000], .srsq ⟨5, 26, 24, 0, 0, 11, 5, true, 0, 0x0, 0x0⟩),
    ([0x0018D3D5, 0x0000DB02, 0x00000000], .sexp2 ⟨5, 26, 24, 0, 0, 11, 5, true, 0, 0x0, 0x0⟩),
    ([0x0018D3D5, 0x0000DB03, 0x00000000], .slog2 ⟨5, 26, 24, 0, 0, 11, 5, true, 0, 0x0, 0x0⟩),
    ([0x0018D3D5, 0x0000DB04, 0x00000000], .ssin ⟨5, 26, 24, 0, 0, 11, 5, true, 0, 0x0, 0x0⟩),
    ([0x0018D3D5, 0x0000DB05, 0x00000000], .scos ⟨5, 26, 24, 0, 0, 11, 5, true, 0, 0x0, 0x0⟩),
    ([0x0018D3D5, 0x0000DB06, 0x00000000], .stanh ⟨5, 26, 24, 0, 0, 11, 5, true, 0, 0x0, 0x0⟩),
    ([0x0018D3D5, 0x0000DB07, 0x00000000], .ssigm ⟨5, 26, 24, 0, 0, 11, 5, true, 0, 0x0, 0x0⟩)
    ] : List (List W32 × Instr)), decode p.1 = some p.2 ∧ p.2.wf = true ∧ encode p.2 = p.1 := by decide +kernel

theorem test_decode_feeds : ∀ p ∈ ([
    ([0x000593F5, 0x01000000, 0x0000003F], .stbind ⟨5, 18, 5, 0, 0, 0, 0, false, 0, 0x1, 0x3F⟩),
    ([0x000093F5, 0x00000001, 0x00000000], .stend ⟨5, 18, 0, 0, 0, 0, 0, false, 0, 0x0, 0x0⟩),
    ([0x0005F3F5, 0x00000002, 0x00000000], .chbind ⟨5, 30, 5, 0, 0, 0, 0, false, 0, 0x0, 0x0⟩),
    ([0x0000F3F5, 0x00000003, 0x00000000], .chend ⟨5, 30, 0, 0, 0, 0, 0, false, 0, 0x0, 0x0⟩)
    ] : List (List W32 × Instr)), decode p.1 = some p.2 ∧ p.2.wf = true ∧ encode p.2 = p.1 := by decide +kernel

theorem test_decode_matrix : ∀ p ∈ ([
    ([0x00C50C15, 0x02000F00, 0x00000000], .mxldw ⟨5, 1, 5, 6, 0, 15, 0, false, 0, 0x2, 0x0⟩),
    ([0x00000C15, 0x00000001, 0x00000000], .mxswap ⟨5, 1, 0, 0, 0, 0, 0, false, 0, 0x0, 0x0⟩),
    ([0x00050415, 0x00000002, 0x00000000], .mxq ⟨5, 0, 5, 0, 0, 0, 0, false, 0, 0x0, 0x0⟩),
    ([0x00001C15, 0x00000003, 0x0000FFFF], .mxwaitv ⟨5, 3, 0, 0, 0, 0, 0, false, 0, 0x0, 0xFFFF⟩),
    ([0x00051C15, 0x01000003, 0x00000000], .mxwaitvReg ⟨5, 3, 5, 0, 0, 0, 0, false, 0, 0x1, 0x0⟩),
    ([0x00C51C15, 0x00000B04, 0x00000000], .mxdrain ⟨5, 3, 5, 6, 0, 11, 0, false, 0, 0x0, 0x0⟩),
    ([0x00051C15, 0x01000004, 0x00000000], .mxdrainCe ⟨5, 3, 5, 0, 0, 0, 0, false, 0, 0x1, 0x0⟩),
    ([0x00001C15, 0x00000005, 0x00000000], .mxzero ⟨5, 3, 0, 0, 0, 0, 0, false, 0, 0x0, 0x0⟩),
    ([0x00051C15, 0x01000005, 0x00000000], .mxzeroLd ⟨5, 3, 5, 0, 0, 0, 0, false, 0, 0x1, 0x0⟩),
    ([0x00050C15, 0x00380006, 0x00000000], .mxcb ⟨5, 1, 5, 0, 7, 0, 0, false, 0, 0x0, 0x0⟩),
    ([0x00C51C15, 0x02380F07, 0x12345678], .scacc ⟨5, 3, 5, 6, 7, 15, 0, false, 0, 0x2, 0x12345678⟩),
    ([0x00001C15, 0x00380008, 0x00000000], .mxstat ⟨5, 3, 0, 0, 7, 0, 0, false, 0, 0x0, 0x0⟩),
    ([0x00050415, 0x3F000009, 0x00000000], .normref ⟨5, 0, 5, 0, 0, 0, 0, false, 0, 0x3F, 0x0⟩),
    ([0x00051C15, 0x3F00000A, 0x00000000], .normrd ⟨5, 3, 5, 0, 0, 0, 0, false, 0, 0x3F, 0x0⟩)
    ] : List (List W32 × Instr)), decode p.1 = some p.2 ∧ p.2.wf = true ∧ encode p.2 = p.1 := by decide +kernel

theorem test_decode_transfer : ∀ p ∈ ([
    ([0x00C51C35, 0xFF380000, 0x00FF007F], .send ⟨5, 3, 5, 6, 7, 0, 0, false, 0, 0xFF, 0xFF007F⟩),
    ([0x00051C35, 0x3F000001, 0x00000000], .mbwait ⟨5, 3, 5, 0, 0, 0, 0, false, 0, 0x3F, 0x0⟩),
    ([0x00001C35, 0x3F000002, 0x00000000], .mbread ⟨5, 3, 0, 0, 0, 0, 0, false, 0, 0x3F, 0x0⟩),
    ([0x00050435, 0x3F000003, 0x00000000], .mbset ⟨5, 0, 5, 0, 0, 0, 0, false, 0, 0x3F, 0x0⟩),
    ([0x00C50435, 0x3F000004, 0x0000073F], .hclaim ⟨5, 0, 5, 6, 0, 0, 0, false, 0, 0x3F, 0x73F⟩),
    ([0x00001C35, 0x3F000005, 0x00000000], .hwait ⟨5, 3, 0, 0, 0, 0, 0, false, 0, 0x3F, 0x0⟩),
    ([0x00000435, 0x3F000006, 0x00000000], .hfree ⟨5, 0, 0, 0, 0, 0, 0, false, 0, 0x3F, 0x0⟩),
    ([0x00001C35, 0x3F000007, 0x00000000], .hstat ⟨5, 3, 0, 0, 0, 0, 0, false, 0, 0x3F, 0x0⟩)
    ] : List (List W32 × Instr)), decode p.1 = some p.2 ∧ p.2.wf = true ∧ encode p.2 = p.1 := by decide +kernel

theorem test_decode_gather_scan : ∀ p ∈ ([
    ([0x00C50455, 0x3F380000, 0x0000003F], .gather ⟨5, 0, 5, 6, 7, 0, 0, false, 0, 0x3F, 0x3F⟩),
    ([0x00C51C55, 0x00380D01, 0x00000000], .nzscan ⟨5, 3, 5, 6, 7, 13, 0, false, 0, 0x0, 0x0⟩)
    ] : List (List W32 × Instr)), decode p.1 = some p.2 ∧ p.2.wf = true ∧ encode p.2 = p.1 := by decide +kernel

theorem test_decode_collective_decode : ∀ p ∈ ([
    ([0x00050475, 0x00000000, 0x00000000], .rscat ⟨5, 0, 5, 0, 0, 0, 0, false, 0, 0x0, 0x0⟩),
    ([0x00050475, 0x00000001, 0x00000000], .vdec ⟨5, 0, 5, 0, 0, 0, 0, false, 0, 0x0, 0x0⟩)
    ] : List (List W32 × Instr)), decode p.1 = some p.2 ∧ p.2.wf = true ∧ encode p.2 = p.1 := by decide +kernel

theorem test_decode_gaussian : ∀ p ∈ ([
    ([0x00C51C95, 0x07000000, 0x00000000], .gmadd ⟨5, 3, 5, 6, 0, 0, 0, false, 0, 0x7, 0x0⟩),
    ([0x00C51C95, 0x07000000, 0x00000011], .gmaddJ ⟨5, 3, 5, 6, 0, 0, 0, false, 0, 0x7, 0x11⟩),
    ([0x00C51C95, 0x07000001, 0x00000000], .gmsub ⟨5, 3, 5, 6, 0, 0, 0, false, 0, 0x7, 0x0⟩),
    ([0x00C51C95, 0x07000001, 0x00000011], .gmsubJ ⟨5, 3, 5, 6, 0, 0, 0, false, 0, 0x7, 0x11⟩),
    ([0x00051C95, 0x33000002, 0x00000000], .gmschur ⟨5, 3, 5, 0, 0, 0, 0, false, 0, 0x33, 0x0⟩),
    ([0x00C51C95, 0x07000003, 0x0000FFFE], .gmdamp ⟨5, 3, 5, 6, 0, 0, 0, false, 0, 0x7, 0xFFFE⟩),
    ([0x00C50495, 0x00000004, 0x00000000], .gmsend ⟨5, 0, 5, 6, 0, 0, 0, false, 0, 0x0, 0x0⟩),
    ([0x00051C95, 0x3F000005, 0x00000000], .gmpoll ⟨5, 3, 5, 0, 0, 0, 0, false, 0, 0x3F, 0x0⟩),
    ([0x00051C95, 0x07000006, 0x00000000], .gmmean ⟨5, 3, 5, 0, 0, 0, 0, false, 0, 0x7, 0x0⟩)
    ] : List (List W32 × Instr)), decode p.1 = some p.2 ∧ p.2.wf = true ∧ encode p.2 = p.1 := by decide +kernel

theorem test_decode_groups : ∀ p ∈ ([
    ([0x000504B5, 0x00000000, 0x12345678], .start ⟨5, 0, 5, 0, 0, 0, 0, false, 0, 0x0, 0x12345678⟩),
    ([0x00C504B5, 0x01000000, 0x00000000], .startR ⟨5, 0, 5, 6, 0, 0, 0, false, 0, 0x1, 0x0⟩),
    ([0x000504B5, 0x00000001, 0x00000000], .reap ⟨5, 0, 5, 0, 0, 0, 0, false, 0, 0x0, 0x0⟩),
    ([0x000004B5, 0x00000002, 0x00000000], .exit ⟨5, 0, 0, 0, 0, 0, 0, false, 0, 0x0, 0x0⟩),
    ([0x00C504B5, 0x00000003, 0x00000000], .resole ⟨5, 0, 5, 6, 0, 0, 0, false, 0, 0x0, 0x0⟩),
    ([0x00051CB5, 0x00000004, 0x00000000], .launch ⟨5, 3, 5, 0, 0, 0, 0, false, 0, 0x0, 0x0⟩),
    ([0x00051CB5, 0x00000005, 0x00000000], .migrate ⟨5, 3, 5, 0, 0, 0, 0, false, 0, 0x0, 0x0⟩),
    ([0x000004B5, 0x15000006, 0x00000000], .yield ⟨5, 0, 0, 0, 0, 0, 0, false, 0, 0x15, 0x0⟩)
    ] : List (List W32 × Instr)), decode p.1 = some p.2 ∧ p.2.wf = true ∧ encode p.2 = p.1 := by decide +kernel

theorem test_decode_rendezvous : ∀ p ∈ ([
    ([0x000504D5, 0x17000000, 0x00000000], .rdvinit ⟨5, 0, 5, 0, 0, 0, 0, false, 0, 0x17, 0x0⟩),
    ([0x000004D5, 0x17000001, 0x00000000], .arrive ⟨5, 0, 0, 0, 0, 0, 0, false, 0, 0x17, 0x0⟩),
    ([0x000004D5, 0x17000002, 0x00000000], .rdvwait ⟨5, 0, 0, 0, 0, 0, 0, false, 0, 0x17, 0x0⟩),
    ([0x000504D5, 0x37000002, 0x00000000], .rdvwaitPhase ⟨5, 0, 5, 0, 0, 0, 0, false, 0, 0x37, 0x0⟩)
    ] : List (List W32 × Instr)), decode p.1 = some p.2 ∧ p.2.wf = true ∧ encode p.2 = p.1 := by decide +kernel

/-! ### Ill-formed terms, one for each check of Instr.wf on each instruction -/

theorem test_ill_formed_short_forms : ∀ i ∈ ([
    .sel ⟨5, 28, 5, 6⟩,
    .clz ⟨5, 3, 5, 1⟩,
    .ctz ⟨5, 3, 5, 1⟩,
    .popc ⟨5, 3, 5, 1⟩,
    .bfi ⟨5, 28, 5, 6⟩,
    .movi ⟨5, 3, 1, 0x7FD⟩,
    .moviLit ⟨5, 3, 1, 0x8123456789ABCDEF⟩,
    .ffma ⟨5, 28, 5, 6⟩,
    .fabs ⟨5, 3, 5, 1⟩,
    .fneg ⟨5, 3, 5, 1⟩,
    .fcvtif ⟨5, 3, 5, 1⟩,
    .fcvtfi ⟨5, 3, 5, 1⟩,
    .fclass ⟨5, 3, 5, 1⟩,
    .br ⟨5, 6, 5, 6, 0xFD⟩,
    .brLong ⟨5, 6, 5, 6, 0xFFFFFFF0⟩,
    .jmpLit ⟨5, 0x2⟩,
    .jmpLit ⟨5, 0x100000000000000⟩,
    .callLit ⟨5, 0x2⟩,
    .callLit ⟨5, 0x100000000000000⟩,
    .jr ⟨5, 1, 5, 0⟩,
    .jr ⟨5, 0, 5, 1⟩,
    .callr ⟨5, 3, 5, 1⟩,
    .nop ⟨5, 1, 0, 0⟩,
    .nop ⟨5, 0, 1, 0⟩,
    .nop ⟨5, 0, 0, 1⟩,
    .tret ⟨5, 1, 0, 0⟩,
    .tret ⟨5, 0, 1, 0⟩,
    .tret ⟨5, 0, 0, 1⟩,
    .mfs ⟨5, 3, 1, 13⟩,
    .mfs ⟨5, 3, 0, 16⟩,
    .mts ⟨5, 1, 5, 7⟩,
    .mts ⟨5, 0, 5, 8⟩,
    .rdtime ⟨5, 3, 1, 0⟩,
    .rdtime ⟨5, 3, 0, 1⟩,
    .getid ⟨5, 3, 1, 6⟩,
    .getid ⟨5, 3, 0, 8⟩,
    .ld ⟨5, 3, 5, 7, 0xFD⟩,
    .ldLit ⟨5, 3, 5, 7, 0x8123456789ABCDEF⟩,
    .st ⟨5, 3, 5, 4, 0xFD⟩,
    .stLit ⟨5, 3, 5, 4, 0x8123456789ABCDEF⟩,
    .ldAcq ⟨5, 3, 5, 7, 0xFD⟩,
    .ldAcqLit ⟨5, 3, 5, 7, 0x8123456789ABCDEF⟩,
    .stRel ⟨5, 3, 5, 4, 0xFD⟩,
    .stRelLit ⟨5, 3, 5, 4, 0x8123456789ABCDEF⟩,
    .pfetch ⟨5, 1, 5, 0⟩,
    .pfetch ⟨5, 0, 5, 1⟩,
    .l1inv ⟨5, 1, 0, 0⟩,
    .l1inv ⟨5, 0, 1, 0⟩,
    .l1inv ⟨5, 0, 0, 1⟩,
    .amocas ⟨5, 28, 5, 6, 2⟩,
    .fenceC ⟨5, 1, 0, 0⟩,
    .fenceC ⟨5, 0, 1, 0⟩,
    .fenceC ⟨5, 0, 0, 1⟩,
    .fenceK ⟨5, 1, 0, 0⟩,
    .fenceK ⟨5, 0, 1, 0⟩,
    .fenceK ⟨5, 0, 0, 1⟩,
    .fenceP ⟨5, 1, 0, 0⟩,
    .fenceP ⟨5, 0, 1, 0⟩,
    .fenceP ⟨5, 0, 0, 1⟩,
    .fenceS ⟨5, 3, 5, 1⟩
    ] : List Instr), i.wf = false := by decide +kernel

/-- One instruction with its operands changed in one place after another. -/
def each (mk : XF → Instr) (f : XF) (changes : List (XF → XF)) : List Instr := changes.map fun c => mk (c f)

def setD (n : BitVec 5) (f : XF) : XF := { f with d := n }
def setA (n : BitVec 5) (f : XF) : XF := { f with a := n }
def setB (n : BitVec 5) (f : XF) : XF := { f with b := n }
def setC (n : BitVec 5) (f : XF) : XF := { f with c := n }
def setEt (n : BitVec 4) (f : XF) : XF := { f with et := n }
def setK (n : BitVec 3) (f : XF) : XF := { f with k := n }
def setKneg (f : XF) : XF := { f with kneg := true }
def setRo (n : BitVec 3) (f : XF) : XF := { f with ro := n }
def setAux8 (n : BitVec 8) (f : XF) : XF := { f with aux8 := n }
def setAux32 (n : BitVec 32) (f : XF) : XF := { f with aux32 := n }

theorem test_ill_formed_vector_integer : ∀ i ∈
    each .vadd ⟨5, 26, 24, 18, 0, 8, 5, true, 0, 0x0, 0x0⟩ [setD 20, setA 20, setB 20, setC 1, setK 0, setRo 1, setEt 9, setEt 0, setAux8 2, setAux32 2] ++
    each .vsub ⟨5, 26, 24, 18, 0, 8, 5, true, 0, 0x0, 0x0⟩ [setD 20, setA 20, setB 20, setC 1, setK 0, setRo 1, setEt 9, setEt 0, setAux8 2, setAux32 2] ++
    each .vmul ⟨5, 26, 24, 18, 0, 8, 5, true, 0, 0x0, 0x0⟩ [setD 20, setA 20, setB 20, setC 1, setK 0, setRo 1, setEt 9, setEt 0, setAux8 2, setAux32 2] ++
    each .vmulh ⟨5, 26, 24, 18, 0, 8, 5, true, 0, 0x0, 0x0⟩ [setD 20, setA 20, setB 20, setC 1, setK 0, setRo 1, setEt 9, setEt 0, setAux8 2, setAux32 2] ++
    each .vmad ⟨5, 26, 24, 18, 9, 8, 5, true, 0, 0x0, 0x0⟩ [setD 20, setA 20, setB 20, setC 20, setK 0, setRo 1, setEt 9, setEt 0, setAux8 2, setAux32 2] ++
    each .vmacw ⟨5, 8, 24, 18, 0, 2, 5, true, 0, 0x0, 0x0⟩ [setD 16, setA 20, setB 20, setC 1, setK 0, setRo 1, setEt 3, setEt 0, setAux8 2, setAux32 2, setD 9] ++
    each .vdot4 ⟨5, 3, 24, 18, 0, 2, 5, true, 0, 0x0, 0x0⟩ [setD 16, setA 20, setB 20, setC 1, setK 0, setRo 1, setEt 3, setEt 0, setAux8 2, setAux32 2] ++
    each .vmin ⟨5, 26, 24, 18, 0, 8, 5, true, 0, 0x0, 0x0⟩ [setD 20, setA 20, setB 20, setC 1, setK 0, setRo 1, setEt 9, setEt 0, setAux8 2, setAux32 2] ++
    each .vmax ⟨5, 26, 24, 18, 0, 8, 5, true, 0, 0x0, 0x0⟩ [setD 20, setA 20, setB 20, setC 1, setK 0, setRo 1, setEt 9, setEt 0, setAux8 2, setAux32 2] ++
    each .vabs ⟨5, 26, 24, 0, 0, 5, 5, true, 0, 0x0, 0x0⟩ [setD 20, setA 20, setB 1, setC 1, setK 0, setRo 1, setEt 8, setEt 0, setAux8 2, setAux32 2, setEt 6] ++
    each .vand ⟨5, 26, 24, 18, 0, 8, 5, true, 0, 0x0, 0x0⟩ [setD 20, setA 20, setB 20, setC 1, setK 0, setRo 1, setEt 9, setEt 0, setAux8 2, setAux32 2] ++
    each .vor ⟨5, 26, 24, 18, 0, 8, 5, true, 0, 0x0, 0x0⟩ [setD 20, setA 20, setB 20, setC 1, setK 0, setRo 1, setEt 9, setEt 0, setAux8 2, setAux32 2] ++
    each .vxor ⟨5, 26, 24, 18, 0, 8, 5, true, 0, 0x0, 0x0⟩ [setD 20, setA 20, setB 20, setC 1, setK 0, setRo 1, setEt 9, setEt 0, setAux8 2, setAux32 2] ++
    each .vshli ⟨5, 26, 24, 0, 0, 8, 5, true, 0, 0x15, 0x0⟩ [setD 20, setA 20, setB 1, setC 1, setK 0, setRo 1, setEt 9, setEt 0, setAux32 2] ++
    each .vshri ⟨5, 26, 24, 0, 0, 8, 5, true, 0, 0x15, 0x0⟩ [setD 20, setA 20, setB 1, setC 1, setK 0, setRo 1, setEt 9, setEt 0, setAux32 2] ++
    each .vsrai ⟨5, 26, 24, 0, 0, 8, 5, true, 0, 0x15, 0x0⟩ [setD 20, setA 20, setB 1, setC 1, setK 0, setRo 1, setEt 9, setEt 0, setAux32 2] ++
    each .vrshr ⟨5, 26, 24, 0, 0, 8, 5, true, 0, 0x15, 0x0⟩ [setD 20, setA 20, setB 1, setC 1, setK 0, setRo 1, setEt 9, setEt 0, setAux32 2]
    , i.wf = false := by decide +kernel

theorem test_ill_formed_vector_float : ∀ i ∈
    each .vfadd ⟨5, 26, 24, 18, 0, 11, 5, true, 6, 0x0, 0x0⟩ [setD 20, setA 20, setB 20, setC 1, setK 0, setRo 7, setEt 12, setEt 8, setAux8 2, setAux32 2] ++
    each .vfsub ⟨5, 26, 24, 18, 0, 11, 5, true, 6, 0x0, 0x0⟩ [setD 20, setA 20, setB 20, setC 1, setK 0, setRo 7, setEt 12, setEt 8, setAux8 2, setAux32 2] ++
    each .vfmul ⟨5, 26, 24, 18, 0, 11, 5, true, 6, 0x0, 0x0⟩ [setD 20, setA 20, setB 20, setC 1, setK 0, setRo 7, setEt 12, setEt 8, setAux8 2, setAux32 2] ++
    each .vffma ⟨5, 26, 24, 18, 9, 11, 5, true, 6, 0x0, 0x0⟩ [setD 20, setA 20, setB 20, setC 20, setK 0, setRo 7, setEt 12, setEt 8, setAux8 2, setAux32 2] ++
    each .vfmin ⟨5, 26, 24, 18, 0, 11, 5, true, 6, 0x0, 0x0⟩ [setD 20, setA 20, setB 20, setC 1, setK 0, setRo 7, setEt 12, setEt 8, setAux8 2, setAux32 2] ++
    each .vfmax ⟨5, 26, 24, 18, 0, 11, 5, true, 6, 0x0, 0x0⟩ [setD 20, setA 20, setB 20, setC 1, setK 0, setRo 7, setEt 12, setEt 8, setAux8 2, setAux32 2]
    , i.wf = false := by decide +kernel

theorem test_ill_formed_vector_memory : ∀ i ∈
    each .vld ⟨5, 26, 5, 0, 0, 13, 5, true, 0, 0x0, 0x12345678⟩ [setD 20, setB 1, setC 1, setK 0, setRo 1, setEt 14, setAux8 2] ++
    each .vst ⟨5, 0, 5, 18, 0, 13, 5, true, 0, 0x0, 0x12345678⟩ [setD 1, setB 20, setC 1, setK 0, setRo 1, setEt 14, setAux8 2]
    , i.wf = false := by decide +kernel

theorem test_ill_formed_vector_permute : ∀ i ∈
    each .vsplat ⟨5, 26, 5, 0, 0, 13, 5, true, 0, 0x0, 0x0⟩ [setD 20, setB 1, setC 1, setK 0, setRo 1, setEt 14, setEt 0, setAux8 2, setAux32 2] ++
    each (fun x => .vsplatLit ⟨x, 0x8123456789ABCDEF⟩) ⟨5, 26, 0, 0, 0, 13, 5, true, 0, 0x0, 0x0⟩ [setD 20, setA 1, setB 1, setC 1, setK 0, setRo 1, setEt 14, setEt 0, setAux8 2, setAux32 2] ++
    each .vperm ⟨5, 26, 24, 18, 0, 13, 5, true, 0, 0x0, 0x0⟩ [setD 20, setA 20, setB 20, setC 1, setK 0, setRo 1, setEt 14, setEt 0, setAux8 2, setAux32 2] ++
    each (fun x => .vpermLit ⟨x, 0x8123456789ABCDEF⟩) ⟨5, 26, 24, 0, 0, 13, 5, true, 0, 0x0, 0x0⟩ [setD 20, setA 20, setB 1, setC 1, setK 0, setRo 1, setEt 14, setEt 0, setAux8 2, setAux32 2] ++
    each .vslide ⟨5, 26, 24, 18, 0, 1, 5, true, 0, 0x10, 0x0⟩ [setD 20, setA 20, setB 20, setC 1, setK 0, setRo 1, setEt 14, setEt 0, setAux32 2, setAux8 17] ++
    each .vred ⟨5, 26, 24, 0, 0, 11, 5, true, 0, 0x2, 0x0⟩ [setD 20, setA 20, setB 1, setC 1, setK 0, setRo 1, setEt 12, setEt 0, setAux8 3, setAux32 2] ++
    each .vsel ⟨5, 26, 24, 18, 0, 13, 5, true, 0, 0x0, 0x0⟩ [setD 20, setA 20, setB 20, setC 1, setK 0, setRo 1, setEt 14, setEt 0, setAux8 2, setAux32 2] ++
    each .vcmp ⟨5, 3, 24, 18, 0, 13, 5, true, 0, 0x5, 0x0⟩ [setD 8, setA 20, setB 20, setC 1, setK 0, setRo 1, setEt 14, setEt 0, setAux8 6, setAux32 2] ++
    each .kand ⟨5, 3, 5, 6, 0, 0, 0, false, 0, 0x0, 0x0⟩ [setD 8, setA 8, setB 8, setC 1, setK 1, setKneg, setRo 1, setEt 1, setAux8 2, setAux32 2] ++
    each .kor ⟨5, 3, 5, 6, 0, 0, 0, false, 0, 0x0, 0x0⟩ [setD 8, setA 8, setB 8, setC 1, setK 1, setKneg, setRo 1, setEt 1, setAux8 2, setAux32 2] ++
    each .knot ⟨5, 3, 5, 0, 0, 0, 0, false, 0, 0x0, 0x0⟩ [setD 8, setA 8, setB 1, setC 1, setK 1, setKneg, setRo 1, setEt 1, setAux8 2, setAux32 2] ++
    each .kmov ⟨5, 3, 5, 0, 0, 0, 0, false, 0, 0x0, 0x0⟩ [setD 8, setA 8, setB 1, setC 1, setK 1, setKneg, setRo 1, setEt 1, setAux8 2, setAux32 2] ++
    each .kmovImm ⟨5, 3, 0, 0, 0, 0, 0, false, 0, 0x0, 0x1A5A5⟩ [setD 8, setA 1, setB 1, setC 1, setK 1, setKneg, setRo 1, setEt 1, setAux8 2, setAux32 42405]
    , i.wf = false := by decide +kernel

theorem test_ill_formed_vector_conversion : ∀ i ∈
    each .vfcvt ⟨5, 2, 24, 0, 0, 9, 5, true, 6, 0x1A, 0x0⟩ [setD 20, setA 20, setB 1, setC 1, setK 0, setRo 7, setAux32 2, setAux8 0x5A, setAux8 0x19, setAux8 0x2A, setAux8 0x10, setEt 0, setEt 14] ++
    each .vnarrow ⟨5, 26, 12, 0, 0, 2, 5, true, 0, 0x1, 0x0⟩ [setD 20, setA 16, setB 1, setC 1, setK 0, setRo 1, setEt 5, setEt 0, setAux8 2, setAux32 2, setA 13] ++
    each .vwiden ⟨5, 12, 24, 0, 0, 2, 5, true, 0, 0x0, 0x0⟩ [setD 16, setA 20, setB 1, setC 1, setK 0, setRo 1, setEt 5, setEt 0, setAux8 2, setAux32 2, setD 13]
    , i.wf = false := by decide +kernel

theorem test_ill_formed_special_functions : ∀ i ∈
    each .srcp ⟨5, 26, 24, 0, 0, 11, 5, true, 0, 0x0, 0x0⟩ [setD 20, setA 20, setB 1, setC 1, setK 0, setRo 1, setEt 12, setEt 8, setAux8 2, setAux32 2] ++
    each .srsq ⟨5, 26, 24, 0, 0, 11, 5, true, 0, 0x0, 0x0⟩ [setD 20, setA 20, setB 1, setC 1, setK 0, setRo 1, setEt 12, setEt 8, setAux8 2, setAux32 2] ++
    each .sexp2 ⟨5, 26, 24, 0, 0, 11, 5, true, 0, 0x0, 0x0⟩ [setD 20, setA 20, setB 1, setC 1, setK 0, setRo 1, setEt 12, setEt 8, setAux8 2, setAux32 2] ++
    each .slog2 ⟨5, 26, 24, 0, 0, 11, 5, true, 0, 0x0, 0x0⟩ [setD 20, setA 20, setB 1, setC 1, setK 0, setRo 1, setEt 12, setEt 8, setAux8 2, setAux32 2] ++
    each .ssin ⟨5, 26, 24, 0, 0, 11, 5, true, 0, 0x0, 0x0⟩ [setD 20, setA 20, setB 1, setC 1, setK 0, setRo 1, setEt 12, setEt 8, setAux8 2, setAux32 2] ++
    each .scos ⟨5, 26, 24, 0, 0, 11, 5, true, 0, 0x0, 0x0⟩ [setD 20, setA 20, setB 1, setC 1, setK 0, setRo 1, setEt 12, setEt 8, setAux8 2, setAux32 2] ++
    each .stanh ⟨5, 26, 24, 0, 0, 11, 5, true, 0, 0x0, 0x0⟩ [setD 20, setA 20, setB 1, setC 1, setK 0, setRo 1, setEt 12, setEt 8, setAux8 2, setAux32 2] ++
    each .ssigm ⟨5, 26, 24, 0, 0, 11, 5, true, 0, 0x0, 0x0⟩ [setD 20, setA 20, setB 1, setC 1, setK 0, setRo 1, setEt 12, setEt 8, setAux8 2, setAux32 2]
    , i.wf = false := by decide +kernel

theorem test_ill_formed_feeds : ∀ i ∈
    each .stbind ⟨5, 18, 5, 0, 0, 0, 0, false, 0, 0x1, 0x3F⟩ [setB 1, setC 1, setD 3, setK 1, setKneg, setRo 1, setEt 1, setAux8 2, setAux32 64] ++
    each .stend ⟨5, 18, 0, 0, 0, 0, 0, false, 0, 0x0, 0x0⟩ [setA 1, setB 1, setC 1, setD 3, setK 1, setKneg, setRo 1, setEt 1, setAux8 2, setAux32 2] ++
    each .chbind ⟨5, 30, 5, 0, 0, 0, 0, false, 0, 0x0, 0x0⟩ [setB 1, setC 1, setD 3, setK 1, setKneg, setRo 1, setEt 1, setAux8 2, setAux32 2] ++
    each .chend ⟨5, 30, 0, 0, 0, 0, 0, false, 0, 0x0, 0x0⟩ [setA 1, setB 1, setC 1, setD 3, setK 1, setKneg, setRo 1, setEt 1, setAux8 2, setAux32 2]
    , i.wf = false := by decide +kernel

theorem test_ill_formed_matrix : ∀ i ∈
    each .mxldw ⟨5, 1, 5, 6, 0, 15, 0, false, 0, 0x2, 0x0⟩ [setD 2, setC 1, setK 1, setKneg, setRo 1, setAux32 2, setAux8 3, setEt 2, setEt 9, setEt 14] ++
    each .mxswap ⟨5, 1, 0, 0, 0, 0, 0, false, 0, 0x0, 0x0⟩ [setD 2, setA 1, setB 1, setC 1, setK 1, setKneg, setRo 1, setEt 1, setAux8 2, setAux32 2] ++
    each .mxq ⟨5, 0, 5, 0, 0, 0, 0, false, 0, 0x0, 0x0⟩ [setD 1, setB 1, setC 1, setK 1, setKneg, setRo 1, setEt 1, setAux8 2, setAux32 2] ++
    each .mxwaitv ⟨5, 3, 0, 0, 0, 0, 0, false, 0, 0x0, 0xFFFF⟩ [setD 16, setA 1, setB 1, setC 1, setK 1, setKneg, setRo 1, setEt 1, setAux8 2, setAux32 65536] ++
    each .mxwaitvReg ⟨5, 3, 5, 0, 0, 0, 0, false, 0, 0x1, 0x0⟩ [setD 16, setB 1, setC 1, setK 1, setKneg, setRo 1, setEt 1, setAux8 3, setAux32 2] ++
    each .mxdrain ⟨5, 3, 5, 6, 0, 11, 0, false, 0, 0x0, 0x0⟩ [setD 16, setC 1, setK 1, setKneg, setRo 1, setEt 1, setAux8 2, setAux32 2, setEt 10] ++
    each .mxdrainCe ⟨5, 3, 5, 0, 0, 0, 0, false, 0, 0x1, 0x0⟩ [setD 16, setB 1, setC 1, setK 1, setKneg, setRo 1, setEt 1, setAux8 3, setAux32 2] ++
    each .mxzero ⟨5, 3, 0, 0, 0, 0, 0, false, 0, 0x0, 0x0⟩ [setD 16, setA 1, setB 1, setC 1, setK 1, setKneg, setRo 1, setEt 1, setAux8 2, setAux32 2] ++
    each .mxzeroLd ⟨5, 3, 5, 0, 0, 0, 0, false, 0, 0x1, 0x0⟩ [setD 16, setB 1, setC 1, setK 1, setKneg, setRo 1, setEt 1, setAux8 3, setAux32 2] ++
    each .mxcb ⟨5, 1, 5, 0, 7, 0, 0, false, 0, 0x0, 0x0⟩ [setD 2, setB 1, setC 8, setK 1, setKneg, setRo 1, setEt 1, setAux8 2, setAux32 2] ++
    each .scacc ⟨5, 3, 5, 6, 7, 15, 0, false, 0, 0x2, 0x12345678⟩ [setD 16, setC 16, setK 1, setKneg, setRo 1, setEt 16, setAux8 3] ++
    each .mxstat ⟨5, 3, 0, 0, 7, 0, 0, false, 0, 0x0, 0x0⟩ [setA 1, setB 1, setC 16, setK 1, setKneg, setRo 1, setEt 1, setAux8 2, setAux32 2] ++
    each .normref ⟨5, 0, 5, 0, 0, 0, 0, false, 0, 0x3F, 0x0⟩ [setD 1, setB 1, setC 1, setK 1, setKneg, setRo 1, setEt 1, setAux8 64, setAux32 2] ++
    each .normrd ⟨5, 3, 5, 0, 0, 0, 0, false, 0, 0x3F, 0x0⟩ [setB 1, setC 1, setK 1, setKneg, setRo 1, setEt 1, setAux8 64, setAux32 2]
    , i.wf = false := by decide +kernel

theorem test_ill_formed_transfer : ∀ i ∈
    each .send ⟨5, 3, 5, 6, 7, 0, 0, false, 0, 0xFF, 0xFF007F⟩ [setK 1, setKneg, setRo 1, setEt 1, setAux32 0x80, setAux32 0x1000000] ++
    each .mbwait ⟨5, 3, 5, 0, 0, 0, 0, false, 0, 0x3F, 0x0⟩ [setB 1, setC 1, setK 1, setKneg, setRo 1, setEt 1, setAux8 64, setAux32 2] ++
    each .mbread ⟨5, 3, 0, 0, 0, 0, 0, false, 0, 0x3F, 0x0⟩ [setA 1, setB 1, setC 1, setK 1, setKneg, setRo 1, setEt 1, setAux8 64, setAux32 2] ++
    each .mbset ⟨5, 0, 5, 0, 0, 0, 0, false, 0, 0x3F, 0x0⟩ [setD 1, setB 1, setC 1, setK 1, setKneg, setRo 1, setEt 1, setAux8 64, setAux32 2] ++
    each .hclaim ⟨5, 0, 5, 6, 0, 0, 0, false, 0, 0x3F, 0x73F⟩ [setD 1, setC 1, setK 1, setKneg, setRo 1, setEt 1, setAux8 64, setAux32 0x40, setAux32 0x800] ++
    each .hwait ⟨5, 3, 0, 0, 0, 0, 0, false, 0, 0x3F, 0x0⟩ [setA 1, setB 1, setC 1, setK 1, setKneg, setRo 1, setEt 1, setAux8 64, setAux32 2] ++
    each .hfree ⟨5, 0, 0, 0, 0, 0, 0, false, 0, 0x3F, 0x0⟩ [setD 1, setA 1, setB 1, setC 1, setK 1, setKneg, setRo 1, setEt 1, setAux8 64, setAux32 2] ++
    each .hstat ⟨5, 3, 0, 0, 0, 0, 0, false, 0, 0x3F, 0x0⟩ [setA 1, setB 1, setC 1, setK 1, setKneg, setRo 1, setEt 1, setAux8 64, setAux32 2]
    , i.wf = false := by decide +kernel

theorem test_ill_formed_gather_scan : ∀ i ∈
    each .gather ⟨5, 0, 5, 6, 7, 0, 0, false, 0, 0x3F, 0x3F⟩ [setD 1, setK 1, setKneg, setRo 1, setEt 1, setAux8 64, setAux32 64] ++
    each .nzscan ⟨5, 3, 5, 6, 7, 13, 0, false, 0, 0x0, 0x0⟩ [setK 1, setKneg, setRo 1, setEt 14, setEt 0, setAux8 2, setAux32 2]
    , i.wf = false := by decide +kernel

theorem test_ill_formed_collective_decode : ∀ i ∈
    each .rscat ⟨5, 0, 5, 0, 0, 0, 0, false, 0, 0x0, 0x0⟩ [setD 1, setB 1, setC 1, setK 1, setKneg, setRo 1, setEt 1, setAux8 2, setAux32 2] ++
    each .vdec ⟨5, 0, 5, 0, 0, 0, 0, false, 0, 0x0, 0x0⟩ [setD 1, setB 1, setC 1, setK 1, setKneg, setRo 1, setEt 1, setAux8 2, setAux32 2]
    , i.wf = false := by decide +kernel

theorem test_ill_formed_gaussian : ∀ i ∈
    each .gmadd ⟨5, 3, 5, 6, 0, 0, 0, false, 0, 0x7, 0x0⟩ [setC 1, setK 1, setKneg, setRo 1, setEt 1, setAux8 8, setAux32 2] ++
    each .gmaddJ ⟨5, 3, 5, 6, 0, 0, 0, false, 0, 0x7, 0x11⟩ [setC 1, setK 1, setKneg, setRo 1, setEt 1, setAux8 8, setAux32 32, setAux32 16, setAux32 19, setAux32 33] ++
    each .gmsub ⟨5, 3, 5, 6, 0, 0, 0, false, 0, 0x7, 0x0⟩ [setC 1, setK 1, setKneg, setRo 1, setEt 1, setAux8 8, setAux32 2] ++
    each .gmsubJ ⟨5, 3, 5, 6, 0, 0, 0, false, 0, 0x7, 0x11⟩ [setC 1, setK 1, setKneg, setRo 1, setEt 1, setAux8 8, setAux32 32, setAux32 16, setAux32 19, setAux32 33] ++
    each .gmschur ⟨5, 3, 5, 0, 0, 0, 0, false, 0, 0x33, 0x0⟩ [setB 1, setC 1, setK 1, setKneg, setRo 1, setEt 1, setAux8 128, setAux32 2, setAux8 0x43, setAux8 0x80] ++
    each .gmdamp ⟨5, 3, 5, 6, 0, 0, 0, false, 0, 0x7, 0xFFFE⟩ [setC 1, setK 1, setKneg, setRo 1, setEt 1, setAux8 8, setAux32 65536, setAux32 0x4001] ++
    each .gmsend ⟨5, 0, 5, 6, 0, 0, 0, false, 0, 0x0, 0x0⟩ [setD 1, setC 1, setK 1, setKneg, setRo 1, setEt 1, setAux8 2, setAux32 2] ++
    each .gmpoll ⟨5, 3, 5, 0, 0, 0, 0, false, 0, 0x3F, 0x0⟩ [setB 1, setC 1, setK 1, setKneg, setRo 1, setEt 1, setAux8 64, setAux32 2] ++
    each .gmmean ⟨5, 3, 5, 0, 0, 0, 0, false, 0, 0x7, 0x0⟩ [setB 1, setC 1, setK 1, setKneg, setRo 1, setEt 1, setAux8 8, setAux32 2]
    , i.wf = false := by decide +kernel

theorem test_ill_formed_groups : ∀ i ∈
    each .start ⟨5, 0, 5, 0, 0, 0, 0, false, 0, 0x0, 0x12345678⟩ [setD 1, setB 1, setC 1, setK 1, setKneg, setRo 1, setEt 1, setAux8 2] ++
    each .startR ⟨5, 0, 5, 6, 0, 0, 0, false, 0, 0x1, 0x0⟩ [setD 1, setC 1, setK 1, setKneg, setRo 1, setEt 1, setAux8 3, setAux32 2] ++
    each .reap ⟨5, 0, 5, 0, 0, 0, 0, false, 0, 0x0, 0x0⟩ [setD 1, setB 1, setC 1, setK 1, setKneg, setRo 1, setEt 1, setAux8 2, setAux32 2] ++
    each .exit ⟨5, 0, 0, 0, 0, 0, 0, false, 0, 0x0, 0x0⟩ [setD 1, setA 1, setB 1, setC 1, setK 1, setKneg, setRo 1, setEt 1, setAux8 2, setAux32 2] ++
    each .resole ⟨5, 0, 5, 6, 0, 0, 0, false, 0, 0x0, 0x0⟩ [setD 1, setC 1, setK 1, setKneg, setRo 1, setEt 1, setAux8 2, setAux32 2] ++
    each .launch ⟨5, 3, 5, 0, 0, 0, 0, false, 0, 0x0, 0x0⟩ [setB 1, setC 1, setK 1, setKneg, setRo 1, setEt 1, setAux8 2, setAux32 2] ++
    each .migrate ⟨5, 3, 5, 0, 0, 0, 0, false, 0, 0x0, 0x0⟩ [setB 1, setC 1, setK 1, setKneg, setRo 1, setEt 1, setAux8 2, setAux32 2] ++
    each .yield ⟨5, 0, 0, 0, 0, 0, 0, false, 0, 0x15, 0x0⟩ [setD 1, setA 1, setB 1, setC 1, setK 1, setKneg, setRo 1, setEt 1, setAux32 2]
    , i.wf = false := by decide +kernel

theorem test_ill_formed_rendezvous : ∀ i ∈
    each .rdvinit ⟨5, 0, 5, 0, 0, 0, 0, false, 0, 0x17, 0x0⟩ [setD 1, setB 1, setC 1, setK 1, setKneg, setRo 1, setEt 1, setAux8 24, setAux32 2] ++
    each .arrive ⟨5, 0, 0, 0, 0, 0, 0, false, 0, 0x17, 0x0⟩ [setD 1, setA 1, setB 1, setC 1, setK 1, setKneg, setRo 1, setEt 1, setAux8 24, setAux32 2] ++
    each .rdvwait ⟨5, 0, 0, 0, 0, 0, 0, false, 0, 0x17, 0x0⟩ [setD 1, setA 1, setB 1, setC 1, setK 1, setKneg, setRo 1, setEt 1, setAux8 24, setAux32 2] ++
    each .rdvwaitPhase ⟨5, 0, 5, 0, 0, 0, 0, false, 0, 0x37, 0x0⟩ [setD 1, setB 1, setC 1, setK 1, setKneg, setRo 1, setEt 1, setAux32 2, setAux8 0x38, setAux8 0x57]
    , i.wf = false := by decide +kernel

/-! ### Words that are no instruction (R58), written by hand -/

theorem test_refused_words : ∀ ws ∈ ([
    [0x00000000], [0x000004E0], [0x000007E0],                                -- majors 0x00, 0x27 and 0x3F
    [0x00000022, 0, 0], [0x00000320], [0x00000323, 0x100, 0, 0, 0],          -- a LEN that the major or the minor does not accept
    [0x78000020], [0x00000321, 0x00000111, 0],                               -- reserved minors of majors 0x01 and 0x19
    [0x00E00240], [0x00800260], [0x000031A0],                                -- reserved SIZE of LD and of ST, reserved COND
    [0x00200162, 0, 0], [0x04000321, 0x00000100, 0], [0x000001A1, 1, 0],     -- fields that must be zero
    [0x000001C2, 2, 0], [0x000001C2, 0, 0x01000000],                         -- a literal target with bit 1, with bit 56
    [0x0000A321, 0x00000100, 0], [0x00000321, 0, 0],                         -- vector code 20; no ETYPE
    [0x00000321, 0x00008100, 0], [0x00000321, 0x00010100, 0],                -- KNEG without K; RO of an integer operation
    [0x00000401, 0x00800008, 0], [0x00000441, 0x00000E01, 0],                -- accumulator 16; ETYPE 14
    [0x00000321, 0x00000100], []                                             -- words missing
    ] : List (List W32)), decode ws = none := by decide +kernel

/-! ### One step of a few instructions, with results worked out by hand from the rule named -/

/-- The small state with w1, w2 and w3, and RND. -/
def regs (w1 w2 w3 : Nat) (rnd : Nat := 0) : State :=
  (small rnd).modCore 1 fun c => { c with sp := by_ 8 (((leBytes 8 w1) ++ leBytes 8 w2 ++ leBytes 8 w3).map (·.toNat)) ++ c.sp.filter fun p => 32 ≤ p.1 }

/-- The value that an instruction leaves for its destination. -/
def result (i : Instr) (s : State) : Nat := match (after (exec i s)).hereCore.pend.getLast? with | some p => p.data.toNat % 2 ^ 64 | none => 0

/-- d is w3, a is w1, b is w2. -/
def r3 : RF := ⟨0, 3, 1, 2⟩
def r2 : RF := ⟨0, 3, 1, 0⟩

/-- R65. -/
theorem test_division : [result (.div r3) (regs (2 ^ 64 - 7) 2 0), result (.rem r3) (regs (2 ^ 64 - 7) 2 0), result (.div r3) (regs 5 0 0), result (.rem r3) (regs 5 0 0),
    result (.div r3) (regs (2 ^ 63) (2 ^ 64 - 1) 0), result (.rem r3) (regs (2 ^ 63) (2 ^ 64 - 1) 0), result (.divu r3) (regs (2 ^ 64 - 7) 2 0), result (.remu r3) (regs 5 0 0)]
    = [2 ^ 64 - 3, 2 ^ 64 - 1, 2 ^ 64 - 1, 5, 2 ^ 63, 0, 2 ^ 63 - 4, 5] := by decide +kernel

/-- R63. -/
theorem test_products : [result (.mul r3) (regs (2 ^ 64 - 1) 3 0), result (.mulh r3) (regs (2 ^ 64 - 1) 2 0), result (.mulhu r3) (regs (2 ^ 64 - 1) 2 0)]
    = [2 ^ 64 - 3, 2 ^ 64 - 1, 1] := by decide +kernel

/-- R63. -/
theorem test_sum_and_difference : [result (.add r3) (regs (2 ^ 64 - 1) 2 0), result (.sub r3) (regs 1 2 0), result (.andn r3) (regs 0xFF 0x0F 0)] = [1, 2 ^ 64 - 1, 0xF0] := by
  decide +kernel

/-- R64. -/
theorem test_shifts : [result (.shl r3) (regs 3 64 0), result (.shl r3) (regs 3 63 0), result (.shr r3) (regs (2 ^ 63) 63 0), result (.sra r3) (regs (2 ^ 63) 200 0),
    result (.rotr r3) (regs 1 65 0), result (.rotr r3) (regs 6 64 0)] = [0, 2 ^ 63, 1, 2 ^ 64 - 1, 2 ^ 63, 6] := by decide +kernel

/-- R63. -/
theorem test_comparisons : [result (.slt r3) (regs (2 ^ 64 - 1) 1 0), result (.sltu r3) (regs (2 ^ 64 - 1) 1 0), result (.min r3) (regs (2 ^ 64 - 1) 1 0),
    result (.minu r3) (regs (2 ^ 64 - 1) 1 0), result (.max r3) (regs (2 ^ 64 - 1) 1 0), result (.maxu r3) (regs (2 ^ 64 - 1) 1 0)]
    = [1, 0, 2 ^ 64 - 1, 1, 1, 2 ^ 64 - 1] := by decide +kernel

/-- R63. -/
theorem test_bits : [result (.sel r3) (regs 5 6 1), result (.sel r3) (regs 5 6 0), result (.clz r2) (regs 0 0 0), result (.clz r2) (regs 1 0 0), result (.ctz r2) (regs 8 0 0),
    result (.ctz r2) (regs 0 0 0), result (.popc r2) (regs 0xF0F0 0 0)] = [5, 6, 64, 63, 3, 64, 8] := by decide +kernel

/-- R66. -/
theorem test_fields : [result (.bfx r3) (regs 0xF0 0x404 0), result (.bfxu r3) (regs 0xF0 0x404 0), result (.bfi r3) (regs 0 0x804 0xFFFF), result (.bfxu r3) (regs (2 ^ 63) 0x7F3F 0),
    result (.bfx r3) (regs 0xF0 4 7)] = [2 ^ 64 - 1, 15, 0xF00F, 1, 0] := by decide +kernel

/-- R67. -/
theorem test_immediates : [result (.addi ⟨0, 3, 1, 0x7FD⟩) (regs 1 0 0), result (.andi ⟨0, 3, 1, 0x7FF⟩) (regs (2 ^ 64 - 5) 0 0), result (.sltiu ⟨0, 3, 1, 0x7FF⟩) (regs 5 0 0),
    result (.shli ⟨0, 3, 1, 0x7FF⟩) (regs 5 0 0), result (.movi ⟨0, 3, 0, 0x400⟩) (regs 5 0 0), result (.oriLit ⟨0, 3, 1, 0x8000000000000000⟩) (regs 5 0 0)]
    = [2 ^ 64 - 2, 2 ^ 64 - 5, 1, 0, 2 ^ 64 - 1024, 2 ^ 63 + 5] := by decide +kernel

/-- R68 with RNE: ties to even, overflow to infinity. -/
theorem test_float_sums : [result (.fadd r3) (regs 0x3F800000 0x33800000 0), result (.fadd r3) (regs 0x3F800001 0x33800000 0), result (.fsub r3) (regs 0x3F800000 0x3F800000 0),
    result (.ffma r3) (regs 0x40000000 0x40400000 0x3F800000), result (.fmul r3) (regs 0x7F7FFFFF 0x40000000 0)]
    = [0x3F800000, 0x3F800002, 0, 0x40E00000, 0x7F800000] := by decide +kernel

/-- R68. -/
theorem test_float_order : [result (.fmin r3) (regs 0x80000000 0 0), result (.fmax r3) (regs 0x80000000 0 0), result (.fmin r3) (regs 0x7FC12345 0 0), result (.fcmplt r3) (regs 0x7FC00000 0 0),
    result (.fcmpeq r3) (regs 0x80000000 0 0), result (.fneg r2) (regs 0x7FC12345 0 0), result (.fabs r2) (regs 0xFFC12345 0 0)]
    = [0x80000000, 0, 0x7FC00000, 0, 1, 0xFFC12345, 0x7FC12345] := by decide +kernel

/-- R68, R39. -/
theorem test_float_conversions : [result (.fcvtif r2) (regs 3 0 0), result (.fcvtif r2) (regs (2 ^ 64 - 1) 0 0), result (.fcvtfi r2) (regs 0x40200000 0 0), result (.fcvtfi r2) (regs 0x7FC00000 0 0),
    result (.fcvtfi r2) (regs 0xFF800000 0 0)] = [0x40400000, 0xBF800000, 2, 0, 2 ^ 63] := by decide +kernel

/-- R69. -/
theorem test_float_classes : [result (.fclass r2) (regs 0xFF800000 0 0), result (.fclass r2) (regs 0x80000001 0 0), result (.fclass r2) (regs 0x80000000 0 0), result (.fclass r2) (regs 0x00800000 0 0),
    result (.fclass r2) (regs 0xFFC00000 0 0)] = [1, 4, 8, 64, 256] := by decide +kernel

/-- Where the context goes on. -/
def goesOn (i : Instr) (s : State) : Nat := (after (exec i s)).here.pc.toNat

/-- R70: LT, LTU, GEU, EQ. -/
theorem test_branches : [goesOn (.br ⟨0, 2, 1, 2, 0xFE⟩) (regs (2 ^ 64 - 1) 1 0), goesOn (.br ⟨0, 4, 1, 2, 0xFE⟩) (regs (2 ^ 64 - 1) 1 0), goesOn (.brLong ⟨0, 5, 1, 2, 0x10000⟩) (regs (2 ^ 64 - 1) 1 0),
    goesOn (.brLong ⟨0, 0, 1, 2, 0x10000⟩) (regs 2 1 0)] = [0xFFFF8, 0x100004, 0x140000, 0x10000C] := by decide +kernel

/-- R71. -/
theorem test_jumps : [goesOn (.jmp ⟨0, 0x1FFFFF⟩) (regs 0 0 0), goesOn (.jmpLit ⟨0, 0x200000⟩) (regs 0 0 0), goesOn (.jr ⟨0, 0, 1, 0⟩) (regs 0x300000 0 0), goesOn (.callr ⟨0, 3, 1, 0⟩) (regs 0x300000 0 0)]
    = [0xFFFFC, 0x200000, 0x300000, 0x300000] := by decide +kernel

/-- R76, R26: TCAUSE, TVAL, TRETPC; the handler of the small group is at 0. -/
theorem test_trap : (let t := after (exec (.trap ⟨0, 5, 0, 0⟩) (regs 0 0 0)); (t.word16 1 0 632, t.word64 1 0 600, t.word64 1 0 608, t.here.pc))
    = (BitVec.ofNat 16 Cause.trap.code, 5, 0x100004, 0) := by decide +kernel

/-- R87: little-endian, signed and unsigned, the displacement in units. -/
theorem test_loads : [result (.ld ⟨0, 3, 1, 0, 0⟩) (regs 0x100 0 0), result (.ld ⟨0, 3, 1, 4, 0⟩) (regs 0x100 0 0), result (.ld ⟨0, 3, 1, 1, 3⟩) (regs 0x100 0 0),
    result (.ld ⟨0, 3, 1, 2, 1⟩) (regs 0x100 0 0), result (.ld ⟨0, 3, 1, 6, 1⟩) (regs 0x100 0 0), result (.ldLit ⟨0, 3, 1, 5, 6⟩) (regs 0x100 0 0)]
    = [2 ^ 64 - 127, 0x81, 2 ^ 64 - 2 ^ 15, 2 ^ 64 - 0x7FFFFF80, 0x80000080, 0x8000] := by decide +kernel

/-- Eight bytes of the core's scratchpad. -/
def bytes8 (s : State) (off : Nat) : Nat := leNat ((List.range 8).map fun k => s.spByte 1 (off + k))

/-- R87. -/
theorem test_stores : [bytes8 (after (exec (.st ⟨0, 2, 1, 1, 0xFF⟩) (regs 0x5102 0x1122334455667788 0))) 0x5100,
    bytes8 (after (exec (.stRelLit ⟨0, 2, 1, 3, 0x100⟩) (regs 0x5000 0x1122334455667788 0))) 0x5100] = [0x7788, 0x1122334455667788] := by decide +kernel

/-- R95. -/
theorem test_atomics : [bytes8 (after (exec (.amoadd ⟨0, 3, 1, 2, 0⟩) (regs 0x100 3 0))) 0x100, bytes8 (after (exec (.amomin ⟨0, 3, 1, 2, 0⟩) (regs 0x100 3 0))) 0x100,
    bytes8 (after (exec (.amocas ⟨0, 3, 1, 2, 0⟩) (regs 0x100 3 0x8000008001FF7F81))) 0x100, bytes8 (after (exec (.amocas ⟨0, 3, 1, 2, 0⟩) (regs 0x100 3 1))) 0x100]
    = [0x8000008001FF7F84, 0x8000008001FF7F81, 3, 0x8000008001FF7F81] := by decide +kernel

/-- R76: the PC from TRETPC, the inhibit bit cleared. -/
theorem test_tret : (let s := (regs 0 0 0).modCore 1 fun c => { c with sp := c.sp ++ by_ 609 [0x20] ++ by_ 634 [0x11] }
    let t := after (exec (.tret ⟨0, 0, 0, 0⟩) s)
    (t.here.pc, t.word16 1 0 634)) = (0x2000, 0x01) := by decide +kernel

/-- The last result of the vector unit and the bytes that it writes. -/
def vresult (i : Instr) (s : State) : Nat × Nat := match (after (exec i s)).hereCore.pend.getLast? with | some p => (p.data.toNat, p.mask.toNat) | none => (0, 0)

/-- R103: lanes wrap each for itself, signed and unsigned order. -/
theorem test_vector_bytes : ((vresult (.vadd (xf 5 0 1 2 1 0 false 0 0)) (small 0)).1 % 2 ^ 32, (vresult (.vmax (xf 5 0 1 2 1 0 false 0 0)) (small 0)).1 % 2 ^ 32,
    (vresult (.vmax (xf 5 0 1 2 2 0 false 0 0)) (small 0)).1 % 2 ^ 32, (vresult (.vadd (xf 5 0 1 2 3 0 false 0 0)) (small 0)).1 % 2 ^ 32)
    = (0xC0EF0F83, 0x01FF7F02, 0xBFFF9081, 0xC1EF0F83) := by decide +kernel

/-- R102: k1 is 0x0A35. -/
theorem test_vector_predicate : vresult (.vadd (xf 5 0 1 2 1 1 false 0 0)) (small 0) = ((vresult (.vadd (xf 5 0 1 2 1 0 false 0 0)) (small 0)).1, 0x0A35) := by
  decide +kernel
end Sys2Proof.Tests

namespace Sys2Proof.Tests.T1
open Sys2Proof.Machine Sys2Proof.Claims

def s0 : State :=
  let sl : Slot := { live := true, serial := 7, gid := 1, region := 0x10000, mode := { det := true }, pc := 0x100000 }
  let co : Core := { on := true, gid := 1, slots := [(0, sl)], sp := [(8,5),(16,9),(wsGctl,0x14)] }
  { State.reset with bootStage := 3, cores := [(0, co)], groups := [(1, { gid := 1, region := 0x10000, header := {}, pitch := [0], state := .running })], serial := 8, regions := [(0x10000, {regid := 1})] }

def c1x0 : RF := { st := 0, d := 3, a := 1, b := 2 }
def c1x1 : IF := { st := 0, d := 3, a := 1, imm := 2 }
def c1x2 : IL := { st := 0, d := 27, a := 27, lit := 2 }

theorem witness_IntegerResults :
    -- .1
    (((Instr.add, 2, fun (x a b : Word) => a + b) ∈ integerOps) ∧ (s0.admits ((Instr.add, 2, fun (x a b : Word) => a + b).fst c1x0) = true) ∧ s0.here.wait = Wait.ready ∧ s0.sound = true ∧ c1x0.a.toNat < 28 ∧ c1x0.b.toNat < 28 ∧ c1x0.d.toNat < 28) ∧
    -- .2.1
    (((Instr.addi, Instr.addiLit, fun (a b : Word) => a + b) ∈ immediateOps) ∧ (s0.admits ((Instr.addi, Instr.addiLit, fun (a b : Word) => a + b).fst c1x1) = true) ∧ c1x1.a.toNat < 28 ∧ c1x1.d.toNat < 28) ∧
    -- .2.2
    ((s0.admits ((Instr.addi, Instr.addiLit, fun (a b : Word) => a + b).snd.fst c1x2) = true) ∧ c1x2.a.toNat < 28 ∧ c1x2.d.toNat < 28) := by
  refine ⟨
    ⟨by simp [integerOps], by decide +kernel⟩,
    ⟨by simp [immediateOps], by decide +kernel⟩,
    by decide +kernel⟩

end Sys2Proof.Tests.T1

namespace Sys2Proof.Tests.T2
open Sys2Proof.Machine Sys2Proof.Claims

def rnd (m : Nat) : List Host.Cell := (BytesOf m)
where BytesOf (m : Nat) : List Host.Cell := if m = 0 then [] else [(576, BitVec.ofNat 8 m)]
def mk (m : Nat) : State :=
  let sl : Slot := { live := true, serial := 7, gid := 1, region := 0x10000, mode := { det := true }, pc := 0x100000 }
  let co : Core := { on := true, gid := 1, slots := [(0, sl)], sp := [(8,5),(10,0x40), (11,0x40),(16,9),(18,0x90),(19,0x3f),(24,7)] ++ rnd m ++ [(wsGctl,0x14)], chans := [(1, { bound := some {cid := 0, remote := 2, gid := 1}, inq := [{ word := 76 }, { word := 78 }], nextSeq := 4 })] }
  { State.reset with bootStage := 3, cores := [(0, co)], groups := [(1, { gid := 1, region := 0x10000, header := {nsafe := 5}, pitch := [0], state := .running })], serial := 8, regions := [(0x10000, {regid := 1})] }
def fm := fun m (_ a b : Word) => BitVec.ofNat 64 (roundF f32 m (FVal.mul (decodeF f32 (low32 a)) (decodeF f32 (low32 b))))
def f0 : RF := { st := 0, d := 3, a := 29, b := 29 }
def f2 : RF := { st := 0, d := 3, a := 28, b := 2 }
def f3 : RF := { st := 0, d := 3, a := 2, b := 31 }
def f4 : RF := { st := 0, d := 28, a := 2, b := 1 }
def g0 : IF := { st := 0, d := 29, a := 29, imm := 5 }
def l0 : IL := { st := 0, d := 29, a := 29, lit := 5 }
def sf (f : RF) : ScalarForm := ⟨.sub f, f.a, f.b, f.d, 4, 2, fun _ a b => a - b⟩
def sl : ScalarForm := ⟨.addiLit l0, l0.a, 0, l0.d, 12, 2, fun _ a _ => a + l0.lit⟩
def b0 : BF := { st := 0, off := -3, cond := 2, a := 29, b := 29 }
def b1 : BF := { st := 0, off := -3, cond := 2, a := 28, b := 29 }
def b2 : BF := { st := 0, off := -3, cond := 2, a := 1, b := 31 }
def h0 : BL := { st := 0, off := -3, cond := 2, a := 29, b := 1 }
def j0 : RF := { st := 0, a := 29, b := 0, d := 0 }
def j2 : RF := { st := 0, a := 28, b := 0, d := 4 }

def c2x0 : RF := { st := 0, d := 3, a := 1, b := 2 }
def c2x2 : RF := { st := 0, d := 3, a := 1, b := 2 }
def c2x3 : RF := { st := 0, d := 3, a := 1, b := 2 }
def c2x4 : RF := { st := 0, d := 3, a := 1, b := 2 }
def c2x6 : BF := { st := 0, off := -3, cond := 2, a := 2, b := 1 }
def c2x8 : BL := { st := 0, off := -3, cond := 4, a := 2, b := 1 }
def c2x9 : JF := { st := 0, off := -3 }
def c2x10 : JL := { st := 0, lit := 0x200000 }
def c2x11 : JF := { st := 0, off := 7 }
def c2x12 : JL := { st := 0, lit := 8 }
def c2x13 : RF := { st := 0, a := 3, b := 0, d := 0}
def c2x14 : RF := { st := 0, a := 0, b := 0, d := 0}
def c2x15 : RF := { st := 0, a := 0, b := 0, d := 4}
def c2x16 : RF := { st := 0, a := 3, b := 0, d := 4}

theorem witness_FloatOperationResults :
    -- .1
    (((Instr.fadd, fun (m : Mode) (x a b : Word) => BitVec.ofNat 64 (roundF f32 m (FVal.add m.down (decodeF f32 (low32 a)) (decodeF f32 (low32 b))))) ∈ roundedOps) ∧ ((mk 1).admits ((Instr.fadd, fun (m : Mode) (x a b : Word) => BitVec.ofNat 64 (roundF f32 m (FVal.add m.down (decodeF f32 (low32 a)) (decodeF f32 (low32 b))))).fst c2x0) = true) ∧ (mk 1).here.wait = Wait.ready ∧ (mk 1).sound = true ∧ c2x0.a.toNat < 28 ∧ c2x0.b.toNat < 28 ∧ c2x0.d.toNat < 28 ∧ BitVec.toNat (rndHere (mk 1)) % 8 < 5) ∧
    -- .2
    (((Instr.fneg, fun (a x : Word) => BitVec.ofNat 64 ((BitVec.toNat a + 2 ^ 31) % 2 ^ 32)) ∈ plainOps) ∧ ((mk 1).admits ((Instr.fneg, fun (a x : Word) => BitVec.ofNat 64 ((BitVec.toNat a + 2 ^ 31) % 2 ^ 32)).fst c2x2) = true) ∧ c2x2.a.toNat < 28 ∧ c2x2.b.toNat < 28 ∧ c2x2.d.toNat < 28) := by
  refine ⟨
    ⟨by simp [roundedOps], by decide +kernel⟩,
    ⟨by simp [plainOps], by decide +kernel⟩⟩

theorem witness_StochasticRoundingDraws :
    -- .1
    ((Instr.fmul, fm) ∈ roundedOps ∧ (mk 5).admits ((Instr.fmul, fm).fst c2x3) = true ∧ (mk 5).here.wait = Wait.ready ∧ (mk 5).sound = true ∧ (mk 5).canonHere = true ∧ (mk 5).quietReg wsRnd = true ∧ c2x3.a.toNat < 28 ∧ c2x3.b.toNat < 28 ∧ c2x3.d.toNat < 28 ∧ BitVec.toNat (rndHere (mk 5)) % 8 = 5) ∧
    -- .2
    ((mk 6).admits ((Instr.fmul, fm).fst c2x4) = true ∧ (mk 6).here.wait = Wait.ready ∧ (mk 6).sound = true ∧ (mk 6).canonHere = true ∧ (mk 6).quietReg wsRnd = true ∧ c2x4.a.toNat < 28 ∧ c2x4.b.toNat < 28 ∧ c2x4.d.toNat < 28 ∧ 6 ≤ BitVec.toNat (rndHere (mk 6)) % 8) := by
  refine ⟨
    ⟨by unfold fm; simp [roundedOps], by decide +kernel⟩,
    by decide +kernel⟩

theorem witness_ChannelOperands_1 :
    -- .1.1
    (sf f0 ∈ scalarForms (modeNumbered (BitVec.toNat (rndHere (mk 5)) % 8)) f0 g0 l0 ∧ channelsBound (mk 5) [(sf f0).a, (sf f0).b, (sf f0).d] ∧ (mk 5).sound = true ∧ (sf f0).ins.wf = true ∧ (mk 5).admits (sf f0).ins = true ∧ ((sf f0).lat = 6 → BitVec.toNat (rndHere (mk 5)) % 8 < 5) ∧ (mk 5).here.wait = Wait.ready) ∧
    -- .1.2.1
    (sf f2 ∈ scalarForms (modeNumbered (BitVec.toNat (rndHere (mk 5)) % 8)) f2 g0 l0 ∧ (sf f2).ins.wf = true ∧ (mk 5).admits (sf f2).ins = true ∧ ((sf f2).lat = 6 → BitVec.toNat (rndHere (mk 5)) % 8 < 5) ∧ 0 < 4 ∧ ((mk 5).chan (mk 5).curCid 0).bound = none ∧ (sf f2).a.toNat = 28 + 0) ∧
    -- .1.2.2.1
    (sf f3 ∈ scalarForms (modeNumbered (BitVec.toNat (rndHere (mk 5)) % 8)) f3 g0 l0 ∧ (sf f3).ins.wf = true ∧ (mk 5).admits (sf f3).ins = true ∧ ((sf f3).lat = 6 → BitVec.toNat (rndHere (mk 5)) % 8 < 5) ∧ 3 < 4 ∧ ((mk 5).chan (mk 5).curCid 3).bound = none ∧ (sf f3).b.toNat = 28 + 3 ∧ (sf f3).a.toNat < 28) ∧
    -- .1.2.2.2
    (sf f4 ∈ scalarForms (modeNumbered (BitVec.toNat (rndHere (mk 5)) % 8)) f4 g0 l0 ∧ (sf f4).ins.wf = true ∧ (mk 5).admits (sf f4).ins = true ∧ ((sf f4).lat = 6 → BitVec.toNat (rndHere (mk 5)) % 8 < 5) ∧ (sf f4).d.toNat = 28 + 0 ∧ (sf f4).a.toNat < 28 ∧ (sf f4).b.toNat < 28) := by
  refine ⟨
    ⟨by simp [scalarForms, integerOps, roundedOps, plainOps, immediateOps, sf], by delta channelsBound; decide +kernel, by decide +kernel⟩,
    ⟨by simp [scalarForms, integerOps, roundedOps, plainOps, immediateOps, sf], by decide +kernel⟩,
    ⟨by simp [scalarForms, integerOps, roundedOps, plainOps, immediateOps, sf], by decide +kernel⟩,
    ⟨by simp [scalarForms, integerOps, roundedOps, plainOps, immediateOps, sf], by decide +kernel⟩⟩

theorem witness_ChannelOperands_2 :
    -- .2.1.1
    ((Instr.br b0, 2, 29, 29, -12, 4) ∈ branchForms b0 h0 ∧ channelsBound (mk 5) [29, 29] ∧ 2 < 6 ∧ (mk 5).admits (Instr.br b0) = true) ∧
    -- .2.1.2.1
    ((Instr.br b1, 2, 28, 29, -12, 4) ∈ branchForms b1 h0 ∧ (mk 5).admits (Instr.br b1) = true ∧ (28 : Word).toNat = 28 + 0) ∧
    -- .2.1.2.2
    ((Instr.br b2, 2, 1, 31, -12, 4) ∈ branchForms b2 h0 ∧ (mk 5).admits (Instr.br b2) = true ∧ (31 : Word).toNat = 28 + 3 ∧ (1 : Word).toNat < 28) ∧
    -- .2.2.1
    ((Instr.jr j0, 0) ∈ [(Instr.jr j0, 0), (Instr.callr j0, j0.d)] ∧ channelsBound (mk 5) [j0.a, 0] ∧ (mk 5).admits (Instr.jr j0) = true ∧ BitVec.toNat (fieldValue (mk 5) j0.a 0) % 4 = 0) ∧
    -- .2.2.2
    ((Instr.callr j2, 4) ∈ [(Instr.jr j2, 0), (Instr.callr j2, j2.d)] ∧ (mk 5).admits (Instr.callr j2) = true ∧ j2.a.toNat = 28 + 0) := by
  refine ⟨
    ⟨by delta branchForms; decide +kernel, by delta channelsBound; decide +kernel, by decide +kernel⟩,
    ⟨by delta branchForms; decide +kernel, by decide +kernel⟩,
    ⟨by delta branchForms; decide +kernel, by decide +kernel⟩,
    ⟨by decide +kernel, by delta channelsBound; decide +kernel, by decide +kernel⟩,
    ⟨by decide +kernel, by decide +kernel⟩⟩

theorem witness_BranchesAndJumps :
    -- .1
    ((mk 5).admits (Instr.br c2x6) = true ∧ (mk 5).here.wait = Wait.ready ∧ (mk 5).sound = true ∧ c2x6.a.toNat < 28 ∧ c2x6.b.toNat < 28 ∧ c2x6.cond.toNat < 6) ∧
    -- .2.1
    ((mk 5).admits (Instr.brLong c2x8) = true ∧ c2x8.a.toNat < 28 ∧ c2x8.b.toNat < 28 ∧ c2x8.cond.toNat < 6) ∧
    -- .2.2.1
    (mk 5).admits (Instr.jmp c2x9) = true ∧
    -- .2.2.2.1
    (mk 5).admits (Instr.jmpLit c2x10) = true ∧
    -- .2.2.2.2.1
    (mk 5).admits (Instr.call c2x11) = true ∧
    -- .2.2.2.2.2.1
    (mk 5).admits (Instr.callLit c2x12) = true ∧
    -- .2.2.2.2.2.2.1.2
    ((mk 5).admits (Instr.jr c2x13) = true ∧ c2x13.a.toNat < 28 ∧ BitVec.toNat ((mk 5).hereW c2x13.a) % 4 ≠ 0) ∧
    -- .2.2.2.2.2.2.1.1
    ((mk 5).admits (Instr.jr c2x14) = true ∧ c2x14.a.toNat < 28 ∧ BitVec.toNat ((mk 5).hereW c2x14.a) % 4 = 0) ∧
    -- .2.2.2.2.2.2.2.1
    ((mk 5).admits (Instr.callr c2x15) = true ∧ c2x15.a.toNat < 28 ∧ c2x15.d.toNat < 28 ∧ BitVec.toNat ((mk 5).hereW c2x15.a) % 4 = 0) ∧
    -- .2.2.2.2.2.2.2.2
    ((mk 5).admits (Instr.callr c2x16) = true ∧ c2x16.a.toNat < 28 ∧ c2x16.d.toNat < 28 ∧ BitVec.toNat ((mk 5).hereW c2x16.a) % 4 ≠ 0) := by
  refine ⟨?_, ?_, ?_, ?_, ?_, ?_, ?_, ?_, ?_, ?_⟩ <;> decide +kernel

end Sys2Proof.Tests.T2

namespace Sys2Proof.Tests.T3
open Sys2Proof.Machine Sys2Proof.Claims

def rnd (m : Nat) : List Host.Cell := (BytesOf m)
where BytesOf (m : Nat) : List Host.Cell := if m = 0 then [] else [(576, BitVec.ofNat 8 m)]
def mk (m : Nat) : State :=
  let sl : Slot := { live := true, serial := 7, gid := 1, region := 0x10000, mode := { det := true }, pc := 0x100000 }
  let co : Core := { on := true, gid := 1, slots := [(0, sl)], sp := [(8,5),(10,0x40), (11,0x40),(16,9),(18,0x90),(19,0x3f),(24,7)] ++ rnd m ++ [(wsGctl,0x14)], chans := [(1, { bound := some {cid := 0, remote := 2, gid := 1}, inq := [{ word := 77 }, { word := 78 }], nextSeq := 4 })] }
  { State.reset with bootStage := 3, cores := [(0, co)], groups := [(1, { gid := 1, region := 0x10000, header := {nsafe := 5}, pitch := [0], state := .running })], serial := 8, regions := [(0x10000, {regid := 1})] }
def inh : State := { mk 0 with cores := [(0, { (mk 0).core 0 with sp := [(592,0x14),(609,0x20),(634,0x11),(635,0x11)] })] }
def w7 : State := { mk 0 with cores := [(0, { (mk 0).core 0 with sp := [(8,0x1F),(9,0xFF),(592,0x14)] })] }
def lkd : State := (mk 0).modCluster 0 fun c => { c with locks := [{full := true, global := false, core := 0, region := 0, base := 0x240, len := 16, hkind := 3, hidx := 20, holder := 20, since := 0}] }
def lkc : State := { lkd with cycle := 5 }
def gst : State := (mk 0).modSlot 0 0 fun x => { x with guest := true, home := 2 }
def inh2 : State := { mk 0 with cores := [(0, { (mk 0).core 0 with sp := [(592,0x14),(608,2),(609,0x20),(634,0x11),(635,0x11)] })] }
def hi32 : State := { mk 0 with cores := [(0, { (mk 0).core 0 with sp := [(12, 1), (592,0x14)] })] }

def c3x1 : Group := {gid := 1, region := 0x10000, header := {nsafe := 5}, pitch := [0], state := .running}
def c3x4 : Group := {gid := 1, region := 0x10000, header := {nsafe := 5}, pitch := [0], state := .running}
def c3x5 : RF := { st := 0, d := 0, a := 0, b := 0 }
def c3x6 : RF := { st := 0, d := 4, a := 0, b := 0 }
def c3x7 : Group := {gid := 1, region := 0x10000, header := {nsafe := 5}, pitch := [0], state := .running}
def c3x8 : RF := { st := 0, d := 5, a := 0, b := 0 }
def c3x9 : Group := {gid := 1, region := 0x10000, header := {nsafe := 5}, pitch := [0], state := .running}
def c3x10 : RF := { st := 0, d := 4, a := 1, b := 1 }
def c3x11 : RF := { st := 0, d := 4, a := 1, b := 1 }
def c3x12 : RF := { st := 0, d := 0, a := 0, b := 0 }
def c3x13 : RF := { st := 0, d := 0, a := 0, b := 0 }
def c3x32 : RF := { st := 0, d := 0, a := 0, b := 0 }
def c3x14 : RF := { st := 0, d := 3, a := 0, b := 2 }
def c3x17 : RF := { st := 0, d := 3, a := 0, b := 3 }
def c3x18 : RF := { st := 0, d := 3, a := 0, b := 3 }
def c3x19 : Group := {gid := 1, region := 0x10000, header := {nsafe := 5}, pitch := [0], state := .running}
def c3x20 : RF := { st := 0, d := 0, a := 1, b := 7 }
def c3x22 : RF := { st := 0, d := 0, a := 2, b := 1 }
def c3x23 : RF := { st := 0, d := 3, a := 0, b := 1 }
def c3x24 : RF := { st := 0, d := 0, a := 3, b := 0 }
def c3x25 : RF := { st := 0, d := 0, a := 3, b := 12 }
def c3x33 : RF := { st := 0, d := 0, a := 2, b := 1 }
def c3x34 : RF := { st := 0, d := 0, a := 1, b := 11 }

theorem witness_TrapEntry :
    -- .1
    (((mk 0).slot 0 0).guest = false ∧ ((mk 0).slot 0 0).routine = none ∧ (mk 0).inhibited 0 0 = false ∧ ((mk 0).core 0).sp.wf = true ∧ (mk 0).unwatched (Home.scratch 0) (0 * 1024 + 600) 40 = true ∧ (mk 0).group? ((mk 0).slot 0 0).gid = some c3x1) ∧
    -- .2.1
    ((inh.slot 0 0).guest = false ∧ (inh.inhibited 0 0 = true ∨ (inh.slot 0 0).routine.isSome = true)) ∧
    -- .2.2.2
    (inh.group? (inh.slot 0 0).gid = some c3x4 ∧ c3x4.state = GState.running) ∧
    -- .2.2.1.1
    (gst.slot 0 0).guest = true := by
  refine ⟨?_, ?_, ?_, ?_⟩ <;> decide +kernel

theorem witness_SystemInstructions :
    -- .1
    ((mk 0).admits (Instr.nop c3x5) = true ∧ (mk 0).here.wait = Wait.ready) ∧
    -- .2.1.2
    ((mk 0).admits (Instr.safept c3x6) = true ∧ (mk 0).group? (mk 0).here.gid = some c3x7 ∧ sysNumber c3x6 < c3x7.header.nsafe) ∧
    -- .2.1.1
    ((mk 0).admits (Instr.safept c3x8) = true ∧ (mk 0).group? (mk 0).here.gid = some c3x9 ∧ c3x9.header.nsafe ≤ sysNumber c3x8) ∧
    -- .2.2.1
    (mk 0).admits (Instr.trap c3x10) = true ∧
    -- .2.2.2.1
    (mk 0).admits (Instr.bkpt c3x11) = true ∧
    -- .2.2.2.2.1
    ((mk 0).admits (Instr.tret c3x12) = true ∧ (mk 0).sound = true ∧ (mk 0).canonHere = true ∧ (mk 0).quietReg 634 = true ∧ (mk 0).inhibited (mk 0).curCid (mk 0).curSlot = false) ∧
    -- .2.2.2.2.2.2
    (inh.admits (Instr.tret c3x13) = true ∧ inh.here.wait = Wait.ready ∧ inh.sound = true ∧ inh.canonHere = true ∧ inh.quietReg 634 = true ∧ inh.inhibited inh.curCid inh.curSlot = true ∧ BitVec.toNat (inh.word64 inh.curCid inh.curSlot 608) % 4 = 0) ∧
    -- .2.2.2.2.2.1
    (inh2.admits (Instr.tret c3x32) = true ∧ inh2.here.wait = Wait.ready ∧ inh2.sound = true ∧ inh2.canonHere = true ∧ inh2.quietReg 634 = true ∧ inh2.inhibited inh2.curCid inh2.curSlot = true ∧ BitVec.toNat (inh2.word64 inh2.curCid inh2.curSlot 608) % 4 ≠ 0) := by
  refine ⟨?_, ?_, ?_, ?_, ?_, ?_, ?_, ?_⟩ <;> decide +kernel

theorem witness_SpecialRegisters_1 :
    -- .1.1.2
    (inh.admits (Instr.mfs c3x14) = true ∧ inh.here.wait = Wait.ready ∧ inh.sound = true ∧ c3x14.d.toNat < 28 ∧ c3x14.b.toNat < 16 ∧ (∀ (p : Nat × Nat × Nat × Word), p ∈ workspaceRegisters → p.fst = c3x14.b.toNat → registerLocked inh p.snd.fst p.snd.snd.fst false = false)) ∧
    -- .1.2.1
    (inh.admits (Instr.rdtime c3x17) = true ∧ c3x17.d.toNat < 28) ∧
    -- .1.2.2
    (inh.admits (Instr.getid c3x18) = true ∧ c3x18.d.toNat < 28 ∧ c3x18.b.toNat < 8 ∧ (inh.group? inh.here.gid = some c3x19 ∨ inh.here.guest = true)) ∧
    -- .2.1.2.2.1
    ((7, 634, 2, 65311) ∈ workspaceRegisters ∧ c3x20.b.toNat = (7, 634, 2, 65311).fst ∧ w7.admits (Instr.mts c3x20) = true ∧ w7.here.wait = Wait.ready ∧ w7.sound = true ∧ c3x20.a.toNat < 28 ∧ w7.hereW c3x20.a &&& ~~~(7, 634, 2, 65311).snd.snd.snd = 0 ∧ (¬((7, 634, 2, 65311).fst = 0 ∧ 6 ≤ BitVec.toNat (w7.hereW c3x20.a) % 8)) ∧ w7.canonHere = true ∧ w7.here.guest = false ∧ registerLocked w7 (7, 634, 2, 65311).snd.fst (7, 634, 2, 65311).snd.snd.fst true = false ∧ w7.unwritten w7.curCid (workspaceAt w7 (7, 634, 2, 65311).snd.fst) (7, 634, 2, 65311).snd.snd.fst = true ∧ w7.unwatched (Home.scratch w7.curCid) (workspaceAt w7 (7, 634, 2, 65311).snd.fst) (7, 634, 2, 65311).snd.snd.fst = true) := by
  refine ⟨?_, ?_, ?_, ?_⟩ <;> decide +kernel

theorem witness_SpecialRegisters_2 :
    -- .2.1.2.1
    ((1, 584, 8, BitVec.allOnes 64) ∈ workspaceRegisters ∧ c3x22.b.toNat = (1, 584, 8, BitVec.allOnes 64).fst ∧ lkc.admits (Instr.mts c3x22) = true ∧ lkc.here.wait = Wait.ready ∧ lkc.sound = true ∧ c3x22.a.toNat < 28 ∧ lkc.hereW c3x22.a &&& ~~~(1, 584, 8, BitVec.allOnes 64).snd.snd.snd = 0 ∧ (¬((1, 584, 8, BitVec.allOnes 64).fst = 0 ∧ 6 ≤ BitVec.toNat (lkc.hereW c3x22.a) % 8)) ∧ registerLocked lkc (1, 584, 8, BitVec.allOnes 64).snd.fst (1, 584, 8, BitVec.allOnes 64).snd.snd.fst true = true) ∧
    -- .1.1.1
    (lkc.admits (Instr.mfs c3x23) = true ∧ c3x23.d.toNat < 28 ∧ c3x23.b.toNat < 16 ∧ (1, 584, 8, BitVec.allOnes 64).fst = c3x23.b.toNat ∧ registerLocked lkc (1, 584, 8, BitVec.allOnes 64).snd.fst (1, 584, 8, BitVec.allOnes 64).snd.snd.fst false = true) ∧
    -- .2.1.1
    ((0, 576, 8, 18446744069414592263) ∈ workspaceRegisters ∧ c3x24.b.toNat = (0, 576, 8, 18446744069414592263).fst ∧ (mk 0).admits (Instr.mts c3x24) = true ∧ (mk 0).here.wait = Wait.ready ∧ (mk 0).sound = true ∧ c3x24.a.toNat < 28 ∧ ((mk 0).hereW c3x24.a &&& ~~~(0, 576, 8, 18446744069414592263).snd.snd.snd ≠ 0 ∨ (0, 576, 8, 18446744069414592263).fst = 0 ∧ 6 ≤ BitVec.toNat ((mk 0).hereW c3x24.a) % 8)) ∧
    -- .2.2.2
    (11 ≤ c3x25.b.toNat ∧ c3x25.b.toNat < 16 ∧ (mk 0).admits (Instr.mts c3x25) = true ∧ c3x25.a.toNat < 28 ∧ (c3x25.b.toNat ≠ 11 ∨ BitVec.toNat ((mk 0).hereW c3x25.a) / 2 ^ 32 = 0)) := by
  refine ⟨?_, ?_, ?_, ?_⟩ <;> decide +kernel

theorem witness_SpecialRegisters_3 :
    -- .2.1.2.2.2
    (c3x33.b.toNat = (1, 584, 8, BitVec.allOnes 64).fst ∧ gst.admits (Instr.mts c3x33) = true ∧ gst.here.wait = Wait.ready ∧ gst.sound = true ∧ c3x33.a.toNat < 28 ∧ gst.hereW c3x33.a &&& ~~~(1, 584, 8, BitVec.allOnes 64).snd.snd.snd = 0 ∧ (¬((1, 584, 8, BitVec.allOnes 64).fst = 0 ∧ 6 ≤ BitVec.toNat (gst.hereW c3x33.a) % 8)) ∧ gst.canonHere = true ∧ gst.here.guest = true) ∧
    -- .2.2.1
    (11 ≤ c3x34.b.toNat ∧ c3x34.b.toNat < 16 ∧ hi32.admits (Instr.mts c3x34) = true ∧ hi32.here.wait = Wait.ready ∧ hi32.sound = true ∧ c3x34.a.toNat < 28 ∧ c3x34.b.toNat = 11 ∧ BitVec.toNat (hi32.hereW c3x34.a) / 2 ^ 32 ≠ 0) := by
  refine ⟨?_, ?_⟩ <;> decide +kernel

end Sys2Proof.Tests.T3

namespace Sys2Proof.Tests.T4
open Sys2Proof.Machine Sys2Proof.Claims

def base (det : Bool) (cid : Nat) : State :=
  let sl : Slot := { live := true, serial := 7, gid := 1, home := cid, region := 0x10000, mode := { det := det }, pc := 0x100000 }
  let co : Core := { on := true, gid := 1, slots := [(0, sl)], sp := [(8,5),(17,0x50),(26,0x10),(33,0x50),(34,0xF8), (38,0x80), (50,0x14),(57,0x50),(58,0x08), (62,0x80), (wsGctl,0x14),(0x5000,0xF0),(0x5001,0xFF),(0x5007,0x80)], tlb := [{region := 0x10000, va := 0x100000, size := 0x10000, pa := 0x200000, w := true, x := true, cls := 0}, {region := 0x10000, va := 0x140000, size := 0x10000, pa := 0x8020000000000+0x20000, w := true, x := true, cls := 0}] }
  { State.reset with bootStage := 3, curCid := cid, cores := [(cid, co)], groups := [(1, { gid := 1, region := 0x10000, header := {nsafe := 5}, mode := {det := det}, pitch := [cid], state := .running })], serial := 8, regions := [(0x10000, {regid := 1})], mem := [(5,1)] }
def hit : State := (base false 1).modCore 1 fun c => { c with l1 := [{pa := 0x200000, data := 0xABCDEF}] }
def held : State := { base false 1 with net := [{id := 3, kind := .store, cid := 1, slot := 0, serial := 7, region := 0, va := 0, loc := {home := .slice 1, addr := 0}, size := 1, ins := .storeAck, scope := 2}] }
def wf : State := (base true 1).modHere fun x => { x with walked := some 0x170000 }
def lkd : State := { base true 1 with cycle := 5 }.modCluster 0 fun c => { c with locks := [{full := true, global := false, core := 1, region := 0, base := 0x5000, len := 16, hkind := 3, hidx := 20, holder := 20, since := 0}] }
def ro : State := (base true 1).modCore 1 fun c => { c with tlb := [{region := 0x10000, va := 0x100000, size := 0x10000, pa := 0x200000, w := false, x := true, cls := 0}] }
def gue : State := (base true 1).modHere fun x => { x with guest := true, home := 2, frame := by_ 16 [0, 0x50] }
def nref : State := (base false 1).modHere fun x => { x with refusedNode := some 1 }
def wch (e : Word) : Msg := {id := 3, kind := .watch, cid := 1, slot := 3, serial := 9, region := 0, va := 0x5000, loc := {home := .scratch 1, addr := 0x5000}, size := 8, ins := .waitvPoll, scope := 2, watching := true, expect := e, dest := .reg 3 24}
def par (e : Word) : State := ({ base true 1 with net := [wch e] } : State).modSlot 1 3 fun x => { x with live := true, serial := 9, gid := 1, home := 1, region := 0x10000, wait := .watch 3 }

def c4x0 : Claims.MemForm := ⟨5,2,0,1,false,4⟩
def c4x1 : State := (base true 1)
def c4x18 : Claims.MemForm := ⟨5,3,0,1,true,12⟩
def c4x19 : State := (base true 1)
def c4x20 : Loc := (((base true 1).placeOf 0x100000 2 .load).getD {home := .node 3, addr := 0})
def c4x87 : Claims.MemForm := ⟨5,3,0x40000,1,true,12⟩
def c4x88 : Loc := (((base false 1).placeOf 0x140000 2 .load).getD {home := .node 3, addr := 0})
def c4x8 : Claims.MemForm := ⟨2,2,4,2,false,4⟩
def c4x9 : State := (base true 1)
def c4x29 : Claims.MemForm := ⟨5,3,0,2,true,4⟩
def c4x30 : State := (base true 1)
def c4x31 : Loc := (((base true 1).placeOf 0x100000 4 .store).getD {home := .node 3, addr := 0})
def c4x32 : Claims.MemForm := ⟨5,3,0,2,true,4⟩
def c4x33 : Loc := (((base true 1).placeOf 0x100000 4 .store).getD {home := .node 3, addr := 0})
def c4x12 : AF := {st := 0, d := 3, a := 2, b := 1, ord := 0}
def c4x13 : State := (base true 1)
def c4x36 : AF := {st := 0, d := 3, a := 3, b := 1, ord := 1}
def c4x37 : State := (base true 1)
def c4x38 : Loc := (((base true 1).placeOf 0x100000 8 .amo).getD {home := .node 3, addr := 0})
def c4x39 : AF := {st := 0, d := 3, a := 3, b := 1, ord := 3}
def c4x40 : Loc := (((base true 1).placeOf 0x100000 8 .amo).getD {home := .node 3, addr := 0})
def c4x41 : Claims.MemForm := ⟨5,1,0,2,false,4⟩
def c4x42 : State := (base true 1)
def c4x43 : TrapInfo := (((base true 1).trapOfAccess 5 4 .load).getD {cause := .trap, tval := 1})
def c4x46 : Word := 0x100000000000000
def c4x49 : Word := 0x80000080000000
def c4x51 : Word := 0x80000000060000
def c4x53 : Word := 0x80000040000000
def c4x77 : Claims.MemForm := ⟨5,1,0,2,false,4⟩
def c4x78 : State := (base true 1)
def c4x79 : TrapInfo := { cause := .align, tval := 5, use := 1, write := true }
def c4x80 : AF := {st := 0, d := 3, a := 1, b := 2, ord := 0}
def c4x81 : State := (base true 1)
def c4x82 : TrapInfo := { cause := .align, tval := 5, use := 1, write := true }
def c4x83 : TlbEntry := {region := 0x10000, va := 0x100000, size := 0x10000, pa := 0x200000, w := false, x := true, cls := 0}
def c4x54 : Claims.MemForm := ⟨5,3,0x40000,2,false,12⟩
def c4x55 : State := (base true 1)
def c4x56 : Loc := (((base true 1).placeOf 0x140000 4 .load).getD {home := .node 3, addr := 0})
def c4x57 : Claims.MemForm := ⟨5,3,0x70000,2,false,12⟩
def c4x58 : State := (base true 1)
def c4x84 : Claims.MemForm := ⟨5,2,0,3,false,4⟩
def c4x59 : RF := {st := 0, d := 0, a := 0, b := 0}
def c4x60 : State := { hit with net := [{id := 3, kind := .load, cid := 1, slot := 0, serial := 7, region := 0, va := 0, loc := {home := .slice 1, addr := 0}, size := 1, ins := .storeAck, scope := 2}] }
def c4x85 : RF := {st := 0, d := 0, a := 3, b := 0}
def c4x86 : State := (base true 1)
def c4x61 : RF := {st := 0, d := 3, a := 2, b := 1}
def c4x62 : State := (base true 1)
def c4x63 : Loc := (((base true 1).placeOf 0x5000 8 .watch).getD {home := .node 3, addr := 0})
def c4x95 : Claims.MemForm := ⟨2,2,4,2,false,4⟩
def c4x96 : State := (par 0x800000000000FFF0)
def c4x97 : Msg := (wch 0x800000000000FFF0)
def c4x67 : RF := {st := 0, d := 0, a := 0, b := 0}
def c4x70 : RF := {st := 0, d := 3, a := 0, b := 0}
def c4x71 : RF := {st := 0, d := 3, a := 0, b := 0}
def c4x72 : State := (hit.modHere fun x => { x with perr := 0x11001 })
def c4x73 : RF := {st := 0, d := 3, a := 2, b := 0}
def c4x74 : State := (hit.modHere fun x => { x with perr := 0x11001 })

theorem witness_LoadResults :
    -- .1
    (loadOf (Instr.ld { st := 0, d := 5, base := 2, size := 1, disp := 0 : MF }) = some c4x0 ∧ c4x1.ownRange (c4x1.hereW c4x0.base + c4x0.disp) c4x0.width false 20480 ∧ c4x0.size < 7 ∧ c4x1.admits (Instr.ld { st := 0, d := 5, base := 2, size := 1, disp := 0 : MF }) = true ∧ c4x1.here.wait = Wait.ready ∧ c4x1.sound = true ∧ c4x0.base.toNat < 28 ∧ c4x0.d.toNat < 28) ∧
    -- .2.1
    (loadOf (Instr.ldAcqLit { st := 0, d := 5, base := 3, size := 1, lit := 0 : ML }) = some c4x18 ∧ c4x18.size < 7 ∧ c4x19.admits (Instr.ldAcqLit { st := 0, d := 5, base := 3, size := 1, lit := 0 : ML }) = true ∧ c4x19.sound = true ∧ c4x18.base.toNat < 28 ∧ c4x18.d.toNat < 28 ∧ c4x19.placeOf (c4x19.hereW c4x18.base + c4x18.disp) c4x18.width Access.load = some c4x20 ∧ c4x20.home ≠ Home.scratch c4x19.curCid ∧ c4x20.home.isNode = false) ∧
    -- .2.2
    (loadOf (Instr.ldAcqLit { st := 0, d := 5, base := 3, size := 1, lit := 262144 : ML }) = some c4x87 ∧ c4x87.size < 7 ∧ nref.admits (Instr.ldAcqLit { st := 0, d := 5, base := 3, size := 1, lit := 262144 : ML }) = true ∧ nref.here.wait = Wait.ready ∧ nref.sound = true ∧ c4x87.base.toNat < 28 ∧ c4x87.d.toNat < 28 ∧ nref.placeOf (nref.hereW c4x87.base + c4x87.disp) c4x87.width Access.load = some c4x88 ∧ c4x88.home = Home.node 1 ∧ nref.here.refusedNode = some 1) := by
  refine ⟨
    ⟨rfl, by delta State.ownRange; delta State.ownAddress; decide +kernel, by decide +kernel⟩,
    ⟨rfl, by decide +kernel⟩,
    ⟨rfl, by decide +kernel⟩⟩

theorem witness_StoreEffects :
    -- .1
    (storeOf (Instr.st { st := 0, d := 2, base := 2, size := 2, disp := 1 : MF }) = some c4x8 ∧ c4x9.ownRange (c4x9.hereW c4x8.base + c4x8.disp) c4x8.width true 20484 ∧ c4x8.size < 4 ∧ c4x9.admits (Instr.st { st := 0, d := 2, base := 2, size := 2, disp := 1 : MF }) = true ∧ c4x9.here.wait = Wait.ready ∧ c4x9.sound = true ∧ c4x9.hereCore.sp.wf = true ∧ c4x8.base.toNat < 28 ∧ c4x8.d.toNat < 28 ∧ c4x9.unwritten c4x9.curCid 20484 c4x8.width = true ∧ c4x9.unwatched (Home.scratch c4x9.curCid) 20484 c4x8.width = true) ∧
    -- .2.1
    (storeOf (Instr.stRel { st := 0, d := 5, base := 3, size := 2, disp := 0 : MF }) = some c4x29 ∧ c4x29.size < 4 ∧ c4x30.admits (Instr.stRel { st := 0, d := 5, base := 3, size := 2, disp := 0 : MF }) = true ∧ c4x30.here.wait = Wait.ready ∧ c4x30.sound = true ∧ c4x29.base.toNat < 28 ∧ c4x29.d.toNat < 28 ∧ c4x30.placeOf (c4x30.hereW c4x29.base + c4x29.disp) c4x29.width Access.store = some c4x31 ∧ c4x31.home ≠ Home.scratch c4x30.curCid ∧ (¬(c4x29.ord = true ∧ c4x30.unackedIn c4x30.here.serial (scopeOf c4x30.curCid c4x31.home) ≠ 0))) ∧
    -- .2.2
    (storeOf (Instr.stRel { st := 0, d := 5, base := 3, size := 2, disp := 0 : MF }) = some c4x32 ∧ c4x32.size < 4 ∧ held.admits (Instr.stRel { st := 0, d := 5, base := 3, size := 2, disp := 0 : MF }) = true ∧ held.here.wait = Wait.ready ∧ held.sound = true ∧ c4x32.base.toNat < 28 ∧ c4x32.d.toNat < 28 ∧ held.placeOf (held.hereW c4x32.base + c4x32.disp) c4x32.width Access.store = some c4x33 ∧ c4x33.home ≠ Home.scratch held.curCid ∧ (c4x32.ord = true ∧ held.unackedIn held.here.serial (scopeOf held.curCid c4x33.home) ≠ 0)) := by
  refine ⟨
    ⟨rfl, by delta State.ownRange; delta State.ownAddress; decide +kernel, by decide +kernel⟩,
    ⟨rfl, by decide +kernel⟩,
    ⟨rfl, by decide +kernel⟩⟩

theorem witness_AtomicEffects :
    -- .1
    ((amoOf (Instr.amoadd { st := 0, d := 3, a := 2, b := 1, ord := 0 : AF }) = some (c4x12, 0, fun (m b x : Word) => some (m + b))) ∧ c4x13.ownRange (c4x13.hereW c4x12.a) 8 true 20480 ∧ c4x13.admits (Instr.amoadd { st := 0, d := 3, a := 2, b := 1, ord := 0 : AF }) = true ∧ c4x13.here.wait = Wait.ready ∧ c4x13.sound = true ∧ c4x13.hereCore.sp.wf = true ∧ c4x12.a.toNat < 28 ∧ c4x12.b.toNat < 28 ∧ c4x12.d.toNat < 28 ∧ c4x13.unwritten c4x13.curCid 20480 8 = true ∧ c4x13.unwatched (Home.scratch c4x13.curCid) 20480 8 = true) ∧
    -- .2.1
    ((amoOf (Instr.amocas { st := 0, d := 3, a := 3, b := 1, ord := 1 : AF }) = some (c4x36, 9, fun (m b d : Word) => if m = d then some b else none)) ∧ c4x37.admits (Instr.amocas { st := 0, d := 3, a := 3, b := 1, ord := 1 : AF }) = true ∧ c4x37.sound = true ∧ c4x36.a.toNat < 28 ∧ c4x36.b.toNat < 28 ∧ c4x36.d.toNat < 28 ∧ c4x37.placeOf (c4x37.hereW c4x36.a) 8 Access.amo = some c4x38 ∧ c4x38.home ≠ Home.scratch c4x37.curCid ∧ (¬(c4x36.ord.getLsbD 1 = true ∧ c4x37.unackedIn c4x37.here.serial (scopeOf c4x37.curCid c4x38.home) ≠ 0))) ∧
    -- .2.2
    ((amoOf (Instr.amocas { st := 0, d := 3, a := 3, b := 1, ord := 3 : AF }) = some (c4x39, 9, fun (m b d : Word) => if m = d then some b else none)) ∧ held.admits (Instr.amocas { st := 0, d := 3, a := 3, b := 1, ord := 3 : AF }) = true ∧ held.sound = true ∧ c4x39.a.toNat < 28 ∧ c4x39.b.toNat < 28 ∧ c4x39.d.toNat < 28 ∧ held.placeOf (held.hereW c4x39.a) 8 Access.amo = some c4x40 ∧ c4x40.home ≠ Home.scratch held.curCid ∧ (c4x39.ord.getLsbD 1 = true ∧ held.unackedIn held.here.serial (scopeOf held.curCid c4x40.home) ≠ 0)) := by
  refine ⟨
    ⟨rfl, by delta State.ownRange; delta State.ownAddress; decide +kernel, by decide +kernel⟩,
    ⟨rfl, by decide +kernel⟩,
    ⟨rfl, by decide +kernel⟩⟩

theorem witness_FailedChecksTrap_1 :
    -- .1
    (loadOf (Instr.ld { st := 0, d := 5, base := 1, size := 2, disp := 0 : MF }) = some c4x41 ∧ c4x42.admits (Instr.ld { st := 0, d := 5, base := 1, size := 2, disp := 0 : MF }) = true ∧ c4x42.sound = true ∧ c4x41.base.toNat < 28 ∧ c4x42.trapOfAccess (c4x42.hereW c4x41.base + c4x41.disp) c4x41.width Access.load = some c4x43) ∧
    -- .2.2.2.1
    (5 : Word).toNat % 2 ≠ 0 ∧
    -- .2.2.2.2.1
    (BitVec.toNat c4x46 % 2 = 0 ∧ 2 ^ 56 ≤ BitVec.toNat c4x46) ∧
    -- .2.2.2.2.2.1
    ((393216 : Word).toNat % 2 = 0 ∧ (393216 : Word).toNat < 524288 ∧ 393216 ≤ (393216 : Word).toNat) ∧
    -- .2.2.2.2.2.2.1
    (BitVec.toNat c4x49 % 2 = 0 ∧ BitVec.toNat c4x49 / 2 ^ 55 = 1 ∧ BitVec.toNat c4x49 / 2 ^ 31 % 2 ^ 24 ≠ 0) ∧
    -- .2.2.2.2.2.2.2.1
    (BitVec.toNat c4x51 % 2 = 0 ∧ BitVec.toNat c4x51 / 2 ^ 55 = 1 ∧ 393216 ≤ BitVec.toNat c4x51 % 2 ^ 19) ∧
    -- .2.2.2.2.2.2.2.2.1
    (BitVec.toNat c4x53 % 2 = 0 ∧ BitVec.toNat c4x53 / 2 ^ 55 = 1 ∧ 2048 ≤ BitVec.toNat c4x53 / 2 ^ 19 % 2 ^ 12 ∧ BitVec.toNat c4x53 / 2 ^ 19 % 2 ^ 12 < 4095) ∧
    -- .2.2.2.2.2.2.2.2.2.2.1
    ((1507336 : Word).toNat % 2 = 0 ∧ 524288 ≤ (1507336 : Word).toNat ∧ (1507336 : Word).toNat < 2 ^ 55 ∧ wf.translation wf.curCid wf.here ((1507336 : Word).toNat) = none ∧ wf.here.walkFailed ((1507336 : Word).toNat) = true ∧ wf.sound = true) ∧
    -- .2.1
    (storeOf (Instr.st { st := 0, d := 5, base := 1, size := 2, disp := 0 : MF }) = some c4x77 ∧ c4x78.admits (Instr.st { st := 0, d := 5, base := 1, size := 2, disp := 0 : MF }) = true ∧ c4x78.sound = true ∧ c4x77.base.toNat < 28 ∧ c4x78.trapOfAccess (c4x78.hereW c4x77.base + c4x77.disp) c4x77.width Access.store = some c4x79) := by
  refine ⟨
    ⟨rfl, by decide +kernel⟩,
    by decide +kernel,
    by decide +kernel,
    by decide +kernel,
    by decide +kernel,
    by decide +kernel,
    by decide +kernel,
    by decide +kernel,
    ⟨rfl, by decide +kernel⟩⟩

theorem witness_FailedChecksTrap_2 :
    -- .2.2.1
    ((amoOf (Instr.amoadd { st := 0, d := 3, a := 1, b := 2, ord := 0 : AF }) = some (c4x80, 0, fun (m b x : Word) => some (m + b))) ∧ c4x81.admits (Instr.amoadd { st := 0, d := 3, a := 1, b := 2, ord := 0 : AF }) = true ∧ c4x81.sound = true ∧ c4x80.a.toNat < 28 ∧ c4x81.trapOfAccess (c4x81.hereW c4x80.a) 8 Access.amo = some c4x82) ∧
    -- .2.2.2.2.2.2.2.2.2.1
    (lkd.ownAddress 20488 20488 ∧ 20488 % 8 = 0 ∧ 8 ∈ [1, 2, 4, 8, 16] ∧ lkd.here.guest = false ∧ lkd.scratchLocked lkd.curCid 20488 8 Access.load.writes = true) ∧
    -- .2.2.2.2.2.2.2.2.2.2.2
    ((1048584 : Word).toNat % 8 = 0 ∧ 524288 ≤ (1048584 : Word).toNat ∧ (1048584 : Word).toNat < 2 ^ 55 ∧ ro.translation ro.curCid ro.here ((1048584 : Word).toNat) = some c4x83) := by
  refine ⟨
    ⟨rfl, by decide +kernel⟩,
    ⟨by delta State.ownAddress; decide +kernel, by decide +kernel⟩,
    by decide +kernel⟩

theorem witness_AccessesThatWait :
    -- .1
    (loadOf (Instr.ldLit { st := 0, d := 5, base := 3, size := 2, lit := 262144 : ML }) = some c4x54 ∧ c4x54.size < 7 ∧ c4x55.admits (Instr.ldLit { st := 0, d := 5, base := 3, size := 2, lit := 262144 : ML }) = true ∧ c4x55.sound = true ∧ c4x54.base.toNat < 28 ∧ c4x55.placeOf (c4x55.hereW c4x54.base + c4x54.disp) c4x54.width Access.load = some c4x56 ∧ c4x56.home = Home.node 1 ∧ c4x55.here.refusedNode ≠ some 1) ∧
    -- .2.2
    (loadOf (Instr.ldLit { st := 0, d := 5, base := 3, size := 2, lit := 458752 : ML }) = some c4x57 ∧ c4x57.size < 7 ∧ c4x58.admits (Instr.ldLit { st := 0, d := 5, base := 3, size := 2, lit := 458752 : ML }) = true ∧ c4x58.sound = true ∧ c4x57.base.toNat < 28 ∧ BitVec.toNat (c4x58.hereW c4x57.base + c4x57.disp) % c4x57.width = 0 ∧ 524288 ≤ BitVec.toNat (c4x58.hereW c4x57.base + c4x57.disp) ∧ BitVec.toNat (c4x58.hereW c4x57.base + c4x57.disp) < 2 ^ 55 ∧ c4x58.translation c4x58.curCid c4x58.here (BitVec.toNat (c4x58.hereW c4x57.base + c4x57.disp)) = none ∧ c4x58.here.walkFailed (BitVec.toNat (c4x58.hereW c4x57.base + c4x57.disp)) = false ∧ c4x58.here.walkedTogether = false) ∧
    -- .2.1
    (loadOf (Instr.ld { st := 0, d := 5, base := 2, size := 3, disp := 0 : MF }) = some c4x84 ∧ gue.ownAddress (gue.hereW c4x84.base + c4x84.disp) 20480 ∧ c4x84.size < 7 ∧ gue.admits (Instr.ld { st := 0, d := 5, base := 2, size := 3, disp := 0 : MF }) = true ∧ gue.sound = true ∧ c4x84.base.toNat < 28 ∧ 20480 % c4x84.width = 0 ∧ gue.here.guest = true) := by
  refine ⟨
    ⟨rfl, by decide +kernel⟩,
    ⟨rfl, by decide +kernel⟩,
    ⟨rfl, by delta State.ownAddress; decide +kernel, by decide +kernel⟩⟩

theorem witness_PrefetchAndInvalidate :
    -- .2
    (c4x60.admits (Instr.l1inv c4x59) = true ∧ c4x60.here.wait = Wait.ready) ∧
    -- .1
    (c4x86.admits (Instr.pfetch c4x85) = true ∧ c4x86.here.wait = Wait.ready ∧ c4x86.sound = true ∧ c4x85.a.toNat < 28) := by
  refine ⟨?_, ?_⟩ <;> decide +kernel

theorem witness_WatchedWords :
    -- .1
    (c4x62.admits (Instr.waitv c4x61) = true ∧ c4x62.sound = true ∧ c4x61.a.toNat < 28 ∧ c4x61.b.toNat < 28 ∧ c4x61.d.toNat < 28 ∧ c4x62.placeOf (c4x62.hereW c4x61.a) 8 Access.watch = some c4x63) ∧
    -- .2.2.1
    (storeOf (Instr.st { st := 0, d := 2, base := 2, size := 2, disp := 1 : MF }) = some c4x95 ∧ c4x96.ownRange (c4x96.hereW c4x95.base + c4x95.disp) c4x95.width true 20484 ∧ soleWatch c4x96 c4x97 (Home.scratch c4x96.curCid) 20484 c4x95.width ∧ c4x95.size < 4 ∧ c4x96.admits (Instr.st { st := 0, d := 2, base := 2, size := 2, disp := 1 : MF }) = true ∧ c4x96.here.wait = Wait.ready ∧ c4x96.sound = true ∧ c4x95.base.toNat < 28 ∧ c4x95.d.toNat < 28) := by
  refine ⟨
    by decide +kernel,
    ⟨rfl, by delta State.ownRange; delta State.ownAddress; decide +kernel, by delta soleWatch; decide +kernel, by decide +kernel⟩⟩

theorem witness_FencesOfStores :
    -- .1
    ((Instr.fenceP, 2) ∈ [(Instr.fenceC, 0), (Instr.fenceK, 1), (Instr.fenceP, 2)] ∧ hit.admits ((Instr.fenceP, 2).fst c4x67) = true ∧ hit.here.wait = Wait.ready) ∧
    -- .2.1.2
    (held.admits (Instr.fenceS c4x70) = true ∧ held.here.wait = Wait.ready ∧ held.sound = true ∧ held.canonHere = true ∧ held.quietReg (8 * c4x70.d.toNat) = true ∧ c4x70.d.toNat < 28 ∧ c4x70.a = 0 ∧ held.unackedIn held.here.serial 3 ≠ 0) ∧
    -- .2.1.1
    (c4x72.admits (Instr.fenceS c4x71) = true ∧ c4x72.here.wait = Wait.ready ∧ c4x72.sound = true ∧ c4x72.canonHere = true ∧ c4x72.quietReg (8 * c4x71.d.toNat) = true ∧ c4x71.d.toNat < 28 ∧ c4x71.a = 0 ∧ c4x72.unackedIn c4x72.here.serial 3 = 0) ∧
    -- .2.2
    ((∀ (j : Nat), j < 8 → c4x74.ownRange (c4x74.hereW c4x73.a + BitVec.ofNat 64 (16 * j)) 16 true (20480 + 16 * j)) ∧ c4x74.admits (Instr.fenceS c4x73) = true ∧ c4x74.here.wait = Wait.ready ∧ c4x74.sound = true ∧ c4x74.hereCore.sp.wf = true ∧ c4x73.d.toNat < 28 ∧ c4x73.a ≠ 0 ∧ c4x73.a.toNat < 28 ∧ c4x74.unwritten c4x74.curCid 20480 128 = true ∧ c4x74.unwatched (Home.scratch c4x74.curCid) 20480 128 = true ∧ c4x74.unackedIn c4x74.here.serial 3 = 0) := by
  refine ⟨
    ⟨by simp, by decide +kernel⟩,
    by decide +kernel,
    by decide +kernel,
    ⟨by delta State.ownRange; delta State.ownAddress; decide +kernel, by decide +kernel⟩⟩

end Sys2Proof.Tests.T4

namespace Sys2Proof.Tests.T6
open Sys2Proof.Machine Sys2Proof.Claims

def M0 (id : Nat) (kind : MsgKind) (loc : Loc) (size : Nat) : Msg :=
  { id := id, kind := kind, cid := 1, slot := 0, serial := 7, region := 0x10000, va := 0x80000, loc := loc, size := size, ins := .storeAck }
def net (s : State) (m : Msg) : State := { s with net := [m], obj := { a := m.id } }
def wt (s : State) (w : Wait) : State := s.modSlot 1 0 fun x => { x with wait := w }
def rq (n : Nat) (et : BitVec 4) : SfuReq := { id := n, cid := 1, slot := 0, serial := 7, cycle := 0, ins := .srcp { xf 5 0 0 0 9 0 false 0 0 with et := et }, inputs := { lanes := 0xFFFF, a := 0x3F800000400000003F80000040800000 }, dest := .q 5, addrs := [], }
def sf : State := { (small 0) with cycle := 5, clusters := [(0, { sfu := [rq 20 9, { (rq 21 10) with cycle := 1 }], sfuFree := 3 })], obj := { a := 0 } }
def sc : State := wt { (small 0) with cycle := 50, clusters := [(0, { sfu := [{ (rq 20 9) with served := true }, rq 21 10], sfuFree := 3 })], obj := { a := 0, b := 20 } } (.sfu 20)
def lastB : List Host.Cell := by_ 0x4000 [9,1,0,0,0,0,0,0, 0,0x50,0,0,0,0,0,0, 8,0,0,0, 0,0,0,0, 0,0,0,0, 0,0,0,0, 4]
def st : State := (small 0).modCore 1 fun c => { c with sp := c.sp ++ lastB, streams := [(1, { write := true, base := 0, dims := [], unacked := 0 }), (2, {write := true, base := 0, dims := [], unacked := 3})] }
def ff (d : BitVec 5) : XF := { (xf 0 1 0 0 0 0 false 0 0) with d := d }
def stb : State := st.modCore 1 fun c => { c with streams := [(2, {write := true, base := 0, dims := [], unacked := 3})] }
def cs (a : Nat) (c : Chan) : State := (small 0).modCore 1 fun x => { x with sp := by_ 8 [a%256,a/256], chans := [(1, c), (2, {inq := [{ word := 4 }]})] }
def pd (d : Dest) : Pend := { due := 0, slot := 0, dest := d, data := 0x0F0E0D0C0B0A09080706050403020100, mask := 0x3F5 }
def ps (d : Dest) : State := { (small 0).modCore 1 fun c => { c with pend := [pd d, { (pd d) with due := 9 }] } with obj := { a := 1 } }
def sg : Msg := { (M0 7 .store { home := .slice 1, addr := 0x10000, pa := 0x10000 } 16) with sent := false }
def psn (m : BitVec 16) : State := { (small 0).modCore 1 fun c => { c with pend := [{ (pd (.send 7)) with mask := m }] } with obj := { a := 1 }, net := [sg] }
def l1 : Loc := { home := .scratch 1, addr := 0x5000 }
def l2 : Loc := { home := .slice 1, addr := 0x10000, pa := 0x10000 }
def sm (l : Loc) : Msg := { (M0 7 .store l 8) with data := 0x1122334455667788, mask := 0x9F }
def l3 : Loc := { home := .scratch 9, addr := 0x5000 }
def am (op : Nat) : Msg := { (M0 7 (.amo op) l2 8) with data := 0x1122334455667788 }
def wm (e : Word) : Msg := { (M0 7 .watch l2 8) with expect := e }
def pl : State := { (wt (net (small 0) (wm 3)) (.watch 7)) with obj := { a := 1, b := 0, c := 7 } }
def wst (e : Word) : Msg := { (M0 9 .watch l2 8) with expect := e, watching := true, slot := 3, serial := 9, dest := .reg 3 24 }
def wsn (e : Word) : State := (let s := net (small 0) (sm l2); { s with net := s.net ++ [wst e] } : State).modSlot 1 3 fun x => { x with live := true, serial := 9, gid := 1, home := 1, region := 0x10000, wait := .watch 9 }
def rm (r : Resp) : Msg := { (M0 7 .load l2 2) with resp := some r, dest := .reg 0 24, signed := true }
def fm (k : Bool) : Msg := { (M0 7 .fill l2 8) with line := some 5, keepLine := k }

def c6x30 : State := (net (small 0) (wm 0))
def c6x0 : XF := (xf 5 0 1 2 9 0 false 0 0)
def c6x2 : SfuReq := { (rq 20 9) with served := true }
def c6x42 : XF := (xf 5 0 1 2 9 0 false 0 0)
def c6x43 : XF := (xf 5 0 1 2 10 0 false 0 0)
def c6x4 : XF := {(ff 16) with aux32 := 2}
def c6x5 : Stream := {write := true, base := 0, dims := [], unacked := 3}
def c6x6 : Stream := { write := true, base := 0, dims := [], unacked := 0 }
def c6x7 : Stream := { write := true, base := 0, dims := [], unacked := 3 }
def c6x8 : State := (cs 0x800 {})
def c6x9 : State := (cs 0x003 {})
def c6x10 : State := (cs 0x2001 { inq := [{ word := 5 }] })
def c6x11 : State := (cs 0x2001 { inq := [{ word := 5 }] })
def c6x12 : State := (cs 0x2001 { inq := [{ word := 5 }], bound := some {cid := 1, remote := 2, gid := 1} })
def c6x13 : State := (cs 0x2001 { inq := [{ word := 5 }], bound := some {cid := 1, remote := 2, gid := 1}, flight := [⟨1, some 2, 1, 0, 7⟩] })
def c6x14 : State := (ps (.reg 0 256))
def c6x15 : Pend := (pd (.reg 0 256))
def c6x16 : State := (ps (.scratch 0x5000))
def c6x17 : Pend := (pd (.scratch 0x5000))
def c6x19 : Pend := { (pd (.send 7)) with mask := 0xF }
def c6x21 : State := (net (small 0) (M0 7 .load l1 8))
def c6x22 : Msg := (M0 7 .load l1 8)
def c6x25 : State := (net (small 0) (sm l1))
def c6x26 : State := (net (small 0) (sm l2))
def c6x27 : State := (net (small 0) (sm l3))
def c6x28 : State := (net (small 0) (am 0))
def c6x34 : State := (wt (net (small 0) (rm (.value 0xFFF1))) (.result 7))
def c6x35 : Msg := (rm (.value 0xFFF1))
def c6x36 : State := (wt (net (small 0) (rm (.trap {cause := .perm, tval := 3}))) (.result 7))
def c6x37 : Msg := (rm (.trap {cause := .perm, tval := 3}))
def c6x38 : TrapInfo := {cause := .perm, tval := 3}
def c6x39 : State := (net (small 0) (sm l2))
def c6x40 : State := (net (small 0) (fm true))

theorem witness_WatchedWords :
    -- .2.2.2.1
    (stepMessage c6x30 (wm 0) ∧ c6x30.sound = true ∧ (wm 0).kind = MsgKind.watch ∧ c6x30.homeRefuses (wm 0) 8 false = none) ∧
    -- .2.2.2.2
    (pl.msg? pl.obj.c = some (wm 3) ∧ (wm 3).kind = MsgKind.watch ∧ (wm 3).watching = false ∧ (wm 3).resp = none ∧ (pl.slot pl.obj.a pl.obj.b).wait = Wait.watch (wm 3).id ∧ pl.sound = true ∧ pl.homeRefuses (wm 3) 8 false = none ∧ BitVec.ofNat 64 (leNat (pl.readLoc (wm 3).loc 8)) ≠ (wm 3).expect) ∧
    -- .2.1
    (stepMessage (wsn 3) (sm l2) ∧ soleWatch (wsn 3) (wst 3) (sm l2).loc.home (sm l2).loc.addr (sm l2).size ∧ (wsn 3).sound = true ∧ (sm l2).kind = MsgKind.store ∧ (sm l2).units = [] ∧ (sm l2).bytes = [] ∧ (sm l2).size ≤ 16 ∧ 0 < (sm l2).size ∧ (wsn 3).homeRefuses (sm l2) (sm l2).size true = none ∧ (sm l2).loc.home.isNode = false ∧ (wst 3).id ≠ (sm l2).id) := by
  refine ⟨
    ⟨stepMessage_of 0 (by decide +kernel), by decide +kernel⟩,
    by decide +kernel,
    ⟨stepMessage_of 0 (by decide +kernel), by delta soleWatch; decide +kernel, by decide +kernel⟩⟩

theorem witness_SpecialFunctions :
    -- .1
    (((fun (f : XF) => Instr.srcp f) ∈ specialFunctions) ∧ ((small 0).admits ((fun (f : XF) => Instr.srcp f) c6x0) = true) ∧ (small 0).sound = true ∧ c6x0.a.toNat < 16 ∧ c6x0.d.toNat < 16) ∧
    -- .2.2.2.2.2.1
    0 < 1 ∧
    -- .2.2.2.2.2.2.2.2.2.1
    128 ≤ 128 ∧
    -- .2.2.2.2.2.2.2.2.2.2.1
    127 ≤ 127 ∧
    -- .2.2.2.2.2.2.2.2.2.2.2.1
    149 ≤ 149 ∧
    -- .2.2.2.2.2.2.2.2.2.2.2.2.2.2.2.2.1
    (-149 ≤ -149 + ↑0 ∧ -149 + ↑0 ≤ 127) ∧
    -- .2.2.2.2.2.2.2.2.2.2.2.2.2.2.2.2.2.2.2.2.2.2.2.2.2.2.2.2
    Sfu.rcp ∈ [Sfu.rcp, Sfu.rsq, Sfu.exp2, Sfu.log2, Sfu.sinPi, Sfu.cosPi, Sfu.tanh, Sfu.sigmoid] := by
  refine ⟨
    ⟨by simp [specialFunctions], by decide +kernel⟩,
    by decide +kernel,
    by decide +kernel,
    by decide +kernel,
    by decide +kernel,
    by decide +kernel,
    by simp⟩

theorem witness_SpecialFunctionService :
    -- .1
    (sf.obj.b = 0 ∧ rq 20 9 ∈ (sf.cluster sf.obj.a).sfu ∧ (rq 20 9).served = false ∧ (∀ (q : SfuReq), q ∈ (sf.cluster sf.obj.a).sfu → q.served = false → q = rq 20 9 ∨ (rq 20 9).cycle < q.cycle ∨ (rq 20 9).cycle = q.cycle ∧ (rq 20 9).cid < q.cid) ∧ (rq 20 9).cycle < sf.cycle ∧ (sf.cluster sf.obj.a).sfuFree ≤ sf.cycle ∧ (rq 20 9).ins.major = 30) ∧
    -- .2.2.2
    ((∀ (g : Group), sc.group? (sc.core c6x2.cid).gid = some g → g.state = GState.running) ∧ (List.find? (fun (x : SfuReq) => x.id == sc.obj.b) (sc.cluster sc.obj.a).sfu = some c6x2) ∧ c6x2.ins.major = 30 ∧ c6x2.trap = none ∧ c6x2.clamped = false ∧ c6x2.dest = VDest.q 5 ∧ 5 < 16 ∧ sc.sound = true ∧ (sc.core c6x2.cid).sp.wf = true ∧ (sc.slot c6x2.cid c6x2.slot).guest = false ∧ (sc.slot c6x2.cid c6x2.slot).live = true ∧ (sc.slot c6x2.cid c6x2.slot).serial = c6x2.serial ∧ (sc.slot c6x2.cid c6x2.slot).wait = Wait.sfu c6x2.id ∧ sc.ustore c6x2.serial ≤ 64 ∧ (sc.core c6x2.cid).idleAt ≠ some sc.cycle ∧ sc.unwatched (Home.scratch c6x2.cid) (c6x2.slot * 1024 + 256 + 16 * 5) 16 = true) ∧
    -- .2.1
    c6x42.et.toNat = 9 ∧
    -- .2.2.1
    c6x43.et.toNat = 10 := by
  refine ⟨
    by decide +kernel,
    ⟨every_some (by decide +kernel), by decide +kernel⟩,
    by decide +kernel,
    by decide +kernel⟩

theorem witness_StreamBinding_1 :
    -- .1.2.1
    (plainStream (lastHere st ((ff 16).aux32.toNat % 64)) (st.hereW (ff 16).a) ∧ st.admits (Instr.stbind (ff 16)) = true ∧ st.here.wait = Wait.ready ∧ st.sound = true ∧ (ff 16).a.toNat < 28 ∧ 16 ≤ (ff 16).d.toNat ∧ (ff 16).d.toNat < 20 ∧ st.scratchLocked st.curCid (16384 + 64 * ((ff 16).aux32.toNat % 64)) 64 false = false ∧ (∀ (q : Machine.Stream), tfind st.hereCore.streams ((ff 16).d.toNat - 16) = some q → q.write = true → q.unacked = 0 ∧ q.pending = 0)) ∧
    -- .1.1
    (st.admits (Instr.stbind c6x4) = true ∧ c6x4.a.toNat < 28 ∧ 16 ≤ c6x4.d.toNat ∧ c6x4.d.toNat < 20 ∧ st.scratchLocked st.curCid (16384 + 64 * (c6x4.aux32.toNat % 64)) 64 false = false ∧ (lastHere st (c6x4.aux32.toNat % 64)).valid = false) ∧
    -- .1.2.2
    (plainStream (lastHere stb ((ff 18).aux32.toNat % 64)) (stb.hereW (ff 18).a) ∧ stb.admits (Instr.stbind (ff 18)) = true ∧ stb.here.wait = Wait.ready ∧ stb.sound = true ∧ (ff 18).a.toNat < 28 ∧ 16 ≤ (ff 18).d.toNat ∧ (ff 18).d.toNat < 20 ∧ stb.scratchLocked stb.curCid (16384 + 64 * ((ff 18).aux32.toNat % 64)) 64 false = false ∧ tfind stb.hereCore.streams ((ff 18).d.toNat - 16) = some c6x5 ∧ c6x5.write = true ∧ (0 < c6x5.unacked ∨ 0 < c6x5.pending)) ∧
    -- .2.1
    (stb.admits (Instr.stend (ff 16)) = true ∧ tfind stb.hereCore.streams ((ff 16).d.toNat - 16) = none) := by
  refine ⟨
    ⟨by delta plainStream; decide +kernel, by decide +kernel⟩,
    by decide +kernel,
    ⟨by delta plainStream; decide +kernel, by decide +kernel⟩,
    by decide +kernel⟩

theorem witness_StreamBinding_2 :
    -- .2.2.1
    (st.admits (Instr.stend (ff 17)) = true ∧ 16 ≤ (ff 17).d.toNat ∧ (ff 17).d.toNat < 20 ∧ tfind st.hereCore.streams ((ff 17).d.toNat - 16) = some c6x6 ∧ (c6x6.write = false ∨ c6x6.unacked = 0 ∧ c6x6.pending = 0)) ∧
    -- .2.2.2
    (st.admits (Instr.stend (ff 18)) = true ∧ tfind st.hereCore.streams ((ff 18).d.toNat - 16) = some c6x7 ∧ c6x7.write = true ∧ (0 < c6x7.unacked ∨ 0 < c6x7.pending)) := by
  refine ⟨?_, ?_⟩ <;> decide +kernel

theorem witness_ChannelBinding :
    -- .1.1
    (c6x8.admits (Instr.chbind (ff 29)) = true ∧ c6x8.here.wait = Wait.ready ∧ c6x8.sound = true ∧ (ff 29).a.toNat < 28 ∧ 28 ≤ (ff 29).d.toNat ∧ c6x8.hereW (ff 29).a &&& ~~~14335 ≠ 0) ∧
    -- .1.2.1
    (c6x9.admits (Instr.chbind (ff 29)) = true ∧ c6x9.here.wait = Wait.ready ∧ c6x9.sound = true ∧ c6x9.hereW (ff 29).a &&& ~~~14335 = 0 ∧ c6x9.livePitch (BitVec.toNat (c6x9.hereW (ff 29).a) % 2048) c6x9.here.region = false) ∧
    -- .1.2.2
    (c6x10.admits (Instr.chbind (ff 29)) = true ∧ c6x10.here.wait = Wait.ready ∧ c6x10.sound = true ∧ c6x10.hereW (ff 29).a &&& ~~~14335 = 0 ∧ c6x10.livePitch (BitVec.toNat (c6x10.hereW (ff 29).a) % 2048) c6x10.here.region = true ∧ (c6x10.chan c6x10.curCid ((ff 29).d.toNat - 28)).bound = none ∧ (c6x10.chan c6x10.curCid ((ff 29).d.toNat - 28)).out = []) ∧
    -- .2.1
    (c6x11.admits (Instr.chend (ff 29)) = true ∧ c6x11.here.wait = Wait.ready ∧ (c6x11.chan c6x11.curCid ((ff 29).d.toNat - 28)).bound = none) ∧
    -- .2.2.1
    ((∀ (i n : Nat) (d : Dest), (c6x12.slot c6x12.curCid i).wait ≠ Wait.handle n d) ∧ c6x12.admits (Instr.chend (ff 29)) = true ∧ c6x12.here.wait = Wait.ready ∧ (c6x12.chan c6x12.curCid ((ff 29).d.toNat - 28)).bound.isSome = true ∧ (c6x12.chan c6x12.curCid ((ff 29).d.toNat - 28)).out = [] ∧ (c6x12.chan c6x12.curCid ((ff 29).d.toNat - 28)).flight = []) ∧
    -- .2.2.2
    (c6x13.admits (Instr.chend (ff 29)) = true ∧ c6x13.here.wait = Wait.ready ∧ (c6x13.chan c6x13.curCid ((ff 29).d.toNat - 28)).bound.isSome = true ∧ ((c6x13.chan c6x13.curCid ((ff 29).d.toNat - 28)).out ≠ [] ∨ (c6x13.chan c6x13.curCid ((ff 29).d.toNat - 28)).flight ≠ [])) := by
  refine ⟨
    by decide +kernel,
    by decide +kernel,
    by decide +kernel,
    by decide +kernel,
    ⟨no_handle (by decide +kernel), by decide +kernel⟩,
    by decide +kernel⟩

theorem witness_FixedLatencyWrites_1 :
    -- .1
    (c6x14.Settled c6x14.obj.a ∧ c6x14.sound = true ∧ (c6x14.core c6x14.obj.a).sp.wf = true ∧ ((c6x14.core c6x14.obj.a).pend = [c6x15, let __src := pd (Dest.reg 0 256); { due := 9, slot := __src.slot, dest := __src.dest, data := __src.data, mask := __src.mask : Pend }]) ∧ c6x15.due ≤ (c6x14.core c6x14.obj.a).turnAt c6x14.cycle ∧ (∀ (q : Pend), q ∈ [let __src := pd (Dest.reg 0 256); { due := 9, slot := __src.slot, dest := __src.dest, data := __src.data, mask := __src.mask : Pend }] → (c6x14.core c6x14.obj.a).turnAt c6x14.cycle < q.due) ∧ c6x15.dest = Dest.reg 0 256 ∧ (c6x14.slot c6x14.obj.a 0).guest = false ∧ (c6x14.slot c6x14.obj.a 0).again = false ∧ c6x14.unwatched (Home.scratch c6x14.obj.a) (0 * 1024 + 256) 16 = true) ∧
    -- .2.1
    (c6x16.Settled c6x16.obj.a ∧ (c6x17.dest = Dest.scratch 20480 ∨ ∃ (port : Nat), c6x17.dest = Dest.stream port 20480) ∧ c6x16.sound = true ∧ (c6x16.core c6x16.obj.a).sp.wf = true ∧ ((c6x16.core c6x16.obj.a).pend = [c6x17, let __src := pd (Dest.scratch 20480); { due := 9, slot := __src.slot, dest := __src.dest, data := __src.data, mask := __src.mask : Pend }]) ∧ c6x17.due ≤ (c6x16.core c6x16.obj.a).turnAt c6x16.cycle ∧ (∀ (q : Pend), q ∈ [let __src := pd (Dest.scratch 20480); { due := 9, slot := __src.slot, dest := __src.dest, data := __src.data, mask := __src.mask : Pend }] → (c6x16.core c6x16.obj.a).turnAt c6x16.cycle < q.due) ∧ c6x16.unwritten c6x16.obj.a 20480 16 = true ∧ c6x16.unwatched (Home.scratch c6x16.obj.a) 20480 16 = true) := by
  refine ⟨
    ⟨settled_of (by decide +kernel), by decide +kernel⟩,
    ⟨settled_of (by decide +kernel), .inl (by decide +kernel), by decide +kernel⟩⟩

theorem witness_FixedLatencyWrites_2 :
    -- .2.2
    (psn 15).Settled (psn 15).obj.a ∧ (psn 15).sound = true ∧ ((psn 15).core (psn 15).obj.a).sp.wf = true ∧ ((psn 15).core (psn 15).obj.a).pend = [c6x19] ∧ c6x19.due ≤ ((psn 15).core (psn 15).obj.a).turnAt (psn 15).cycle ∧ (∀ (q : Pend), q ∈ [] → ((psn 15).core (psn 15).obj.a).turnAt (psn 15).cycle < q.due) ∧ c6x19.dest = Dest.send 7 ∧ (psn 15).msg? 7 = some sg ∧ (∀ (x : Msg), x ∈ (psn 15).net → x.id = 7 → x = sg) ∧ sg.kind = MsgKind.store ∧ sg.cid = (psn 15).obj.a ∧ sg.port = none ∧ ((psn 15).slot (psn 15).obj.a sg.slot).live = true ∧ ((psn 15).slot (psn 15).obj.a sg.slot).serial = sg.serial := by
  exact ⟨settled_of (by decide +kernel), by decide +kernel⟩

theorem witness_HomeAccesses_1 :
    -- .1
    (stepMessage c6x21 c6x22 ∧ c6x21.sound = true ∧ c6x22.units = [] ∧ c6x22.bytes = [] ∧ c6x22.size ≤ 16 ∧ c6x22.loc.tier = false ∧ c6x22.kind = MsgKind.load ∧ c6x21.homeRefuses c6x22 c6x22.size false = none ∧ (∀ (x : Msg), x ∈ c6x21.net → x.kind ≠ MsgKind.store)) ∧
    -- .2.1
    (stepMessage c6x25 (sm l1) ∧ c6x25.sound = true ∧ (sm l1).units = [] ∧ (sm l1).bytes = [] ∧ (sm l1).size ≤ 16 ∧ (sm l1).loc.tier = false ∧ (sm l1).kind = MsgKind.store ∧ (sm l1).loc.home = Home.scratch 1 ∧ c6x25.homeRefuses (sm l1) (sm l1).size true = none ∧ (c6x25.core 1).sp.wf = true ∧ c6x25.unwritten 1 (sm l1).loc.addr (sm l1).size = true ∧ c6x25.unwatched (sm l1).loc.home (sm l1).loc.addr (sm l1).size = true) ∧
    -- .2.2.1
    (stepMessage c6x26 (sm l2) ∧ c6x26.sound = true ∧ (sm l2).units = [] ∧ (sm l2).bytes = [] ∧ (sm l2).size ≤ 16 ∧ (sm l2).loc.tier = false ∧ (sm l2).kind = MsgKind.store ∧ (sm l2).loc.home = Home.slice 1 ∧ c6x26.mem.wf = true ∧ c6x26.unwatched (sm l2).loc.home (sm l2).loc.addr (sm l2).size = true) := by
  refine ⟨
    ⟨stepMessage_of 0 (by decide +kernel), by decide +kernel⟩,
    ⟨stepMessage_of 0 (by decide +kernel), by decide +kernel⟩,
    ⟨stepMessage_of 0 (by decide +kernel), by decide +kernel⟩⟩

theorem witness_HomeAccesses_2 :
    -- .2.2.2.1
    (stepMessage c6x27 (sm l3) ∧ c6x27.sound = true ∧ (sm l3).units = [] ∧ (sm l3).bytes = [] ∧ (sm l3).size ≤ 16 ∧ (sm l3).loc.tier = false ∧ (sm l3).kind = MsgKind.store ∧ (c6x27.homeRefuses (sm l3) (sm l3).size true).isSome = true ∧ c6x27.ownerOf (sm l3).cid (sm l3).slot (sm l3).serial = some (1, 0) ∧ (c6x27.slot 1 0).wait = Wait.ready ∧ c6x27.node < 1024) ∧
    -- .2.2.2.2
    (stepMessage c6x28 (am 0) ∧ (amoOf (Instr.amoadd { st := 0, d := 1, a := 2, b := 3, ord := 0 : AF }) = some ({ st := 0, d := 1, a := 2, b := 3, ord := 0 : AF }, 0, fun (m b x : Word) => some (m + b))) ∧ c6x28.sound = true ∧ (am 0).units = [] ∧ (am 0).bytes = [] ∧ (am 0).size ≤ 16 ∧ (am 0).loc.tier = false ∧ (am 0).kind = MsgKind.amo 0 ∧ (am 0).loc.home = Home.slice 1 ∧ c6x28.mem.wf = true ∧ c6x28.unwatched (am 0).loc.home (am 0).loc.addr 8 = true) := by
  refine ⟨
    ⟨stepMessage_of 0 (by decide +kernel), by decide +kernel⟩,
    ⟨stepMessage_of 0 (by decide +kernel), rfl, by decide +kernel⟩⟩

theorem witness_ResponsesTaken :
    -- .1
    (stepMessage c6x34 c6x35 ∧ c6x35.kind = MsgKind.load ∧ c6x35.resp = some (Resp.value 65521) ∧ c6x35.acq = false ∧ c6x35.size ∈ [1, 2, 4, 8] ∧ c6x35.dest = Dest.reg 0 24 ∧ 0 = c6x35.slot ∧ (c6x34.slot c6x35.cid 0).live = true ∧ (c6x34.slot c6x35.cid 0).serial = c6x35.serial ∧ (c6x34.slot c6x35.cid 0).wait = Wait.result c6x35.id ∧ (c6x34.slot c6x35.cid 0).guest = false ∧ (c6x34.core c6x35.cid).sp.wf = true ∧ c6x34.sound = true ∧ c6x34.unwatched (Home.scratch c6x35.cid) (0 * 1024 + 24) 16 = true) ∧
    -- .2.1
    (stepMessage c6x36 c6x37 ∧ c6x37.kind = MsgKind.load ∧ c6x37.resp = some (Resp.trap c6x38) ∧ (c6x36.slot c6x37.cid c6x37.slot).live = true ∧ (c6x36.slot c6x37.cid c6x37.slot).serial = c6x37.serial ∧ (c6x36.slot c6x37.cid c6x37.slot).wait = Wait.result c6x37.id) ∧
    -- .2.2.1
    (stepMessage c6x39 (sm l2) ∧ c6x39.Settled (sm l2).cid ∧ (sm l2).kind = MsgKind.store ∧ (sm l2).port = none ∧ (c6x39.slot (sm l2).cid (sm l2).slot).live = true ∧ (c6x39.slot (sm l2).cid (sm l2).slot).serial = (sm l2).serial) ∧
    -- .2.2.2.2
    (stepMessage c6x40 (fm true) ∧ (fm true).kind = MsgKind.fill ∧ (fm true).line = some 5) := by
  refine ⟨
    ⟨stepMessage_of 0 (by decide +kernel), by decide +kernel⟩,
    ⟨stepMessage_of 0 (by decide +kernel), by decide +kernel⟩,
    ⟨stepMessage_of 0 (by decide +kernel), settled_of (by decide +kernel), by decide +kernel⟩,
    ⟨stepMessage_of 0 (by decide +kernel), by decide +kernel⟩⟩

end Sys2Proof.Tests.T6

namespace Sys2Proof.Tests.T5
open Sys2Proof.Machine Sys2Proof.Claims

def tl : List TlbEntry := [{region := 0x10000, va := 0x100000, size := 0x10000, pa := 0x200000, w := true, x := true, cls := 0}, {region := 0x10000, va := 0x140000, size := 0x10000, pa := 0x8020000000000+0x20000, w := true, x := true, cls := 0}]
def vt : State := (small 0).modCore 1 fun c => { c with tlb := tl, sp := Mem.write c.sp 24 [0, 0, 0x10, 0, 0, 0, 0, 0, 0, 0, 0x14] }
def vf (a et k : Nat) : XF := ⟨0, 5, BitVec.ofNat 5 a, 1, 0, BitVec.ofNat 4 et, BitVec.ofNat 3 k, false, 0, 0, 0⟩
def lc (s : State) (a : Word) (k : Access) : Loc := (s.placeOf a 16 k).getD {home := .node 3, addr := 0}
def rfn : State := vt.modHere fun x => { x with refusedNode := some 1 }
def vp (a : Nat) : State := vt.modCore 1 fun c => { c with sp := Mem.write c.sp 512 [0, 0, BitVec.ofNat 8 a] }
def pt (s : State) (a : Word) : TrapInfo := match checkAccess s 1 s.here a 16 1 .store with | .error (.trap t) => t | _ => {cause := .trap, tval := 1}
def stm (w : Bool) (b : Word) (n : Nat) (pos : Nat) (ah : List Ahead) : State := vt.modCore 1 fun c => { c with streams := [(1, { write := w, base := b, dims := [(0, n, 16)], pos := pos, ahead := ah, home := 1 })] }
def s_ (w : Bool) (b : Word) (n : Nat) (pos : Nat) (ah : List Ahead) : Stream := { write := w, base := b, dims := [(0, n, 16)], pos := pos, ahead := ah, home := 1 }

def c5x0 : XF := (xf 5 0 1 2 1 0 false 0 3)
def c5x8 : XF := (xf 8 0 1 0 1 1 false 0 0)
def c5x9 : XF := (xf 2 0 1 0 1 1 true 0 0)
def c5x2 : XF := (xf 5 0 1 2 9 0 false 0 0)
def c5x4 : XF := (xf 5 0 1 2 9 0 false 0 0)
def c5x6 : XF := (xf 5 0 1 0 10 1 false 0 0)
def c5x12 : XF := (xf 5 0 1 0 1 1 false 0 2)
def c5x14 : XL := {x := xf 5 0 0 0 1 1 false 0 0, lit := 0xFEDCBA9876543210}
def c5x15 : XF := (xf 5 2 0 0 1 1 false 0 0)
def c5x16 : XL := {x := xf 5 0 0 0 1 1 true 0 0, lit := 0xFEDCBA9876543210}
def c5x17 : XF := (xf 5 0 1 0 1 1 true 0 0)
def c5x22 : XF := (xf 5 0 0 0 1 0 false 0 0)
def c5x24 : XF := (xf 5 0 0 0 9 0 false 0 0)
def c5x25 : XF := (xf 5 0 1 0 1 1 true 0 0)
def c5x27 : XF := (xf 5 1 1 0 0 0 false 0 0)
def c5x29 : XF := ⟨0,5,0,0,0,0,0,false,0,0,0x18765⟩
def c5x30 : XF := (xf 5 1 0 0 9 1 true 0 5)
def c5x32 : XF := (xf 5 1 0 0 9 0 false 0 5)
def c5x33 : XF := (xf 5 0 0 0 1 1 true 0 0)
def c5x35 : XF := (xf 8 1 0 0 1 1 true 0 0)
def c5x37 : XF := ⟨0,5,2,0,0,0,0,false,0,0,16⟩
def c5x38 : XF := ⟨0,0,2,1,0,0,0,false,0,0,16⟩
def c5x41 : Loc := (lc vt 0x100000 .load)
def c5x43 : Loc := (lc vt 0x140000 .load)
def c5x44 : Loc := (lc vt 0x140000 .load)
def c5x45 : Loc := (lc vt 0x100000 .store)
def c5x47 : Loc := (lc vt 0x100000 .store)
def c5x48 : XF := (xf 5 24 1 0 5 1 false 0 0)
def c5x50 : XF := (xf 24 0 1 0 5 1 false 0 0)
def c5x52 : TrapInfo := (pt (vp 6) 0x60000)
def c5x53 : XF := (xf 24 0 1 0 5 1 false 0 0)
def c5x54 : Loc := (lc vt 0x100000 .store)
def c5x55 : XF := (xf 5 24 1 0 5 1 false 0 0)
def c5x56 : Loc := (lc vt 0x100000 .load)
def c5x57 : XF := (xf 5 17 1 0 5 1 false 0 0)
def c5x58 : XF := (xf 5 17 1 0 5 1 false 0 0)
def c5x59 : State := (stm false 0x5000 4 4 [])
def c5x60 : Stream := (s_ false 0x5000 4 4 [])
def c5x61 : XF := (xf 5 17 1 0 5 1 false 0 0)
def c5x62 : State := (stm false 0x5000 4 1 [.word 77])
def c5x63 : Stream := (s_ false 0x5000 4 1 [.word 77])
def c5x64 : XF := (xf 5 17 1 0 5 1 false 0 0)
def c5x65 : State := (stm false 0x5000 4 1 [.here, .here])
def c5x66 : Stream := (s_ false 0x5000 4 1 [.here, .here])
def c5x67 : XF := (xf 5 17 1 0 5 1 false 0 0)
def c5x68 : State := (stm false 0x100000 4 1 [.failed {cause := .perm, tval := 3}])
def c5x69 : Stream := (s_ false 0x100000 4 1 [.failed {cause := .perm, tval := 3}])
def c5x70 : TrapInfo := {cause := .perm, tval := 3}
def c5x71 : XF := (xf 17 0 1 0 5 1 false 0 0)
def c5x72 : State := (stm true 0x5000 4 1 [])
def c5x73 : Stream := (s_ true 0x5000 4 1 [])
def c5x74 : XF := (xf 17 0 1 0 5 1 false 0 0)
def c5x75 : State := (stm true 0x100000 4 1 [])
def c5x76 : Stream := (s_ true 0x100000 4 1 [])
def c5x77 : Loc := (lc vt 0x100010 .store)

theorem witness_IntegerLaneResults :
    -- the statement
    ((Instr.vadd, fun (x x_1 : Nat) (a b x_2 : Int) => a + b) ∈ integerLanes) ∧ ((small 0).admits ((Instr.vadd, fun (x x_1 : Nat) (a b x_2 : Int) => a + b).fst c5x0) = true) ∧ (small 0).here.wait = Wait.ready ∧ (small 0).sound = true ∧ c5x0.a.toNat < 16 ∧ c5x0.b.toNat < 16 ∧ c5x0.c.toNat < 16 ∧ c5x0.d.toNat < 16 ∧ 1 ≤ c5x0.et.toNat ∧ c5x0.et.toNat ≤ 8 := by
  exact ⟨by simp [integerLanes], by decide +kernel⟩

theorem witness_MultiplyAccumulate :
    -- .1
    ((small 0).here.wait = Wait.ready ∧ (small 0).sound = true ∧ c5x8.a.toNat < 16 ∧ c5x8.b.toNat < 16 ∧ (c5x8.et.toNat = 1 ∨ c5x8.et.toNat = 2) ∧ (small 0).admits (Instr.vmacw c5x8) = true ∧ c5x8.d.toNat ≤ 12) ∧
    -- .2
    (c5x9.a.toNat < 16 ∧ c5x9.b.toNat < 16 ∧ (c5x9.et.toNat = 1 ∨ c5x9.et.toNat = 2) ∧ (small 0).admits (Instr.vdot4 c5x9) = true ∧ c5x9.d.toNat < 16) := by
  refine ⟨?_, ?_⟩ <;> decide +kernel

theorem witness_FloatLaneResults :
    -- .1.1
    (((Instr.vfadd, fun (t : Fmt) (m : Mode) (a b x : Nat) => roundF t m (FVal.add m.down (decodeF t a) (decodeF t b))) ∈ floatLaneOps) ∧ ((small 1).admits ((Instr.vfadd, fun (t : Fmt) (m : Mode) (a b x : Nat) => roundF t m (FVal.add m.down (decodeF t a) (decodeF t b))).fst c5x2) = true) ∧ (small 1).here.wait = Wait.ready ∧ (small 1).sound = true ∧ c5x2.a.toNat < 16 ∧ c5x2.b.toNat < 16 ∧ c5x2.c.toNat < 16 ∧ c5x2.d.toNat < 16 ∧ 9 ≤ c5x2.et.toNat ∧ c5x2.et.toNat ≤ 11 ∧ roundingNumber (small 1) c5x2 < 6 ∧ (roundingNumber (small 1) c5x2 = 5 → (small 1).quietReg wsRnd = true)) ∧
    -- .1.2
    (((small 6).admits ((Instr.vfadd, fun (t : Fmt) (m : Mode) (a b x : Nat) => roundF t m (FVal.add m.down (decodeF t a) (decodeF t b))).fst c5x4) = true) ∧ (small 6).here.wait = Wait.ready ∧ (small 6).sound = true ∧ c5x4.a.toNat < 16 ∧ c5x4.b.toNat < 16 ∧ c5x4.c.toNat < 16 ∧ c5x4.d.toNat < 16 ∧ 9 ≤ c5x4.et.toNat ∧ c5x4.et.toNat ≤ 11 ∧ c5x4.ro = 0 ∧ 6 ≤ roundingNumber (small 6) c5x4) ∧
    -- .2
    ((Instr.vfmin, minF) ∈ [(Instr.vfmin, minF), (Instr.vfmax, maxF)] ∧ (small 7).admits ((Instr.vfmin, minF).fst c5x6) = true ∧ (small 7).here.wait = Wait.ready ∧ (small 7).sound = true ∧ c5x6.a.toNat < 16 ∧ c5x6.b.toNat < 16 ∧ c5x6.d.toNat < 16 ∧ 9 ≤ c5x6.et.toNat ∧ c5x6.et.toNat ≤ 11) := by
  refine ⟨
    ⟨by simp [floatLaneOps], by decide +kernel⟩,
    by decide +kernel,
    ⟨by simp, by decide +kernel⟩⟩

theorem witness_LaneMoves :
    -- .1
    (((Instr.vperm, fun (f : XF) (s : State) (l j : Nat) => (false, BitVec.toNat (s.hereQ f.b) / 16 ^ j % 16 % l)) ∈ laneMoves) ∧ ((small 0).admits ((Instr.vperm, fun (f : XF) (s : State) (l j : Nat) => (false, BitVec.toNat (s.hereQ f.b) / 16 ^ j % 16 % l)).fst c5x12) = true) ∧ (small 0).here.wait = Wait.ready ∧ (small 0).sound = true ∧ c5x12.a.toNat < 16 ∧ c5x12.b.toNat < 16 ∧ c5x12.d.toNat < 16 ∧ 1 ≤ c5x12.et.toNat ∧ c5x12.et.toNat ≤ 13) ∧
    -- .2.1
    ((small 0).admits (Instr.vpermLit c5x14) = true ∧ c5x14.x.a.toNat < 16 ∧ c5x14.x.d.toNat < 16 ∧ 1 ≤ c5x14.x.et.toNat ∧ c5x14.x.et.toNat ≤ 13) ∧
    -- .2.2.1
    ((small 0).admits (Instr.vsplat c5x15) = true ∧ c5x15.a.toNat < 28 ∧ c5x15.d.toNat < 16 ∧ 1 ≤ c5x15.et.toNat ∧ c5x15.et.toNat ≤ 13) ∧
    -- .2.2.2.1
    ((small 0).admits (Instr.vsplatLit c5x16) = true ∧ c5x16.x.d.toNat < 16 ∧ 1 ≤ c5x16.x.et.toNat ∧ c5x16.x.et.toNat ≤ 13) ∧
    -- .2.2.2.2
    ((small 0).admits (Instr.vsel c5x17) = true ∧ c5x17.a.toNat < 16 ∧ c5x17.b.toNat < 16 ∧ c5x17.d.toNat < 16 ∧ 1 ≤ c5x17.et.toNat ∧ c5x17.et.toNat ≤ 13) := by
  refine ⟨
    ⟨by simp [laneMoves], by decide +kernel⟩,
    by decide +kernel,
    by decide +kernel,
    by decide +kernel,
    by decide +kernel⟩

theorem witness_Reductions :
    -- .2
    ((small 0).admits (Instr.vred c5x22) = true ∧ (small 0).here.wait = Wait.ready ∧ (small 0).sound = true ∧ c5x22.a.toNat < 16 ∧ c5x22.d.toNat < 16 ∧ 1 ≤ c5x22.et.toNat ∧ c5x22.et.toNat ≤ 11 ∧ c5x22.aux8.toNat < 3 ∧ (9 ≤ c5x22.et.toNat ∧ c5x22.aux8 = 0 → roundingNumber (small 0) c5x22 < 6) ∧ (roundingNumber (small 0) c5x22 = 5 → (small 0).quietReg wsRnd = true)) ∧
    -- .1
    ((small 7).admits (Instr.vred c5x24) = true ∧ (small 7).here.wait = Wait.ready ∧ (small 7).sound = true ∧ c5x24.a.toNat < 16 ∧ c5x24.d.toNat < 16 ∧ 1 ≤ c5x24.et.toNat ∧ c5x24.et.toNat ≤ 11 ∧ c5x24.aux8.toNat < 3 ∧ 9 ≤ c5x24.et.toNat ∧ c5x24.aux8 = 0 ∧ c5x24.ro = 0 ∧ 6 ≤ roundingNumber (small 7) c5x24) := by
  refine ⟨?_, ?_⟩ <;> decide +kernel

theorem witness_PredicateResults :
    -- .1
    ((small 0).admits (Instr.vcmp c5x25) = true ∧ (small 0).here.wait = Wait.ready ∧ (small 0).sound = true ∧ c5x25.a.toNat < 16 ∧ c5x25.b.toNat < 16 ∧ 1 ≤ c5x25.et.toNat ∧ c5x25.et.toNat ≤ 13 ∧ c5x25.aux8.toNat < 6) ∧
    -- .2.1
    (((Instr.kand, fun (a b : BitVec 16) => a &&& b) ∈ [(Instr.kand, fun (a b : BitVec 16) => a &&& b), (Instr.kor, fun (a b : BitVec 16) => a ||| b), (Instr.knot, fun (a x : BitVec 16) => ~~~a), (Instr.kmov, fun (a x : BitVec 16) => a)]) ∧ ((small 0).admits ((Instr.kand, fun (a b : BitVec 16) => a &&& b).fst c5x27) = true)) ∧
    -- .2.2
    (small 0).admits (Instr.kmovImm c5x29) = true := by
  refine ⟨
    by decide +kernel,
    ⟨by simp, by decide +kernel⟩,
    by decide +kernel⟩

theorem witness_LaneConversions :
    -- .1.2
    ((Instr.vfcvt c5x30).wf = true ∧ (small 0).admits (Instr.vfcvt c5x30) = true ∧ (small 0).here.wait = Wait.ready ∧ (small 0).sound = true ∧ c5x30.a.toNat < 16 ∧ c5x30.d.toNat < 16 ∧ (roundingNumber (small 0) c5x30 < 6 ∨ exactTypes c5x30.et.toNat (c5x30.aux8.toNat % 16) = true) ∧ (roundingNumber (small 0) c5x30 = 5 → (small 0).quietReg wsRnd = true)) ∧
    -- .1.1
    ((Instr.vfcvt c5x32).wf = true ∧ (small 6).admits (Instr.vfcvt c5x32) = true ∧ (small 6).here.wait = Wait.ready ∧ (small 6).sound = true ∧ c5x32.a.toNat < 16 ∧ c5x32.d.toNat < 16 ∧ c5x32.ro = 0 ∧ 6 ≤ roundingNumber (small 6) c5x32 ∧ exactTypes c5x32.et.toNat (c5x32.aux8.toNat % 16) = false) ∧
    -- .2.1
    ((small 0).admits (Instr.vnarrow c5x33) = true ∧ c5x33.d.toNat < 16 ∧ 1 ≤ c5x33.et.toNat ∧ c5x33.et.toNat ≤ 4 ∧ c5x33.a.toNat + 32 / laneWidth c5x33.et.toNat ≤ 16) ∧
    -- .2.2
    ((small 0).admits (Instr.vwiden c5x35) = true ∧ c5x35.a.toNat < 16 ∧ 1 ≤ c5x35.et.toNat ∧ c5x35.et.toNat ≤ 4) := by
  refine ⟨?_, ?_, ?_, ?_⟩ <;> decide +kernel

theorem witness_VectorLoadsAndStores_1 :
    -- .1.1
    ((small 0).ownRange ((small 0).hereW c5x37.a + BitVec.signExtend 64 c5x37.aux32) 16 false 20496 ∧ (small 0).admits (Instr.vld c5x37) = true ∧ (small 0).here.wait = Wait.ready ∧ (small 0).sound = true ∧ c5x37.a.toNat < 28 ∧ c5x37.d.toNat < 16 ∧ c5x37.et.toNat ≤ 13 ∧ (c5x37.et = 0 → c5x37.k = 0)) ∧
    -- .2.1
    ((small 0).ownRange ((small 0).hereW c5x38.a + BitVec.signExtend 64 c5x38.aux32) 16 true 20496 ∧ (small 0).admits (Instr.vst c5x38) = true ∧ (small 0).hereCore.sp.wf = true ∧ c5x38.a.toNat < 28 ∧ c5x38.b.toNat < 16 ∧ c5x38.et.toNat ≤ 13 ∧ (c5x38.et = 0 → c5x38.k = 0) ∧ (small 0).unwritten (small 0).curCid 20496 16 = true ∧ (small 0).unwatched (Home.scratch (small 0).curCid) 20496 16 = true) ∧
    -- .1.2.1
    (vt.admits (Instr.vld (vf 3 5 1)) = true ∧ vt.here.wait = Wait.ready ∧ vt.sound = true ∧ (vf 3 5 1).a.toNat < 28 ∧ (vf 3 5 1).d.toNat < 16 ∧ (vf 3 5 1).et.toNat ≤ 13 ∧ ((vf 3 5 1).et = 0 → (vf 3 5 1).k = 0) ∧ vt.placeOf (vt.hereW (vf 3 5 1).a + BitVec.signExtend 64 (vf 3 5 1).aux32) 16 Access.load = some c5x41 ∧ c5x41.home ≠ Home.scratch vt.curCid ∧ c5x41.home.isNode = false) := by
  refine ⟨
    ⟨by delta State.ownRange; delta State.ownAddress; decide +kernel, by decide +kernel⟩,
    ⟨by delta State.ownRange; delta State.ownAddress; decide +kernel, by decide +kernel⟩,
    by decide +kernel⟩

theorem witness_VectorLoadsAndStores_2 :
    -- .1.2.2.1
    (vt.admits (Instr.vld (vf 4 5 1)) = true ∧ (vf 4 5 1).a.toNat < 28 ∧ (vf 4 5 1).d.toNat < 16 ∧ (vf 4 5 1).et.toNat ≤ 13 ∧ ((vf 4 5 1).et = 0 → (vf 4 5 1).k = 0) ∧ vt.placeOf (vt.hereW (vf 4 5 1).a + BitVec.signExtend 64 (vf 4 5 1).aux32) 16 Access.load = some c5x43 ∧ c5x43.home ≠ Home.scratch vt.curCid ∧ c5x43.home = Home.node 1 ∧ vt.here.refusedNode ≠ some 1) ∧
    -- .1.2.2.2
    (rfn.admits (Instr.vld (vf 4 5 1)) = true ∧ rfn.here.wait = Wait.ready ∧ rfn.sound = true ∧ rfn.placeOf (rfn.hereW (vf 4 5 1).a + BitVec.signExtend 64 (vf 4 5 1).aux32) 16 Access.load = some c5x44 ∧ c5x44.home ≠ Home.scratch rfn.curCid ∧ c5x44.home = Home.node 1 ∧ rfn.here.refusedNode = some 1) ∧
    -- .2.2.1
    (vt.admits (Instr.vst (vf 3 5 1)) = true ∧ (vf 3 5 1).b.toNat < 16 ∧ vt.placeOf (vt.hereW (vf 3 5 1).a + BitVec.signExtend 64 (vf 3 5 1).aux32) 16 Access.store = some c5x45 ∧ c5x45.home ≠ Home.scratch vt.curCid ∧ (∃ (k : Nat), k < 16 ∧ (fun (k : Nat) => laneOn vt (vf 3 5 1) (k / ((if (vf 3 5 1).et = 0 then 8 else laneWidth (vf 3 5 1).et.toNat) / 8))) k = true)) ∧
    -- .2.2.2
    (vt.admits (Instr.vst (vf 3 5 3)) = true ∧ (vf 3 5 3).a.toNat < 28 ∧ (vf 3 5 3).b.toNat < 16 ∧ (vf 3 5 3).et.toNat ≤ 13 ∧ ((vf 3 5 3).et = 0 → (vf 3 5 3).k = 0) ∧ vt.placeOf (vt.hereW (vf 3 5 3).a + BitVec.signExtend 64 (vf 3 5 3).aux32) 16 Access.store = some c5x47 ∧ c5x47.home ≠ Home.scratch vt.curCid ∧ (∀ (k : Nat), k < 16 → (fun (k : Nat) => laneOn vt (vf 3 5 3) (k / ((if (vf 3 5 3).et = 0 then 8 else laneWidth (vf 3 5 3).et.toNat) / 8))) k = false)) := by
  refine ⟨?_, ?_, ?_, ?_⟩ <;> decide +kernel

theorem witness_PointerOperands_1 :
    -- .1
    (((Instr.vadd, fun (x x_1 : Nat) (a b x_2 : Int) => a + b) ∈ integerLanes) ∧ (∀ (j : Nat), j ∈ pointerFields c5x48 → pointerGood (small 0) c5x48 j ((fun (x : Nat) => 20496) j)) ∧ (((Instr.vadd, fun (x x_1 : Nat) (a b x_2 : Int) => a + b).fst c5x48).wf = true) ∧ ((small 0).admits ((Instr.vadd, fun (x x_1 : Nat) (a b x_2 : Int) => a + b).fst c5x48) = true) ∧ (small 0).here.wait = Wait.ready ∧ (small 0).sound = true ∧ (small 0).canonHere = true ∧ (∀ (c : BitVec 5), c ∈ vectorFields c5x48 → c.toNat < 16 ∨ 24 ≤ c.toNat)) ∧
    -- .2.1.1.1
    ((((Instr.vadd, fun (x x_1 : Nat) (a b x_2 : Int) => a + b).fst c5x50).wf = true) ∧ ((vp 6).admits ((Instr.vadd, fun (x x_1 : Nat) (a b x_2 : Int) => a + b).fst c5x50) = true) ∧ (vp 6).here.wait = Wait.ready ∧ (vp 6).sound = true ∧ (vp 6).canonHere = true ∧ 0 < 8 ∧ (vp 6).quietReg (512 + 8 * 0) = true ∧ c5x50.d.toNat = 24 + 0 ∧ c5x50.a.toNat < 16 ∧ c5x50.b.toNat < 16 ∧ c5x50.c.toNat < 16 ∧ (vp 6).trapOfAccess ((vp 6).preg (vp 6).curCid (vp 6).curSlot 0) 16 Access.store = some c5x52) ∧
    -- .2.1.1.2
    ((((Instr.vadd, fun (x x_1 : Nat) (a b x_2 : Int) => a + b).fst c5x53).wf = true) ∧ ((vp 16).admits ((Instr.vadd, fun (x x_1 : Nat) (a b x_2 : Int) => a + b).fst c5x53) = true) ∧ (vp 16).here.wait = Wait.ready ∧ (vp 16).sound = true ∧ (vp 16).canonHere = true ∧ (vp 16).quietReg (512 + 8 * 0) = true ∧ c5x53.d.toNat = 24 + 0 ∧ c5x53.a.toNat < 16 ∧ c5x53.b.toNat < 16 ∧ c5x53.c.toNat < 16 ∧ (vp 16).placeOf ((vp 16).preg (vp 16).curCid (vp 16).curSlot 0) 16 Access.store = some c5x54 ∧ c5x54.home ≠ Home.scratch (vp 16).curCid) := by
  refine ⟨
    ⟨by simp [integerLanes], by delta pointerGood; delta State.ownRange; delta State.ownAddress; decide +kernel, by decide +kernel⟩,
    by decide +kernel,
    by decide +kernel⟩

theorem witness_PointerOperands_2 :
    -- .2.1.2
    ((((Instr.vadd, fun (x x_1 : Nat) (a b x_2 : Int) => a + b).fst c5x55).wf = true) ∧ ((vp 16).admits ((Instr.vadd, fun (x x_1 : Nat) (a b x_2 : Int) => a + b).fst c5x55) = true) ∧ c5x55.a.toNat = 24 + 0 ∧ c5x55.b.toNat < 16 ∧ c5x55.c.toNat < 16 ∧ c5x55.d.toNat < 16 ∧ (vp 16).placeOf ((vp 16).preg (vp 16).curCid (vp 16).curSlot 0) 16 Access.load = some c5x56 ∧ c5x56.home ≠ Home.scratch (vp 16).curCid ∧ c5x56.home.isNode = false) ∧
    -- .2.2.1.1
    ((((Instr.vadd, fun (x x_1 : Nat) (a b x_2 : Int) => a + b).fst c5x57).wf = true) ∧ ((small 0).admits ((Instr.vadd, fun (x x_1 : Nat) (a b x_2 : Int) => a + b).fst c5x57) = true) ∧ 1 < 4 ∧ c5x57.b.toNat < 16 ∧ c5x57.c.toNat < 16 ∧ c5x57.a.toNat = 16 + 1 ∧ c5x57.d.toNat < 16 ∧ tfind (small 0).hereCore.streams 1 = none) ∧
    -- .2.2.1.2.1
    ((((Instr.vadd, fun (x x_1 : Nat) (a b x_2 : Int) => a + b).fst c5x58).wf = true) ∧ (c5x59.admits ((Instr.vadd, fun (x x_1 : Nat) (a b x_2 : Int) => a + b).fst c5x58) = true) ∧ c5x59.here.wait = Wait.ready ∧ c5x59.sound = true ∧ c5x58.b.toNat < 16 ∧ c5x58.c.toNat < 16 ∧ c5x58.a.toNat = 16 + 1 ∧ c5x58.d.toNat < 16 ∧ tfind c5x59.hereCore.streams 1 = some c5x60 ∧ c5x60.write = false ∧ c5x60.addr? c5x60.pos = none ∧ c5x60.ahead = []) := by
  refine ⟨?_, ?_, ?_⟩ <;> decide +kernel

theorem witness_PointerOperands_3 :
    -- .2.2.1.2.2.1
    ((((Instr.vadd, fun (x x_1 : Nat) (a b x_2 : Int) => a + b).fst c5x61).wf = true) ∧ (c5x62.admits ((Instr.vadd, fun (x x_1 : Nat) (a b x_2 : Int) => a + b).fst c5x61) = true) ∧ c5x62.here.wait = Wait.ready ∧ c5x62.sound = true ∧ c5x61.b.toNat < 16 ∧ c5x61.c.toNat < 16 ∧ c5x61.a.toNat = 16 + 1 ∧ c5x61.d.toNat < 16 ∧ tfind c5x62.hereCore.streams 1 = some c5x63 ∧ c5x63.write = false ∧ c5x63.addr? c5x63.pos = some 20496 ∧ c5x63.ahead.head? = some (Ahead.word 77)) ∧
    -- .2.2.1.2.2.2.1
    (c5x65.ownRange 20496 16 false 20496 ∧ (((Instr.vadd, fun (x x_1 : Nat) (a b x_2 : Int) => a + b).fst c5x64).wf = true) ∧ (c5x65.admits ((Instr.vadd, fun (x x_1 : Nat) (a b x_2 : Int) => a + b).fst c5x64) = true) ∧ c5x65.here.wait = Wait.ready ∧ c5x65.sound = true ∧ c5x64.b.toNat < 16 ∧ c5x64.c.toNat < 16 ∧ c5x64.a.toNat = 16 + 1 ∧ c5x64.d.toNat < 16 ∧ tfind c5x65.hereCore.streams 1 = some c5x66 ∧ c5x66.write = false ∧ c5x66.addr? c5x66.pos = some 20496 ∧ c5x66.ahead.head? = some Ahead.here ∧ State.ownScratch c5x65.curCid c5x66.home 20496 = true) := by
  refine ⟨
    by decide +kernel,
    ⟨by delta State.ownRange; delta State.ownAddress; decide +kernel, by decide +kernel⟩⟩

theorem witness_PointerOperands_4 :
    -- .2.2.1.2.2.2.2
    ((((Instr.vadd, fun (x x_1 : Nat) (a b x_2 : Int) => a + b).fst c5x67).wf = true) ∧ (c5x68.admits ((Instr.vadd, fun (x x_1 : Nat) (a b x_2 : Int) => a + b).fst c5x67) = true) ∧ c5x68.here.wait = Wait.ready ∧ c5x68.sound = true ∧ c5x67.b.toNat < 16 ∧ c5x67.c.toNat < 16 ∧ c5x67.a.toNat = 16 + 1 ∧ c5x67.d.toNat < 16 ∧ tfind c5x68.hereCore.streams 1 = some c5x69 ∧ c5x69.write = false ∧ c5x69.addr? c5x69.pos = some 1048592 ∧ c5x69.ahead.head? = some (Ahead.failed c5x70)) ∧
    -- .2.2.2.1
    (c5x72.ownRange 20496 16 true 20496 ∧ (((Instr.vadd, fun (x x_1 : Nat) (a b x_2 : Int) => a + b).fst c5x71).wf = true) ∧ (c5x72.admits ((Instr.vadd, fun (x x_1 : Nat) (a b x_2 : Int) => a + b).fst c5x71) = true) ∧ c5x72.here.wait = Wait.ready ∧ c5x72.sound = true ∧ c5x71.b.toNat < 16 ∧ c5x71.c.toNat < 16 ∧ c5x71.a.toNat < 16 ∧ c5x71.d.toNat = 16 + 1 ∧ tfind c5x72.hereCore.streams 1 = some c5x73 ∧ c5x73.write = true ∧ c5x73.addr? c5x73.pos = some 20496) := by
  refine ⟨
    by decide +kernel,
    ⟨by delta State.ownRange; delta State.ownAddress; decide +kernel, by decide +kernel⟩⟩

theorem witness_PointerOperands_5 :
    -- .2.2.2.2
    (((Instr.vadd, fun (x x_1 : Nat) (a b x_2 : Int) => a + b).fst c5x74).wf = true) ∧ (c5x75.admits ((Instr.vadd, fun (x x_1 : Nat) (a b x_2 : Int) => a + b).fst c5x74) = true) ∧ c5x75.here.wait = Wait.ready ∧ c5x75.sound = true ∧ c5x74.b.toNat < 16 ∧ c5x74.c.toNat < 16 ∧ c5x74.a.toNat < 16 ∧ c5x74.d.toNat = 16 + 1 ∧ tfind c5x75.hereCore.streams 1 = some c5x76 ∧ c5x76.write = true ∧ c5x76.addr? c5x76.pos = some 1048592 ∧ c5x75.placeOf 1048592 16 Access.store = some c5x77 ∧ c5x77.home ≠ Home.scratch c5x75.curCid ∧ c5x76.unacked < 8 := by
  exact by decide +kernel

end Sys2Proof.Tests.T5

namespace Sys2Proof.Tests.T20
open Sys2Proof.Machine Sys2Proof.Claims

def f : XF := ⟨0, 1, 2, 3, 0, 15, 0, false, 0, 9, 0⟩
def m : Msg := { id := 4, kind := .instr, cid := 1, slot := 0, serial := 7, region := 0x10000, va := 0, loc := {home := .scratch 1, addr := 0}, size := 16, bytes := (List.range 2048).map fun i => BitVec.ofNat 8 (i * 7 + i / 256), ins := .mxldw f }
def s : State := { (small 0).modSlot 1 0 (fun x => { x with wait := .engine 4 }) with net := [m], obj := {a := 4}, groups := [(1, {gid := 1, region := 0x10000, header := {nsafe := 5}, mode := {det := true}, pitch := [0, 1, 2, 3], state := .running })] }

def c20x0 : Group := {gid := 1, region := 0x10000, header := {nsafe := 5}, mode := {det := true}, pitch := [0, 1, 2, 3], state := .running }

theorem witness_ResponsesTaken :
    -- .2.2.2.1
    stepMessage s m ∧ m.kind = MsgKind.instr ∧ m.ins = Instr.mxldw f ∧ (s.slot m.cid m.slot).live = true ∧ (s.slot m.cid m.slot).serial = m.serial ∧ (s.slot m.cid m.slot).wait = Wait.engine m.id ∧ s.sound = true ∧ s.groupOf m.cid = some c20x0 ∧ engineOf c20x0.pitch f.d.toNat = some 1 := by
  exact ⟨stepMessage_of 0 (by decide +kernel), by decide +kernel⟩

end Sys2Proof.Tests.T20

namespace Sys2Proof.Tests.T7
open Sys2Proof.Machine Sys2Proof.Claims

def p0 : Stream := { write := false, base := 0x5000, dims := [(0,4,16),(0,1,0),(0,1,0),(0,1,0)] }
def p1 : Stream := { write := false, base := 0x80000, dims := [(0,4,16),(0,1,0),(0,1,0),(0,1,0)], ahead := [.word 3], home := 1 }
def st (p : Stream) : State := { (small 0).modCore 1 fun c => { c with streams := [(1, p)] } with obj := { a := 1, b := 1 } }
def l2 : Loc := { home := .scratch 9, addr := 0x5000, pa := 0 }
def p2 : Stream := { p1 with base := 2^55 + 9 * 2^19 + 0x4FF0 }
def w1 : OutWord := ⟨1, some 2, 1, 0, 7⟩
def b1 : Binding := {cid := 1, remote := 2, gid := 1}
def cs : State := { (small 0).modCore 1 fun x => { x with chans := [(1, { inq := [{ word := 5 }], bound := some b1, flight := [w1] }), (2, {inq := [{ word := 4 }], bound := some {cid := 3, remote := 2, gid := 1}, out := [w1]})] } with obj := { a := 1, b := 1 } }
def csd : State := cs.modChan 1 1 fun ch => { ch with flight := [{w1 with cid := 1, slot := 0, serial := 7}], bound := some {b1 with remote := 5} }

def c7x0 : State := (st {p0 with write := true})
def c7x1 : Stream := {p0 with write := true}
def c7x2 : Word := (2^55 + 9 * 2^19 + 0x5000)
def c7x3 : Binding := {b1 with remote := 5}
def c7x4 : OutWord := {w1 with cid := 1, slot := 0, serial := 7}

theorem witness_WordsOnTheirWay :
    -- .1
    (tfind (c7x0.core c7x0.obj.a).streams c7x0.obj.b = some c7x1 ∧ (c7x1.write = true ∨ 8 ≤ c7x1.ahead.length)) ∧
    -- .2.1
    (tfind ((st p2).core (st p2).obj.a).streams (st p2).obj.b = some p2 ∧ p2.write = false ∧ p2.ahead.length < 8 ∧ p2.addr? (p2.pos + p2.ahead.length) = some c7x2 ∧ State.ownScratch (st p2).obj.a p2.home c7x2 = false ∧ (Option.map (fun (x : Loc × State) => x.fst) (checkAccess (st p2) (st p2).obj.a ((st p2).streamSlot (st p2).obj.a p2) c7x2 16 0 Access.engineRead).toOption = some l2)) ∧
    -- .2.2.1
    (cs.Settled cs.obj.a ∧ (cs.chan cs.obj.a cs.obj.b).bound = some b1 ∧ (cs.chan cs.obj.a cs.obj.b).binds = cs.obj.c ∧ (cs.chan cs.obj.a cs.obj.b).flight = [w1] ∧ w1.word = some 2 ∧ (cs.core b1.cid).gid = b1.gid ∧ (cs.chan b1.cid b1.remote).bound.isSome = true ∧ cs.senders b1.cid b1.remote = [(cs.obj.a, cs.obj.b)] ∧ (cs.chan cs.obj.a cs.obj.b).out = []) ∧
    -- .2.2.2.1
    (csd.Settled csd.obj.a ∧ (csd.chan csd.obj.a csd.obj.b).bound = some c7x3 ∧ (csd.chan csd.obj.a csd.obj.b).binds = csd.obj.c ∧ (csd.chan csd.obj.a csd.obj.b).flight = [c7x4] ∧ ((csd.core c7x3.cid).gid ≠ c7x3.gid ∨ (csd.chan c7x3.cid c7x3.remote).bound = none) ∧ (csd.chan csd.obj.a csd.obj.b).out = [] ∧ c7x4.serial ≠ 0 ∧ csd.ownerOf c7x4.cid c7x4.slot c7x4.serial = some (1, 0) ∧ (csd.slot 1 0).wait = Wait.ready) := by
  refine ⟨
    by decide +kernel,
    by decide +kernel,
    ⟨settled_of (by decide +kernel), by decide +kernel⟩,
    ⟨settled_of (by decide +kernel), by decide +kernel⟩⟩

end Sys2Proof.Tests.T7

namespace Sys2Proof.Tests.T9
open Sys2Proof.Machine Sys2Proof.Claims

def XX (a b aux8 aux32 : Nat) : XF := ⟨0,0,BitVec.ofNat 5 a,BitVec.ofNat 5 b,0,0,0,false,0,BitVec.ofNat 8 aux8,BitVec.ofNat 32 aux32⟩
def G0 : Group := { gid := 1, region := 0x10000, header := {nsafe := 5, contexts := 4}, mode := {det := true}, pitch := [1], state := .running }
def withG (s : State) (g : Group) : State := { s with groups := [(1, g)] }
def ini (a : Nat) : State := withG ((small 0).modCore 1 fun c => { c with sp := by_ 8 [a % 256, a / 256] ++ by_ 16 [0x00,0x50] }) G0
def gu (s : State) : State := s.modSlot 1 0 fun x => { x with guest := true }
def stl : State := { (ini 3).modSlot 1 0 fun x => { x with stall := some 7, yield := some 6 } with obj := { a := 1 } }
def f1 := XX 1 2 0 5
def f1R := XX 1 2 1 0
def tk := (ini 3).modSlot 1 3 fun x => { x with live := true, idx := 9 }
def lv := (ini 3).modSlot 1 3 fun x => { x with live := true, idx := 3, home := 1, gid := 1, serial := 99 }
def hx : State := { lv with curSlot := 3 }
def G2 : Group := { G0 with pitch := [1,2] }
def G3 : Group := { G0 with pitch := [0,1] }
def G4 : Group := { G0 with rdv := [(5, { phase := 7, expect := 4, arrived := 1 })] }
def M0 (id : Nat) (kind : MsgKind) (loc : Loc) (size : Nat) : Msg :=
  { id := id, kind := kind, cid := 1, slot := 0, serial := 7, region := 0x10000, va := 0x80000, loc := loc, size := size, ins := .storeAck }
def l2 : Loc := { home := .scratch 3, addr := 0x10000 }
def un := { (withG (ini 3) G3) with net := [{ (M0 3 .store l2 8) with scope := 1 }] }

def c9x0 : State := ((ini 3).modCore 1 fun c => {c with chans := [(1,{bound := some ⟨1,2,1⟩})]})
def c9x1 : State := ((ini 3).modCore 1 fun c => {c with feat := 1})
def c9x2 : State := (((ini 3).modCore 1 fun c => {c with pend := [⟨9,0,.reg 0 16,0,0xff⟩]}).modSlot 1 0 fun x => { x with mode := { x.mode with sbchk := true } })
def c9x3 : State := ((ini 3).modSlot 1 0 fun x => { x with idx := 2 })
def c9x4 : State := (stl.modCore 1 fun c => { c with turn := 7 })
def c9x5 : State := (stl.modCore 1 fun c => { c with turn := 7 })
def c9x6 : Word := ((ini 3).here.pc + 20)
def c9x7 : Word := ((ini 4).here.pc + 20)
def c9x9 : Word := ((ini 3).here.pc + 20)
def c9x11 : XF := {f1R with b := 1}
def c9x12 : State := (withG lv G2)
def c9x13 : State := (withG (ini 3) G3)
def c9x14 : State := (withG (ini 3) G4)
def c9x15 : State := (withG (ini 3) G4)
def c9x16 : State := (withG (ini 3) G3)
def c9x17 : XF := (XX 1 0 37 0)
def c9x19 : XF := (XX 2 0 37 0)
def c9x20 : State := ((ini 3).modCore 1 fun c => {c with sp := by_ 16 [1,2,3]})

theorem witness_DecodeOfEncode :
    -- the statement
    (Instr.add { st := 0, d := 31, a := 31, b := 31 : RF }).wf = true := by
  exact by decide +kernel

theorem witness_EncodeOfDecode :
    -- the statement
    decode [339810356] = some (Instr.div { st := 5, d := 3, a := 1, b := 2 : RF }) := by
  exact by decide +kernel

theorem witness_IssueGates_1 :
    -- .1.1
    ((Instr.exit (XX 0 0 0 0)).wf = true ∧ (gu (ini 3)).here.late = [] ∧ ((gu (ini 3)).here.guest && State.atHomeOnly (Instr.exit (XX 0 0 0 0))) = true) ∧
    -- .1.2.1
    ((Instr.add { st := 0, d := 29, a := 29, b := 29 : RF }).wf = true ∧ c9x0.here.late = [] ∧ (c9x0.here.guest && State.atHomeOnly (Instr.add { st := 0, d := 29, a := 29, b := 29 : RF })) = false ∧ c9x0.heldFor c9x0.curCid c9x0.curSlot (Instr.add { st := 0, d := 29, a := 29, b := 29 : RF }) = true) ∧
    -- .1.2.2.1
    ((Instr.mxswap (XX 0 0 0 0)).wf = true ∧ c9x1.here.late = [] ∧ (c9x1.here.guest && State.atHomeOnly (Instr.mxswap (XX 0 0 0 0))) = false ∧ c9x1.heldFor c9x1.curCid c9x1.curSlot (Instr.mxswap (XX 0 0 0 0)) = false ∧ c9x1.here.idx = 0 ∧ BitVec.toNat (rndHere c9x1) % 8 < 6 ∧ c9x1.hereCore.feat.getLsbD (Instr.mxswap (XX 0 0 0 0)).feature = false) ∧
    -- .1.2.2.2
    ((Instr.add { st := 0, d := 1, a := 2, b := 3 : RF }).wf = true ∧ c9x2.here.late = [] ∧ (c9x2.here.guest && State.atHomeOnly (Instr.add { st := 0, d := 1, a := 2, b := 3 : RF })) = false ∧ c9x2.heldFor c9x2.curCid c9x2.curSlot (Instr.add { st := 0, d := 1, a := 2, b := 3 : RF }) = false ∧ c9x2.here.idx = 0 ∧ BitVec.toNat (rndHere c9x2) % 8 < 6 ∧ c9x2.hereCore.feat.getLsbD (Instr.add { st := 0, d := 1, a := 2, b := 3 : RF }).feature = true ∧ c9x2.here.mode.sbchk = true ∧ c9x2.firstAwaited c9x2.curCid c9x2.curSlot (uses (Instr.add { st := 0, d := 1, a := 2, b := 3 : RF })) = some 16) ∧
    -- .2.1
    (((fun (f : XF) => Instr.start f) ∈ [Instr.start, Instr.startR, Instr.reap, Instr.resole]) ∧ c9x3.here.late = [] ∧ c9x3.here.guest = false ∧ (c9x3.heldFor c9x3.curCid c9x3.curSlot ((fun (f : XF) => Instr.start f) (XX 0 0 0 0)) = false) ∧ c9x3.here.idx ≠ 0) ∧
    -- .2.2.1
    (ini 3).here.late = [] ∧
    -- .2.2.2.1
    ((ini 3).admits (Instr.nop { st := 5, d := 0, a := 0, b := 0 : RF }) = true ∧ (ini 3).here.wait = Wait.ready) := by
  refine ⟨
    by decide +kernel,
    by decide +kernel,
    by decide +kernel,
    by decide +kernel,
    ⟨by simp, by decide +kernel⟩,
    by decide +kernel,
    by decide +kernel⟩

theorem witness_IssueGates_2 :
    -- .2.2.2.2.1
    ((stl.slot 1 0).stall = some 7 ∧ (stl.core 1).turn < 7) ∧
    -- .2.2.2.2.2.1
    ((c9x4.slot c9x4.obj.a c9x4.obj.b).stall = some 7 ∧ 7 ≤ (c9x4.core c9x4.obj.a).turn) ∧
    -- .2.2.2.2.2.2.1
    (ini 3).admits (Instr.yield (XX 0 0 3 0)) = true ∧
    -- .2.2.2.2.2.2.2
    ((c9x5.slot c9x5.obj.a c9x5.obj.b).yield = some 6 ∧ 6 ≤ (c9x5.core c9x5.obj.a).turn) := by
  refine ⟨?_, ?_, ?_, ?_⟩ <;> decide +kernel

theorem witness_HelpersAndExit_1 :
    -- .1.2.1
    ((ini 3).groupOf (ini 3).curCid = some G0 ∧ (ini 3).here.idx = 0 ∧ (ini 3).curSlot = 0 ∧ (Instr.start f1 = Instr.start f1 ∧ c9x6 = (ini 3).here.pc + 4 * BitVec.signExtend 64 f1.aux32 ∨ Instr.start f1 = Instr.startR f1 ∧ c9x6 = (ini 3).hereW f1.b ∧ BitVec.toNat c9x6 % 4 = 0 ∧ f1.b.toNat < 28) ∧ (ini 3).admits (Instr.start f1) = true ∧ (ini 3).here.wait = Wait.ready ∧ (ini 3).sound = true ∧ f1.a.toNat < 28 ∧ 0 < BitVec.toNat ((ini 3).hereW f1.a) ∧ BitVec.toNat ((ini 3).hereW f1.a) < G0.header.contexts ∧ (ini 3).contextLive (ini 3).curCid (BitVec.toNat ((ini 3).hereW f1.a)) = false ∧ (ini 3).slotTakenByOther (ini 3).curCid (BitVec.toNat ((ini 3).hereW f1.a)) = false) ∧
    -- .1.1
    ((ini 4).groupOf (ini 4).curCid = some G0 ∧ (ini 4).here.idx = 0 ∧ (ini 4).curSlot = 0 ∧ (Instr.start f1 = Instr.start f1 ∧ c9x7 = (ini 4).here.pc + 4 * BitVec.signExtend 64 f1.aux32 ∨ Instr.start f1 = Instr.startR f1 ∧ c9x7 = (ini 4).hereW f1.b ∧ BitVec.toNat c9x7 % 4 = 0 ∧ f1.b.toNat < 28) ∧ (ini 4).admits (Instr.start f1) = true ∧ (ini 4).here.wait = Wait.ready ∧ (ini 4).sound = true ∧ (BitVec.toNat ((ini 4).hereW f1.a) = 0 ∨ G0.header.contexts ≤ BitVec.toNat ((ini 4).hereW f1.a) ∨ (ini 4).contextLive (ini 4).curCid (BitVec.toNat ((ini 4).hereW f1.a)) = true)) ∧
    -- .1.2.2
    (tk.groupOf tk.curCid = some G0 ∧ tk.here.idx = 0 ∧ tk.curSlot = 0 ∧ (Instr.start f1 = Instr.start f1 ∧ c9x9 = tk.here.pc + 4 * BitVec.signExtend 64 f1.aux32 ∨ Instr.start f1 = Instr.startR f1 ∧ c9x9 = tk.hereW f1.b ∧ BitVec.toNat c9x9 % 4 = 0 ∧ f1.b.toNat < 28) ∧ tk.admits (Instr.start f1) = true ∧ tk.here.wait = Wait.ready ∧ tk.sound = true ∧ 0 < BitVec.toNat (tk.hereW f1.a) ∧ BitVec.toNat (tk.hereW f1.a) < G0.header.contexts ∧ tk.contextLive tk.curCid (BitVec.toNat (tk.hereW f1.a)) = false ∧ tk.slotTakenByOther tk.curCid (BitVec.toNat (tk.hereW f1.a)) = true) := by
  refine ⟨?_, ?_, ?_⟩ <;> decide +kernel

theorem witness_HelpersAndExit_2 :
    -- .2.1
    ((ini 3).admits (Instr.startR c9x11) = true ∧ c9x11.a.toNat < 28 ∧ c9x11.b.toNat < 28 ∧ BitVec.toNat ((ini 3).hereW c9x11.b) % 4 ≠ 0) ∧
    -- .2.2.1.1
    ((ini 4).group? (ini 4).here.gid = some G0 ∧ G0.preempt = false ∧ (ini 4).admits (Instr.reap (XX 1 0 0 0)) = true ∧ (XX 1 0 0 0).a.toNat < 28 ∧ (BitVec.toNat ((ini 4).hereW (XX 1 0 0 0).a) = 0 ∨ G0.header.contexts ≤ BitVec.toNat ((ini 4).hereW (XX 1 0 0 0).a))) ∧
    -- .2.2.1.2
    ((ini 3).group? (ini 3).here.gid = some G0 ∧ (ini 3).admits (Instr.reap (XX 1 0 0 0)) = true ∧ 0 < BitVec.toNat ((ini 3).hereW (XX 1 0 0 0).a) ∧ BitVec.toNat ((ini 3).hereW (XX 1 0 0 0).a) < G0.header.contexts) ∧
    -- .2.2.2.1
    (hx.admits (Instr.exit (XX 0 0 0 0)) = true ∧ hx.here.wait = Wait.ready ∧ hx.here.routine = none ∧ hx.here.idx ≠ 0 ∧ hx.here.home = hx.curCid ∧ hx.here.idx = hx.curSlot ∧ (hx.slot hx.curCid 0).wait = Wait.ready) := by
  refine ⟨?_, ?_, ?_, ?_⟩ <;> decide +kernel

theorem witness_HelpersAndExit_3 :
    -- .2.2.2.2.2
    (lv.admits (Instr.exit (XX 0 0 0 0)) = true ∧ lv.here.wait = Wait.ready ∧ lv.here.routine = none ∧ lv.here.idx = 0 ∧ lv.here.home = lv.curCid ∧ lv.here.gid = G0.gid ∧ lv.groupOf lv.curCid = some G0 ∧ lv.group? G0.gid = some G0 ∧ G0.heirs = [] ∧ lv.here.guest = false ∧ lv.here.live = true ∧ lv.curSlot = 0 ∧ (∀ (c : Nat), c ∈ G0.pitch → c = lv.curCid ∨ c ∈ G0.exited)) ∧
    -- .2.2.2.2.1
    (c9x12.admits (Instr.exit (XX 0 0 0 0)) = true ∧ c9x12.here.wait = Wait.ready ∧ c9x12.here.routine = none ∧ c9x12.here.idx = 0 ∧ c9x12.here.home = c9x12.curCid ∧ c9x12.here.gid = G2.gid ∧ c9x12.groupOf c9x12.curCid = some G2 ∧ c9x12.group? G2.gid = some G2 ∧ G2.heirs = [] ∧ c9x12.here.guest = false ∧ c9x12.here.live = true ∧ c9x12.curSlot = 0 ∧ (∃ (c : Nat), c ∈ G2.pitch ∧ c ≠ c9x12.curCid ∧ ¬c ∈ G2.exited)) := by
  refine ⟨?_, ?_⟩ <;> decide +kernel

theorem witness_RendezvousInstructions_1 :
    -- .1.2.1
    ((ini 3).group? (ini 3).here.gid = some G0 ∧ G0.gid = (ini 3).here.gid ∧ (ini 3).admits (Instr.rdvinit (XX 1 0 5 0)) = true ∧ (ini 3).here.wait = Wait.ready ∧ (ini 3).sound = true ∧ (XX 1 0 5 0).a.toNat < 28 ∧ 1 ≤ BitVec.toNat ((ini 3).hereW (XX 1 0 5 0).a) ∧ BitVec.toNat ((ini 3).hereW (XX 1 0 5 0).a) < 65536 ∧ G0.home = (ini 3).curCid ∧ (G0.point ((XX 1 0 5 0).aux8.toNat % 32)).arrived < BitVec.toNat ((ini 3).hereW (XX 1 0 5 0).a)) ∧
    -- .1.1
    ((ini 0).group? (ini 0).here.gid = some G0 ∧ G0.gid = (ini 0).here.gid ∧ (ini 0).admits (Instr.rdvinit (XX 1 0 5 0)) = true ∧ (ini 0).here.wait = Wait.ready ∧ (ini 0).sound = true ∧ (BitVec.toNat ((ini 0).hereW (XX 1 0 5 0).a) = 0 ∨ 65536 ≤ BitVec.toNat ((ini 0).hereW (XX 1 0 5 0).a))) ∧
    -- .1.2.2
    (c9x13.group? c9x13.here.gid = some G3 ∧ G3.gid = c9x13.here.gid ∧ c9x13.admits (Instr.rdvinit (XX 1 0 5 0)) = true ∧ c9x13.here.wait = Wait.ready ∧ c9x13.sound = true ∧ 1 ≤ BitVec.toNat (c9x13.hereW (XX 1 0 5 0).a) ∧ BitVec.toNat (c9x13.hereW (XX 1 0 5 0).a) < 65536 ∧ G3.home ≠ c9x13.curCid) ∧
    -- .2.1.1
    (c9x14.group? c9x14.here.gid = some G4 ∧ G4.gid = c9x14.here.gid ∧ c9x14.admits (Instr.arrive (XX 0 0 5 0)) = true ∧ c9x14.here.wait = Wait.ready ∧ c9x14.unackedIn c9x14.here.serial 2 = 0 ∧ G4.home = c9x14.curCid ∧ (G4.point ((XX 0 0 5 0).aux8.toNat % 32)).arrived + 1 < (G4.point ((XX 0 0 5 0).aux8.toNat % 32)).expect) := by
  refine ⟨?_, ?_, ?_, ?_⟩ <;> decide +kernel

theorem witness_RendezvousInstructions_2 :
    -- .2.1.2.1
    (c9x15.Settled c9x15.curCid ∧ c9x15.group? c9x15.here.gid = some G4 ∧ G4.gid = c9x15.here.gid ∧ c9x15.admits (Instr.arrive (XX 0 0 6 0)) = true ∧ c9x15.here.wait = Wait.ready ∧ c9x15.unackedIn c9x15.here.serial 2 = 0 ∧ G4.home = c9x15.curCid ∧ (G4.point ((XX 0 0 6 0).aux8.toNat % 32)).expect ≤ (G4.point ((XX 0 0 6 0).aux8.toNat % 32)).arrived + 1 ∧ G4.pitch = [c9x15.curCid]) ∧
    -- .2.1.2.2.1
    (c9x16.group? c9x16.here.gid = some G3 ∧ G3.gid = c9x16.here.gid ∧ c9x16.admits (Instr.arrive (XX 0 0 5 0)) = true ∧ c9x16.here.wait = Wait.ready ∧ c9x16.unackedIn c9x16.here.serial 2 = 0 ∧ G3.home ≠ c9x16.curCid) ∧
    -- .2.1.2.2.2
    (un.group? un.here.gid = some G3 ∧ G3.gid = un.here.gid ∧ un.admits (Instr.arrive (XX 0 0 5 0)) = true ∧ un.here.wait = Wait.ready ∧ un.unackedIn un.here.serial 2 ≠ 0) ∧
    -- .2.2.1.1
    (G0.preempt = false ∧ (Instr.rdvwait (XX 0 0 5 0) = Instr.rdvwait (XX 0 0 5 0) ∧ (none : Option (BitVec 16)) = none ∨ Instr.rdvwait (XX 0 0 5 0) = Instr.rdvwaitPhase (XX 0 0 5 0) ∧ (XX 0 0 5 0).a.toNat < 28 ∧ BitVec.toNat ((ini 3).hereW (XX 0 0 5 0).a) < 65536 ∧ (none : Option (BitVec 16)) = some (BitVec.setWidth 16 ((ini 3).hereW (XX 0 0 5 0).a))) ∧ (ini 3).admits (Instr.rdvwait (XX 0 0 5 0)) = true ∧ (ini 3).arrivesAt (ini 3).here.serial ((XX 0 0 5 0).aux8.toNat % 32) = false ∧ (tget (ini 3).hereCore.phase ((XX 0 0 5 0).aux8.toNat % 32) 0 - none.getD (tget (ini 3).here.phases ((XX 0 0 5 0).aux8.toNat % 32) 0)).toNat < 2 ^ 15) ∧
    -- .2.2.1.2
    ((Instr.rdvwaitPhase (XX 1 0 37 0) = Instr.rdvwait c9x17 ∧ some 3 = none ∨ Instr.rdvwaitPhase (XX 1 0 37 0) = Instr.rdvwaitPhase c9x17 ∧ c9x17.a.toNat < 28 ∧ BitVec.toNat ((ini 3).hereW c9x17.a) < 65536 ∧ some 3 = some (BitVec.setWidth 16 ((ini 3).hereW c9x17.a))) ∧ (ini 3).admits (Instr.rdvwaitPhase (XX 1 0 37 0)) = true ∧ ((ini 3).arrivesAt (ini 3).here.serial (c9x17.aux8.toNat % 32) = true ∨ 2 ^ 15 ≤ (tget (ini 3).hereCore.phase (c9x17.aux8.toNat % 32) 0 - (some 3).getD (tget (ini 3).here.phases (c9x17.aux8.toNat % 32) 0)).toNat)) := by
  refine ⟨
    ⟨settled_of (by decide +kernel), by decide +kernel⟩,
    by decide +kernel,
    by decide +kernel,
    by decide +kernel,
    by decide +kernel⟩

theorem witness_RendezvousInstructions_3 :
    -- .2.2.2
    c9x20.admits (Instr.rdvwaitPhase c9x19) = true ∧ c9x20.here.wait = Wait.ready ∧ c9x20.sound = true ∧ c9x19.a.toNat < 28 ∧ 65536 ≤ BitVec.toNat (c9x20.hereW c9x19.a) := by
  exact by decide +kernel

end Sys2Proof.Tests.T9

namespace Sys2Proof.Tests.T8
open Sys2Proof.Machine Sys2Proof.Claims

def w := State.reset.withFetchWord 32 0x14411834
def thr (l : List (Nat × Slot)) (k : Nat) : State :=
  let w := State.reset.withFetchWord 32 0x14411834
  let w : State := { w with groups := [(1, { (w.groups.map (·.snd)).headD { gid := 1, region := 0x10000, header := {}, pitch := [0], state := .running } with mode := {} })] }
  w.modCore 0 fun c => { c with slots := l, turn := k, code := none }
def sx (pc : Word) : Slot := { live := true, serial := 9, gid := 1, home := 0, region := 0x10000, idx := 3, pc := pc, fetched := some (0x100000, 1), own := false }
def lt : State := thr [(3, sx 0x100000), (5, { (sx 0x100000) with wait := .fetch })] 2
def l5 : State := thr [(3, { (sx 0x100000) with own := true })] 4
def w9 : State := w.modCore 0 fun c => { c with turn := 2 }

def c8x1 : Event := { due := .cycle 1, rank := 0, ins := .bootStage, obj := { a := 1 } }
def c8x2 : State := { State.reset with stopped := true, agenda := [{ due := .cycle 1, rank := 0, ins := .bootStage }] }
def c8x3 : State := (after (step State.reset))

theorem witness_StepRunsDecodedInstruction :
    -- .1.1
    (nextTurnOf w 0 (0, 8193) ∧ canIssue ((w.advanceTo (0, 8193).fst).startFetches 0 ((w.core 0).turn % 16)) 0 ((w.core 0).turn % 16) (Instr.div { st := 5, d := 3, a := 1, b := 2 : RF }) ∧ w.sound = true ∧ (Instr.div { st := 5, d := 3, a := 1, b := 2 : RF }).wf = true) ∧
    -- .1.2.1.1
    (nextTurnOf lt 0 (0, 8193) ∧ noneBorrows ((lt.advanceTo (0, 8193).fst).startFetches 0 ((lt.core 0).turn % 16)) 0 [] ∧ canIssue ((lt.advanceTo (0, 8193).fst).startFetches 0 ((lt.core 0).turn % 16)) 0 3 (Instr.div { st := 5, d := 3, a := 1, b := 2 : RF }) ∧ lt.sound = true ∧ ((lt.advanceTo (0, 8193).fst).startFetches 0 ((lt.core 0).turn % 16)).offer 0 ((lt.core 0).turn % 16) = none ∧ ((lt.advanceTo (0, 8193).fst).startFetches 0 ((lt.core 0).turn % 16)).lends 0 ((lt.core 0).turn % 16) = true ∧ State.slotsAfter ((lt.core 0).turn % 16) = [] ++ [3, 4, 5, 6, 7, 8, 9, 10, 11, 12, 13, 14, 15, 0, 1] ∧ ((lt.advanceTo (0, 8193).fst).startFetches 0 ((lt.core 0).turn % 16)).borrows 0 3 = true) ∧
    -- .1.2.1.2
    (nextTurnOf l5 0 (0, 8193) ∧ noneBorrows ((l5.advanceTo (0, 8193).fst).startFetches 0 ((l5.core 0).turn % 16)) 0 (State.slotsAfter ((l5.core 0).turn % 16)) ∧ l5.sound = true ∧ (Instr.nop { st := 0, d := 0, a := 0, b := 0 : RF }).wf = true ∧ ((l5.advanceTo (0, 8193).fst).startFetches 0 ((l5.core 0).turn % 16)).offer 0 ((l5.core 0).turn % 16) = none ∧ ((l5.advanceTo (0, 8193).fst).startFetches 0 ((l5.core 0).turn % 16)).lends 0 ((l5.core 0).turn % 16) = true) ∧
    -- .1.2.2
    (nextTurnOf w9 0 (0, 8193) ∧ w9.sound = true ∧ ((w9.advanceTo (0, 8193).fst).startFetches 0 ((w9.core 0).turn % 16)).offer 0 ((w9.core 0).turn % 16) = none ∧ ((w9.advanceTo (0, 8193).fst).startFetches 0 ((w9.core 0).turn % 16)).lends 0 ((w9.core 0).turn % 16) = false) ∧
    -- .2.1
    nextEventIs State.reset c8x1 (1, 0) ∧
    -- .2.2
    (c8x2.stopped = true ∧ (∀ (e : Event), e ∈ c8x2.agenda → e.ins ≠ Instr.moduleReset)) := by
  refine ⟨
    ⟨⟨by decide +kernel, by decide +kernel, first_event (by decide +kernel)⟩, ⟨by decide +kernel, by decide +kernel, by decide +kernel, by decide +kernel, code_at (by decide +kernel)⟩, by decide +kernel⟩,
    ⟨⟨by decide +kernel, by decide +kernel, first_event (by decide +kernel)⟩, by delta noneBorrows; decide +kernel, ⟨by decide +kernel, by decide +kernel, by decide +kernel, by decide +kernel, code_at (by decide +kernel)⟩, by decide +kernel⟩,
    ⟨⟨by decide +kernel, by decide +kernel, first_event (by decide +kernel)⟩, by delta noneBorrows; decide +kernel, by decide +kernel⟩,
    ⟨⟨by decide +kernel, by decide +kernel, first_event (by decide +kernel)⟩, by decide +kernel⟩,
    ⟨by decide +kernel, by decide +kernel, fun e q h => nomatch h⟩,
    by decide +kernel⟩

theorem witness_MemoryStaysCanonical :
    -- the statement
    step State.reset = Host.Outcome.next c8x3 ∧ canonical State.reset = true := by
  exact ⟨after_eq (by decide +kernel), by decide +kernel⟩

end Sys2Proof.Tests.T8

namespace Sys2Proof.Tests.T10
open Sys2Proof.Machine Sys2Proof.Claims

def XX (a b aux8 aux32 : Nat) (d := 0) : XF := ⟨0,BitVec.ofNat 5 d,BitVec.ofNat 5 a,BitVec.ofNat 5 b,0,0,0,false,0,BitVec.ofNat 8 aux8,BitVec.ofNat 32 aux32⟩
def G0 : Group := { gid := 1, region := 0x10000, header := {nsafe := 5, contexts := 4}, mode := {det := true}, pitch := [1], state := .running }
def withG (s : State) (g : Group) : State := { s with groups := [(1, g)] }
def le (n v : Nat) : List Nat := (List.range n).map fun i => v / 256^i % 256
def hdrB (cores : Nat) (data := 0) : List Nat := le 8 0 ++ le 2 cores ++ [1,0,0,0,0,0] ++ le 4 0x1000 ++ le 4 0 ++ le 8 0x100000 ++ le 8 0x100100 ++ le 8 0 ++ le 8 data ++ le 4 (if data = 0 then 0 else 16) ++ [0]
def recB (off : Nat) (sh := 0) (rcb := 0) : List Nat := le 8 0x5100 ++ le 8 rcb ++ [sh,0,0,255,0,0,0,0]
def st (off : Nat) (r h : List Nat) (g : Group := G0) : State := { (withG ((small 0).modCore 1 fun c => { c with sp := by_ 8 (le 8 off) ++ by_ 16 (le 8 0x5100) ++ by_ 0x5000 r ++ by_ 0x5100 h }) g) with nextGid := 5, curCid := 1 }
def fL : XF := XX 1 0 0 0 3
def sL := st 0x5000 (recB 0) (hdrB 1)
def keep0 : List Nat := le 2 1
def sR (r h : List Nat) (g := G0) : State := { (st 0x5000 r h g).modCore 1 (fun c => { c with sp := by_ 8 (le 8 0x5100) ++ by_ 16 (le 8 0x5000) ++ by_ 0x5000 r ++ by_ 0x5100 h }) with nextGid := 5 }
def fR := XX 1 2 0 0
def G2 : Group := { G0 with pitch := [1,2] }
def mg (a : Nat) (s : State) : State := (s.modCore 1 fun c => { c with sp := by_ 8 (le 8 a), cload := some (BitVec.ofNat 64 (2 * 2^26)) }).modSlot 1 0 fun x => { x with idx := 2, mode := { task := true } }

def c10x0 : State := (st 0x5000 (recB 0) (hdrB 1 0x7000))
def c10x1 : State := (st 0x5000 (recB 0) (hdrB 2))
def c10x2 : State := (st 0x5000 (recB 0 4) (hdrB 2))
def c10x3 : State := (st 0x5000 (le 8 0x5110) (hdrB 2))
def c10x4 : State := (st 0x5010 (le 8 0x5110) (hdrB 2))
def c10x5 : State := (sR keep0 (hdrB 1))
def c10x6 : State := (sR keep0 (hdrB 2))
def c10x7 : State := (sR keep0 (hdrB 2) G2)
def c10x8 : State := ((sR keep0 (hdrB 1)).modCore 1 fun c => { c with sp := by_ 8 [0x10,0x51] })
def c10x9 : State := ((sR keep0 (hdrB 1)).modCore 1 fun c => { c with sp := by_ 8 [0,0x51] ++ by_ 16 [0x10,0x50] })
def c10x10 : State := (sR keep0 (le 8 0xFFFF ++ (hdrB 1).drop 8))
def c10x11 : State := (mg 5000 (withG sL G2))
def c10x13 : State := (mg 2 (withG sL G2))

theorem witness_GroupRequests_1 :
    -- .1.2.2.2.2.1
    (∀ (j : Nat), j < 4 → sL.ownRange (sL.hereW fL.a + BitVec.ofNat 64 (16 * j)) 16 false (20480 + 16 * j)) ∧ (∀ (j : Nat), j < 16 → sL.ownRange (BitVec.ofNat 64 (fieldOf (ownBytes sL 20480 64) 0 8) + BitVec.ofNat 64 (16 * j)) 16 false (20736 + 16 * j)) ∧ sL.admits (Instr.launch fL) = true ∧ sL.sound = true ∧ fL.a.toNat < 28 ∧ fL.d.toNat < 28 ∧ sL.net = [] ∧ sL.here.wait = Wait.ready ∧ sL.here.guest = false ∧ BitVec.toNat (sL.hereW fL.a) % 64 = 0 ∧ launchFault (ownBytes sL 20480 64) = none ∧ (BitVec.ofNat 64 (fieldOf (ownBytes sL 20480 64) 0 8)).toNat % 256 = 0 ∧ shapeCores (fieldOf (ownBytes sL 20480 64) 16 1) (fieldOf (ownBytes sL 20480 64) 17 1) (fieldOf (ownBytes sL 20480 64) 18 1) = (parseHeader (BitVec.ofNat 64 (fieldOf (ownBytes sL 20480 64) 0 8)) (ownBytes sL 20736 256)).cores ∧ fieldOf (ownBytes sL 20480 64) 8 8 = 0 ∧ fieldOf (ownBytes sL 20480 64) 20 4 < 2 ^ 31 ∧ fieldOf (ownBytes sL 20480 64) 32 1 = 0 ∧ sL.hereCore.sp.wf = true ∧ (sL.headerValid sL.here.region (parseHeader (BitVec.ofNat 64 (fieldOf (ownBytes sL 20480 64) 0 8)) (ownBytes sL 20736 256)) (ownBytes sL 20736 256)).fst = true ∧ State.detMet (parseHeader (BitVec.ofNat 64 (fieldOf (ownBytes sL 20480 64) 0 8)) (ownBytes sL 20736 256)) ((sL.effModeb sL.here.region).getLsbD 0) = true ∧ 0 < sL.nextGid ∧ sL.nextGid < 2 ^ 32 ∧ sL.group? sL.nextGid = none := by
  exact ⟨by delta State.ownRange; delta State.ownAddress; decide +kernel, by delta State.ownRange; delta State.ownAddress; decide +kernel, by decide +kernel⟩

theorem witness_GroupRequests_2 :
    -- .1.2.2.2.2.2
    ((∀ (j : Nat), j < 4 → c10x0.ownRange (c10x0.hereW fL.a + BitVec.ofNat 64 (16 * j)) 16 false (20480 + 16 * j)) ∧ (∀ (j : Nat), j < 16 → c10x0.ownRange (BitVec.ofNat 64 (fieldOf (ownBytes c10x0 20480 64) 0 8) + BitVec.ofNat 64 (16 * j)) 16 false (20736 + 16 * j)) ∧ c10x0.admits (Instr.launch fL) = true ∧ c10x0.sound = true ∧ c10x0.net = [] ∧ c10x0.here.wait = Wait.ready ∧ c10x0.here.guest = false ∧ BitVec.toNat (c10x0.hereW fL.a) % 64 = 0 ∧ launchFault (ownBytes c10x0 20480 64) = none ∧ (BitVec.ofNat 64 (fieldOf (ownBytes c10x0 20480 64) 0 8)).toNat % 256 = 0 ∧ shapeCores (fieldOf (ownBytes c10x0 20480 64) 16 1) (fieldOf (ownBytes c10x0 20480 64) 17 1) (fieldOf (ownBytes c10x0 20480 64) 18 1) = (parseHeader (BitVec.ofNat 64 (fieldOf (ownBytes c10x0 20480 64) 0 8)) (ownBytes c10x0 20736 256)).cores ∧ fieldOf (ownBytes c10x0 20480 64) 8 8 = 0 ∧ fieldOf (ownBytes c10x0 20480 64) 20 4 < 2 ^ 31 ∧ fieldOf (ownBytes c10x0 20480 64) 32 1 = 0 ∧ c10x0.hereCore.sp.wf = true ∧ ((c10x0.headerValid c10x0.here.region (parseHeader (BitVec.ofNat 64 (fieldOf (ownBytes c10x0 20480 64) 0 8)) (ownBytes c10x0 20736 256)) (ownBytes c10x0 20736 256)).fst = false ∨ State.detMet (parseHeader (BitVec.ofNat 64 (fieldOf (ownBytes c10x0 20480 64) 0 8)) (ownBytes c10x0 20736 256)) ((c10x0.effModeb c10x0.here.region).getLsbD 0) = false) ∧ c10x0.effEvbase c10x0.here.region = 0) ∧
    -- .1.2.2.2.1
    ((∀ (j : Nat), j < 4 → c10x1.ownRange (c10x1.hereW fL.a + BitVec.ofNat 64 (16 * j)) 16 false (20480 + 16 * j)) ∧ (∀ (j : Nat), j < 16 → c10x1.ownRange (BitVec.ofNat 64 (fieldOf (ownBytes c10x1 20480 64) 0 8) + BitVec.ofNat 64 (16 * j)) 16 false (20736 + 16 * j)) ∧ c10x1.admits (Instr.launch fL) = true ∧ c10x1.sound = true ∧ c10x1.net = [] ∧ c10x1.here.wait = Wait.ready ∧ c10x1.here.guest = false ∧ BitVec.toNat (c10x1.hereW fL.a) % 64 = 0 ∧ launchFault (ownBytes c10x1 20480 64) = none ∧ (BitVec.ofNat 64 (fieldOf (ownBytes c10x1 20480 64) 0 8)).toNat % 256 = 0 ∧ shapeCores (fieldOf (ownBytes c10x1 20480 64) 16 1) (fieldOf (ownBytes c10x1 20480 64) 17 1) (fieldOf (ownBytes c10x1 20480 64) 18 1) ≠ (parseHeader (BitVec.ofNat 64 (fieldOf (ownBytes c10x1 20480 64) 0 8)) (ownBytes c10x1 20736 256)).cores) := by
  refine ⟨
    ⟨by delta State.ownRange; delta State.ownAddress; decide +kernel, by delta State.ownRange; delta State.ownAddress; decide +kernel, by decide +kernel⟩,
    ⟨by delta State.ownRange; delta State.ownAddress; decide +kernel, by delta State.ownRange; delta State.ownAddress; decide +kernel, by decide +kernel⟩⟩

theorem witness_GroupRequests_3 :
    -- .1.2.1
    ((∀ (j : Nat), j < 4 → c10x2.ownRange (c10x2.hereW fL.a + BitVec.ofNat 64 (16 * j)) 16 false (20480 + 16 * j)) ∧ c10x2.admits (Instr.launch fL) = true ∧ c10x2.sound = true ∧ c10x2.net = [] ∧ c10x2.here.wait = Wait.ready ∧ c10x2.here.guest = false ∧ BitVec.toNat (c10x2.hereW fL.a) % 64 = 0 ∧ launchFault (ownBytes c10x2 20480 64) = some 16) ∧
    -- .1.2.2.1
    ((∀ (j : Nat), j < 4 → c10x3.ownRange (c10x3.hereW fL.a + BitVec.ofNat 64 (16 * j)) 16 false (20480 + 16 * j)) ∧ c10x3.admits (Instr.launch fL) = true ∧ c10x3.sound = true ∧ c10x3.net = [] ∧ c10x3.here.wait = Wait.ready ∧ c10x3.here.guest = false ∧ BitVec.toNat (c10x3.hereW fL.a) % 64 = 0 ∧ launchFault (ownBytes c10x3 20480 64) = none ∧ (BitVec.ofNat 64 (fieldOf (ownBytes c10x3 20480 64) 0 8)).toNat % 256 ≠ 0) ∧
    -- .1.1
    (c10x4.admits (Instr.launch fL) = true ∧ c10x4.sound = true ∧ BitVec.toNat (c10x4.hereW fL.a) % 64 ≠ 0) := by
  refine ⟨
    ⟨by delta State.ownRange; delta State.ownAddress; decide +kernel, by decide +kernel⟩,
    ⟨by delta State.ownRange; delta State.ownAddress; decide +kernel, by decide +kernel⟩,
    by decide +kernel⟩

theorem witness_GroupRequests_4 :
    -- .2.1.2.2.2.2.2
    ((∀ (j : Nat), j < 16 → c10x5.ownRange (c10x5.hereW fR.a + BitVec.ofNat 64 (16 * j)) 16 false (20736 + 16 * j)) ∧ (∀ (j : Nat), j < 4 → c10x5.ownRange (c10x5.hereW fR.b + BitVec.ofNat 64 (16 * j)) 16 false (20480 + 16 * j)) ∧ c10x5.admits (Instr.resole fR) = true ∧ c10x5.here.idx = 0 ∧ c10x5.sound = true ∧ fR.a.toNat < 28 ∧ fR.b.toNat < 28 ∧ c10x5.net = [] ∧ c10x5.here.wait = Wait.ready ∧ c10x5.here.guest = false ∧ c10x5.group? c10x5.here.gid = some G0 ∧ G0.gid = c10x5.here.gid ∧ BitVec.toNat (c10x5.hereW fR.a) % 256 = 0 ∧ BitVec.toNat (c10x5.hereW fR.b) % 64 = 0 ∧ State.missingFeature (parseHeader (c10x5.hereW fR.a) (ownBytes c10x5 20736 256)).features c10x5.hereCore.feat = none ∧ c10x5.resoleFault G0 (parseHeader (c10x5.hereW fR.a) (ownBytes c10x5 20736 256)) (ownBytes c10x5 20736 256) (ownBytes c10x5 20480 64) = none ∧ G0.heirs.length + 1 = G0.pitch.length ∧ (∀ (x : Heir), x ∈ G0.heirs → x.hdr = c10x5.hereW fR.a ∧ x.rec_ = ownBytes c10x5 20480 64)) ∧
    -- .2.1.2.2.2.1
    ((∀ (j : Nat), j < 16 → c10x6.ownRange (c10x6.hereW fR.a + BitVec.ofNat 64 (16 * j)) 16 false (20736 + 16 * j)) ∧ (∀ (j : Nat), j < 4 → c10x6.ownRange (c10x6.hereW fR.b + BitVec.ofNat 64 (16 * j)) 16 false (20480 + 16 * j)) ∧ c10x6.admits (Instr.resole fR) = true ∧ c10x6.here.idx = 0 ∧ c10x6.sound = true ∧ c10x6.net = [] ∧ c10x6.here.wait = Wait.ready ∧ c10x6.here.guest = false ∧ c10x6.group? c10x6.here.gid = some G0 ∧ G0.gid = c10x6.here.gid ∧ BitVec.toNat (c10x6.hereW fR.a) % 256 = 0 ∧ BitVec.toNat (c10x6.hereW fR.b) % 64 = 0 ∧ State.missingFeature (parseHeader (c10x6.hereW fR.a) (ownBytes c10x6 20736 256)).features c10x6.hereCore.feat = none ∧ c10x6.resoleFault G0 (parseHeader (c10x6.hereW fR.a) (ownBytes c10x6 20736 256)) (ownBytes c10x6 20736 256) (ownBytes c10x6 20480 64) = some 1) := by
  refine ⟨
    ⟨by delta State.ownRange; delta State.ownAddress; decide +kernel, by delta State.ownRange; delta State.ownAddress; decide +kernel, by decide +kernel⟩,
    ⟨by delta State.ownRange; delta State.ownAddress; decide +kernel, by delta State.ownRange; delta State.ownAddress; decide +kernel, by decide +kernel⟩⟩

theorem witness_GroupRequests_5 :
    -- .2.1.2.2.2.2.1
    ((∀ (j : Nat), j < 16 → c10x7.ownRange (c10x7.hereW fR.a + BitVec.ofNat 64 (16 * j)) 16 false (20736 + 16 * j)) ∧ (∀ (j : Nat), j < 4 → c10x7.ownRange (c10x7.hereW fR.b + BitVec.ofNat 64 (16 * j)) 16 false (20480 + 16 * j)) ∧ c10x7.admits (Instr.resole fR) = true ∧ c10x7.here.idx = 0 ∧ c10x7.sound = true ∧ c10x7.net = [] ∧ c10x7.here.wait = Wait.ready ∧ c10x7.here.guest = false ∧ c10x7.group? c10x7.here.gid = some G2 ∧ G2.gid = c10x7.here.gid ∧ BitVec.toNat (c10x7.hereW fR.a) % 256 = 0 ∧ BitVec.toNat (c10x7.hereW fR.b) % 64 = 0 ∧ State.missingFeature (parseHeader (c10x7.hereW fR.a) (ownBytes c10x7 20736 256)).features c10x7.hereCore.feat = none ∧ c10x7.resoleFault G2 (parseHeader (c10x7.hereW fR.a) (ownBytes c10x7 20736 256)) (ownBytes c10x7 20736 256) (ownBytes c10x7 20480 64) = none ∧ G2.heirs.length + 1 < G2.pitch.length) ∧
    -- .2.1.1
    (c10x8.admits (Instr.resole fR) = true ∧ c10x8.here.idx = 0 ∧ c10x8.sound = true ∧ BitVec.toNat (c10x8.hereW fR.a) % 256 ≠ 0) ∧
    -- .2.1.2.1
    (c10x9.admits (Instr.resole fR) = true ∧ c10x9.here.idx = 0 ∧ c10x9.sound = true ∧ BitVec.toNat (c10x9.hereW fR.a) % 256 = 0 ∧ BitVec.toNat (c10x9.hereW fR.b) % 64 ≠ 0) := by
  refine ⟨
    ⟨by delta State.ownRange; delta State.ownAddress; decide +kernel, by delta State.ownRange; delta State.ownAddress; decide +kernel, by decide +kernel⟩,
    by decide +kernel,
    by decide +kernel⟩

theorem witness_GroupRequests_6 :
    -- .2.1.2.2.1
    ((∀ (j : Nat), j < 16 → c10x10.ownRange (c10x10.hereW fR.a + BitVec.ofNat 64 (16 * j)) 16 false (20736 + 16 * j)) ∧ (∀ (j : Nat), j < 4 → c10x10.ownRange (c10x10.hereW fR.b + BitVec.ofNat 64 (16 * j)) 16 false (20480 + 16 * j)) ∧ c10x10.admits (Instr.resole fR) = true ∧ c10x10.here.idx = 0 ∧ c10x10.sound = true ∧ c10x10.net = [] ∧ c10x10.here.wait = Wait.ready ∧ c10x10.here.guest = false ∧ c10x10.group? c10x10.here.gid = some G0 ∧ G0.gid = c10x10.here.gid ∧ BitVec.toNat (c10x10.hereW fR.a) % 256 = 0 ∧ BitVec.toNat (c10x10.hereW fR.b) % 64 = 0 ∧ State.missingFeature (parseHeader (c10x10.hereW fR.a) (ownBytes c10x10 20736 256)).features c10x10.hereCore.feat = some 9) ∧
    -- .2.2.1
    (sL.admits (Instr.migrate fL) = true ∧ (sL.here.idx = 0 ∨ sL.here.mode.det = true ∨ sL.here.mode.task = false)) ∧
    -- .2.2.2.1
    (c10x11.admits (Instr.migrate fL) = true ∧ c10x11.here.wait = Wait.ready ∧ c10x11.sound = true ∧ (¬(c10x11.here.idx = 0 ∨ c10x11.here.mode.det = true ∨ c10x11.here.mode.task = false)) ∧ BitVec.toNat (c10x11.hereW fL.a) < 2 ^ 63 ∧ (2048 ≤ BitVec.toNat (c10x11.hereW fL.a) ∨ (c10x11.pitchOf c10x11.here.gid).contains (BitVec.toNat (c10x11.hereW fL.a)) = false)) ∧
    -- .2.2.2.2
    (c10x13.admits (Instr.migrate fL) = true ∧ c10x13.here.wait = Wait.ready ∧ c10x13.sound = true ∧ (¬(c10x13.here.idx = 0 ∨ c10x13.here.mode.det = true ∨ c10x13.here.mode.task = false)) ∧ (BitVec.toNat (c10x13.hereW fL.a) < 2048 ∧ 2 = BitVec.toNat (c10x13.hereW fL.a) ∨ 2 ^ 63 ≤ BitVec.toNat (c10x13.hereW fL.a) ∧ ∃ (v : BitVec 64), c10x13.hereCore.cload = some v ∧ 2 = v.toNat / 2 ^ 26 % 2 ^ 11) ∧ (c10x13.pitchOf c10x13.here.gid).contains 2 = true) := by
  refine ⟨
    ⟨by delta State.ownRange; delta State.ownAddress; decide +kernel, by delta State.ownRange; delta State.ownAddress; decide +kernel, by decide +kernel⟩,
    by decide +kernel,
    by decide +kernel,
    by decide +kernel⟩

end Sys2Proof.Tests.T10

namespace Sys2Proof.Tests.T11
open Sys2Proof.Machine Sys2Proof.Claims

def G0 : Group := { gid := 1, region := 0x10000, header := {nsafe := 5, contexts := 4, entry := 0x100040}, mode := {det := true}, pitch := [1], state := .running }
def withG (s : State) (g : Group) : State := { s with groups := [(g.gid, g)] }
def b0 : State := withG (small 0) G0
def M0 (id : Nat) (kind : MsgKind) (loc : Loc) (size : Nat) : Msg :=
  { id := id, kind := kind, cid := 1, slot := 0, serial := 7, region := 1, va := 0x80000, loc := loc, size := size, ins := .storeAck }
def net (s : State) (m : Msg) : State := { s with net := [m], obj := { a := m.id } }
def l0 : Loc := { home := .scratch 0, addr := 0 }
def G3 : Group := { G0 with pitch := [0,1] }
def mr := { (M0 4 (.arrive 5) l0 0) with resp := some (.value 6) }
def ob (s : State) (o : Obj) : State := { s with obj := o }
def mi := M0 4 (.rdvinit 5 3) l0 0
def nd (g : Group) : Group := { g with mode := {task := true} }
def mg : State := ob (b0.modSlot 1 0 fun x => { x with wait := .migrate (.reg 0 24) 2 false }) {a := 1}
def mm := M0 4 (.reserve (.reg 0 24) false) { home := .scratch 2, addr := 0 } 0
def two : State := (withG b0 (nd {G0 with pitch := [1,2]})).modCore 2 fun c => { c with on := true, gid := 1 }
def mv : Move := { id := 4, from_ := 1, slot := 0, target := 2, toSlot := some 3, hardware := false, dest := .none, ctx := two.slot 1 0, bytes := (List.range 640).map fun k => BitVec.ofNat 8 (k + 1) }
def hr : Heir := { cid := 1, slot := 0, header := { G0.header with cores := 1 }, hdr := 0x5000, rec_ := leBytes 8 0x30001 ++ leBytes 8 0 ++ leBytes 8 0 ++ leBytes 4 0x5000 ++ leBytes 4 16 ++ List.replicate 32 0 }
def gh : Group := { G0 with state := .handOff, heirs := [hr] }
def sh : State := { (ob ((withG b0 gh).modSlot 1 0 fun x => { x with wait := .resole }) {a := 1}) with nextGid := 7 }
def sh' := sh.modCore 1 fun c => { c with sp := (c.sp.write 0x5000 [1,2,3]).write 0x5020 [5] }
def gs : Group := { gh with state := .scrubbing }

def c11x0 : State := (net (withG b0 G3) (M0 4 (.arrive 5) l0 0))
def c11x1 : Msg := (M0 4 (.arrive 5) l0 0)
def c11x3 : State := (net (withG b0 G3) mr)
def c11x4 : State := (ob b0 {a := 1, b := 3, c := 9, v := 77})
def c11x5 : State := (ob b0 {a := 1, b := 3, c := 1, v := 77})
def c11x6 : State := (ob (withG b0 (nd G0)) {a := 1, c := 1})
def c11x7 : State := (ob {two with moves := [mv]} {a := 4})
def c11x8 : State := (withG sh' gs)

theorem witness_RendezvousMovesAndSuccessors_1 :
    -- .1
    (stepMessage c11x0 c11x1 ∧ c11x1.kind = MsgKind.arrive 5 ∧ c11x0.group? c11x1.region = some G3 ∧ G3.gid = c11x1.region ∧ G3.killed = false ∧ (G3.point 5).arrived + 1 < (G3.point 5).expect ∧ c11x1.loc.home ≠ Home.scratch c11x1.cid) ∧
    -- .2.1
    (stepMessage c11x3 mr ∧ mr.kind = MsgKind.arrive 5 ∧ mr.resp = some (Resp.value 6) ∧ (c11x3.slot mr.cid mr.slot).live = true ∧ (c11x3.slot mr.cid mr.slot).serial = mr.serial ∧ (c11x3.slot mr.cid mr.slot).wait = Wait.ready) ∧
    -- .2.2.1.1
    (c11x4.core c11x4.obj.a).gid ≠ c11x4.obj.c ∧
    -- .2.2.1.2
    (c11x5.Settled c11x5.obj.a ∧ (c11x5.core c11x5.obj.a).gid = c11x5.obj.c) ∧
    -- .2.2.2.1
    (stepMessage (net b0 mi) mi ∧ mi.kind = MsgKind.rdvinit 5 3 ∧ (net b0 mi).group? mi.region = some G0 ∧ G0.gid = mi.region ∧ (G0.point 5).arrived < 3) ∧
    -- .2.2.2.2.1
    (c11x6.groupOf c11x6.obj.a = some (nd G0) ∧ (nd G0).gid = c11x6.obj.c ∧ (nd G0).mode.det = false ∧ c11x6.loadTarget c11x6.obj.a (nd G0).pitch = none) ∧
    -- .2.2.2.2.2.1
    ((mg.slot mg.obj.a mg.obj.b).wait = Wait.migrate (Dest.reg 0 24) 2 false ∧ (mg.slot mg.obj.a mg.obj.b).live = true ∧ mg.obj.ok = false ∧ mg.quiet mg.obj.a mg.obj.b = true ∧ 2 ≠ mg.obj.a) := by
  refine ⟨
    ⟨stepMessage_of 0 (by decide +kernel), by decide +kernel⟩,
    ⟨stepMessage_of 0 (by decide +kernel), by decide +kernel⟩,
    by decide +kernel,
    ⟨settled_of (by decide +kernel), by decide +kernel⟩,
    ⟨stepMessage_of 0 (by decide +kernel), by decide +kernel⟩,
    by decide +kernel,
    by decide +kernel⟩

theorem witness_RendezvousMovesAndSuccessors_2 :
    -- .2.2.2.2.2.2.1
    (stepMessage (net two mm) mm ∧ mm.kind = MsgKind.reserve (Dest.reg 0 24) false ∧ mm.loc.home = Home.scratch 2 ∧ ((net two mm).slot mm.cid mm.slot).live = true ∧ ((net two mm).slot mm.cid mm.slot).serial = mm.serial) ∧
    -- .2.2.2.2.2.2.2.1
    ((List.find? (fun (m : Move) => m.id == c11x7.obj.a) c11x7.moves = some mv) ∧ mv.toSlot = some 3 ∧ mv.bytes.length = 640 ∧ c11x7.sound = true ∧ (c11x7.core mv.target).sp.wf = true ∧ c11x7.unwritten mv.target (1024 * 3) 640 = true ∧ c11x7.unwatched (Home.scratch mv.target) (1024 * 3) 640 = true) ∧
    -- .2.2.2.2.2.2.2.2.1
    (sh'.group? sh'.obj.a = some gh ∧ gh.gid = sh'.obj.a ∧ gh.state = GState.handOff ∧ sh'.handOffReady gh = true ∧ gh.heirs = [hr] ∧ gh.pitch = [1] ∧ sh'.net = [] ∧ 0 < sh'.nextGid ∧ sh'.nextGid < 2 ^ 32 ∧ sh'.group? sh'.nextGid = none ∧ sh'.nextGid ≠ gh.gid ∧ (sh'.core 1).sp.wf = true ∧ (sh'.core 1).chans = []) ∧
    -- .2.2.2.2.2.2.2.2.2
    (c11x8.group? c11x8.obj.a = some gs ∧ gs.gid = c11x8.obj.a ∧ gs.state = GState.scrubbing ∧ gs.heirs = [hr] ∧ gs.pitch = [1] ∧ gs.preempt = false ∧ (c11x8.core 1).pend = []) := by
  refine ⟨
    ⟨stepMessage_of 0 (by decide +kernel), by decide +kernel⟩,
    by decide +kernel,
    by decide +kernel,
    by decide +kernel⟩

end Sys2Proof.Tests.T11

namespace Sys2Proof.Tests.T12
open Sys2Proof.Machine Sys2Proof.Claims

def XX (d a b c et aux8 aux32 : Nat) : XF := ⟨0,BitVec.ofNat 5 d,BitVec.ofNat 5 a,BitVec.ofNat 5 b,BitVec.ofNat 5 c,BitVec.ofNat 4 et,0,false,0,BitVec.ofNat 8 aux8,BitVec.ofNat 32 aux32⟩
def w (n v : Nat) : List Host.Cell := by_ (8*n) [v % 256, v / 256 % 256, v / 65536 % 256]
def st (a b : Nat) (extra : List Host.Cell := []) : State := (small 0).modCore 1 fun c => { c with sp := w 1 a ++ w 2 b ++ by_ 576 [1,0,0,0,0xff] ++ extra }
def s0 := st 0x5000 0x40 (by_ 0x5000 [1,2,3,4,5,6,7,8,9,10,11,12,13,14,15,16,17,18])
def rec0 : List Host.Cell := by_ 0x5000 [0, 17, 0, 2, 5, 0, 3, 0, 0x00, 0x60] ++ by_ (0x5000+16) [128] ++ by_ (0x5000+48) [7, 1]
def rec2 (fl : Nat) : List Host.Cell := by_ 0x5000 [2, fl, 0, 2, 5, 0, 3, 0, 2] ++ by_ (0x5000+24) [3] ++ by_ (0x5000+40) [8,0,0,0,11] ++ by_ (0x5000+80) [4,0,9,0,1]
def hh (s : State) : State := s.modCore 1 fun c => { c with hs := [(2, {state := .full, base := 0x8000, len := 0x1000, norm := some {desc := BitVec.ofNat 64 (1*2^44 + 3*2^32 + 11*2^16 + 1*2^12 + 3), first := 0, count := 4}}), (3, {state := .full, base := 0xA000, len := 0x1000, norm := some {desc := BitVec.ofNat 64 (4*2^44 + 11*2^16 + 2^15 + 1*2^12 + 3), first := 4, count := 4}})] }
def pr : PlanRec := { home := 1, etype := 9, stream := false, rdv := none, slot := 0, n := 2, rank := 1, elems := 8, src := 0, dst := 0x8000, next := 2, planid := 77, mb := 6 }
def tr : Transfer := { id := 5, cid := 1, slot := 0, serial := 7, gid := 1, region := 0x10000, kind := .rscat { pr with stream := true }, accepted := true }
def spl := { (st 9 0) with dies := [(0, { plans := [(9, 5)] })], transfers := [tr] }
def sacc := s0.setAccumulator 0 5 { status := 0x123456, version := 3 }
def nrd (a : Nat) := (hh (st a 0)).setNorm 1 6 { used := true, norm := 0x3f800000, stale := true }
def nf (st' : HState) (d : Nat) : State := (st 0 0 (by_ 0x8000 [0,0x40,0,0x40,0x80,0x3f])).modCore 1 fun c => { c with sp := by_ 8 ((List.range 8).map fun k => d / 2^(8*k) % 256) ++ by_ 576 [1] ++ by_ 0x8000 [0,0x40,0,0x40,0x80,0x3f], hs := [(2, {state := st', base := 0x8000, len := 0x100})] }
def dd := 1*2^44 + 3*2^32 + 11*2^16 + 1*2^12 + 3
def d4096 := 512*2^44 + 1*2^32 + 11*2^16 + 0xFFF
def nfu := (nf .full d4096).modCore 1 fun c => { c with hs := [(2, {state := .full, base := 0x8000, len := 0x2000})], norms := [(0, { used := true }), (4096, { used := true })] }

def c12x0 : XF := (XX 5 1 2 0 0 0 0)
def c12x1 : XF := (XX 5 1 2 0 0 0 0)
def c12x2 : XF := (XX 0 1 2 0 0 0 0)
def c12x4 : XF := (XX 3 1 2 0 0 0 0)
def c12x5 : XF := (XX 0 1 2 3 0 0 0)
def c12x6 : XF := (XX 0 1 2 3 0 0 0)
def c12x7 : State := (st 0x5008 0)
def c12x8 : XF := (XX 0 1 2 3 0 0 0)
def c12x9 : XF := (XX 0 1 2 3 0 0 0)
def c12x10 : State := (st 0x5001 0)
def c12x11 : XF := (XX 0 1 1 3 0 5 0x10002)
def c12x12 : XF := (XX 0 1 2 0 11 0 0)
def c12x14 : XF := (XX 0 1 2 0 14 0 0)
def c12x15 : State := (st 0x5000 8)
def c12x16 : XF := (XX 0 1 2 0 14 0 0)
def c12x17 : State := (st 0x5001 8)
def c12x18 : XF := (XX 0 1 2 0 0 0 0)
def c12x19 : State := (st 0x5000 0 rec0)
def c12x20 : Operand := {cid := some 1, base := 0x6000, stride := 128, len := 384}
def c12x21 : XF := (XX 0 1 2 0 0 0 0)
def c12x22 : State := (st 0x5040 0 rec0)
def c12x28 : XF := (XX 0 1 2 0 0 0 0)
def c12x29 : State := ((hh (st 0x5000 0 (rec2 14))).modCore 1 fun c => {c with feat := 15})
def c12x34 : XF := (XX 0 1 2 0 0 0 0)
def c12x36 : XF := (XX 0 1 2 0 11 0 0)
def c12x38 : XF := (XX 0 1 2 0 0 0 0)
def c12x39 : State := (st 0x5000 8)
def c12x40 : XF := (XX 0 1 2 0 0 0 0)
def c12x41 : XF := (XX 0 1 2 0 0 0 0)
def c12x42 : XF := (XX 3 0 0 1 0 0 0)
def c12x44 : XF := (XX 0 0 0 4 0 0 0)
def c12x45 : XF := (XX 3 1 0 0 0 3 0)
def c12x46 : NormTab := {desc := BitVec.ofNat 64 (4*2^44 + 11*2^16 + 2^15 + 1*2^12 + 3), first := 4, count := 4}
def c12x47 : XF := (XX 3 1 0 0 0 3 0)
def c12x48 : NormTab := {desc := BitVec.ofNat 64 (4*2^44 + 11*2^16 + 2^15 + 1*2^12 + 3), first := 4, count := 4}
def c12x49 : XF := (XX 3 1 0 0 0 1 0)
def c12x50 : XF := (XX 3 1 0 0 0 2 0)
def c12x51 : State := (nf .full dd)
def c12x52 : NormTab := { desc := BitVec.ofNat 64 dd, first := 0, count := 4 }
def c12x62 : XF := (XX 3 1 0 0 0 4 0)
def c12x63 : State := (nf .full dd)
def c12x64 : XF := (XX 3 1 0 0 0 2 0)
def c12x65 : XF := (XX 3 1 0 0 0 2 0)
def c12x66 : XF := (XX 0 1 2 0 0 0 0)
def c12x67 : State := (st 0x5000 0 (by_ 0x5000 [3]))
def c12x68 : XF := (XX 0 1 2 0 0 0 0)
def c12x69 : State := (st 0x5008 16)
def c12x70 : XF := (XX 3 1 0 0 0 2 0)

theorem witness_MatrixIssue_1 :
    -- .1
    (s0.sound = true ∧ accOf (s0.pitchOf s0.here.gid) c12x0.d.toNat = none ∧ Instr.mxzero (XX 5 1 2 0 0 0 0) ∈ [Instr.mxwaitv c12x0, Instr.mxdrain c12x0, Instr.mxdrainCe c12x0, Instr.mxzero c12x0, Instr.mxzeroLd c12x0, Instr.scacc c12x0] ∧ s0.admits (Instr.mxzero (XX 5 1 2 0 0 0 0)) = true) ∧
    -- .2.1
    (engineOf (s0.pitchOf s0.here.gid) c12x1.d.toNat = none ∧ Instr.mxcb (XX 5 1 2 0 0 0 0) ∈ [Instr.mxldw c12x1, Instr.mxswap c12x1, Instr.mxcb c12x1] ∧ s0.admits (Instr.mxcb (XX 5 1 2 0 0 0 0)) = true) ∧
    -- .2.2.1
    (s0.admits (Instr.mxswap c12x2) = true ∧ s0.here.wait = Wait.ready ∧ engineOf (s0.pitchOf s0.here.gid) c12x2.d.toNat = some 0) ∧
    -- .2.2.2.1
    (s0.admits (Instr.mxzero c12x4) = true ∧ accOf (s0.pitchOf s0.here.gid) c12x4.d.toNat = some 7) ∧
    -- .2.2.2.2.1.2
    (ownUnits s0 (s0.hereW c12x5.a) 20480 2 false ∧ s0.admits (Instr.mxcb c12x5) = true ∧ c12x5.a.toNat < 28 ∧ engineOf (s0.pitchOf s0.here.gid) c12x5.d.toNat = some 0 ∧ BitVec.toNat (s0.hereW c12x5.a) % 16 = 0) ∧
    -- .2.2.2.2.1.1
    (c12x7.admits (Instr.mxcb c12x6) = true ∧ c12x7.here.wait = Wait.ready ∧ c12x7.sound = true ∧ c12x6.a.toNat < 28 ∧ engineOf (c12x7.pitchOf c12x7.here.gid) c12x6.d.toNat = some 0 ∧ BitVec.toNat (c12x7.hereW c12x6.a) % 16 ≠ 0) ∧
    -- .2.2.2.2.2.1.2
    (ownUnits s0 (s0.hereW c12x8.a) 20480 512 false ∧ s0.admits (Instr.mxzeroLd c12x8) = true ∧ c12x8.a.toNat < 28 ∧ accOf (s0.pitchOf s0.here.gid) c12x8.d.toNat = some 4 ∧ BitVec.toNat (s0.hereW c12x8.a) % 16 = 0) := by
  refine ⟨
    by decide +kernel,
    by decide +kernel,
    by decide +kernel,
    by decide +kernel,
    ⟨by delta ownUnits; delta State.ownRange; delta State.ownAddress; decide +kernel, by decide +kernel⟩,
    by decide +kernel,
    ⟨by delta ownUnits; delta State.ownRange; delta State.ownAddress; decide +kernel, by decide +kernel⟩⟩

theorem witness_MatrixIssue_2 :
    -- .2.2.2.2.2.1.1
    (c12x10.admits (Instr.mxzeroLd c12x9) = true ∧ c12x10.here.wait = Wait.ready ∧ c12x10.sound = true ∧ c12x9.a.toNat < 28 ∧ accOf (c12x10.pitchOf c12x10.here.gid) c12x9.d.toNat = some 4 ∧ BitVec.toNat (c12x10.hereW c12x9.a) % 16 ≠ 0) ∧
    -- .2.2.2.2.2.2.1
    ((∀ (i : Nat), i < 64 → s0.ownRange (s0.hereW c12x11.a + BitVec.ofNat 64 (i * (c12x11.aux32.toNat % 2 ^ 16))) 1 false ((fun (i : Nat) => 20480 + 2 * i) i)) ∧ (∀ (i : Nat), i < 32 → s0.ownRange (s0.hereW c12x11.b + BitVec.ofNat 64 (i * (c12x11.aux32.toNat / 2 ^ 16))) 1 false ((fun (i : Nat) => 20480 + i) i)) ∧ s0.admits (Instr.scacc c12x11) = true ∧ c12x11.a.toNat < 28 ∧ c12x11.b.toNat < 28 ∧ accOf (s0.pitchOf s0.here.gid) c12x11.d.toNat = some 4 ∧ accOf (s0.pitchOf s0.here.gid) c12x11.c.toNat = some 7) ∧
    -- .2.2.2.2.2.2.2.1.2.2
    ((∀ (k : Nat), k < 64 → ownUnits s0 (s0.hereW c12x12.a + BitVec.ofNat 64 k * if c12x12.b = 0 then BitVec.ofNat 64 (if c12x12.et = 10 ∨ c12x12.et = 11 then 64 else if c12x12.et = 14 then 16 else 32) else s0.hereW c12x12.b) ((fun (k : Nat) => 20480 + 64 * k) k) ((if c12x12.et = 10 ∨ c12x12.et = 11 then 64 else if c12x12.et = 14 then 16 else 32) / 16) false) ∧ s0.admits (Instr.mxldw c12x12) = true ∧ c12x12.a.toNat < 28 ∧ c12x12.b.toNat < 28 ∧ engineOf (s0.pitchOf s0.here.gid) c12x12.d.toNat = some 0 ∧ BitVec.toNat (s0.hereW c12x12.a) % 16 = 0 ∧ ((if c12x12.b = 0 then BitVec.ofNat 64 (if c12x12.et = 10 ∨ c12x12.et = 11 then 64 else if c12x12.et = 14 then 16 else 32) else s0.hereW c12x12.b).toNat % 16 = 0)) ∧
    -- .2.2.2.2.2.2.2.1.2.1
    (c12x15.admits (Instr.mxldw c12x14) = true ∧ c12x15.here.wait = Wait.ready ∧ c12x15.sound = true ∧ c12x14.a.toNat < 28 ∧ c12x14.b.toNat < 28 ∧ engineOf (c12x15.pitchOf c12x15.here.gid) c12x14.d.toNat = some 0 ∧ BitVec.toNat (c12x15.hereW c12x14.a) % 16 = 0 ∧ ((if c12x14.b = 0 then BitVec.ofNat 64 (if c12x14.et = 10 ∨ c12x14.et = 11 then 64 else if c12x14.et = 14 then 16 else 32) else c12x15.hereW c12x14.b).toNat % 16 ≠ 0)) := by
  refine ⟨
    by decide +kernel,
    ⟨by delta State.ownRange; delta State.ownAddress; decide +kernel, by delta State.ownRange; delta State.ownAddress; decide +kernel, by decide +kernel⟩,
    ⟨by delta ownUnits; delta State.ownRange; delta State.ownAddress; decide +kernel, by decide +kernel⟩,
    by decide +kernel⟩

theorem witness_MatrixIssue_3 :
    -- .2.2.2.2.2.2.2.1.1
    (c12x17.admits (Instr.mxldw c12x16) = true ∧ c12x17.here.wait = Wait.ready ∧ c12x17.sound = true ∧ c12x16.a.toNat < 28 ∧ c12x16.b.toNat < 28 ∧ engineOf (c12x17.pitchOf c12x17.here.gid) c12x16.d.toNat = some 0 ∧ BitVec.toNat (c12x17.hereW c12x16.a) % 16 ≠ 0) ∧
    -- .2.2.2.2.2.2.2.2.1.2.2.2
    (ownUnits c12x19 (c12x19.hereW c12x18.a) 20480 8 false ∧ (operandGood c12x19 (fieldOf (ownBytes c12x19 20480 128) 1 1 / 2 % 2 == 1) (fieldOf (ownBytes c12x19 20480 128) 1 1 / 4 % 2 == 1) (BitVec.ofNat 64 (fieldOf (ownBytes c12x19 20480 128) 8 8)) (BitVec.ofNat 64 (fieldOf (ownBytes c12x19 20480 128) 16 8)) (fieldOf (ownBytes c12x19 20480 128) 46 1) (fieldOf (ownBytes c12x19 20480 128) 6 2) ((fun (n : Nat) => if fieldOf (ownBytes c12x19 20480 128) 0 1 = 2 then rowBytesOf (fieldOf (ownBytes c12x19 20480 128) 44 1) n else if 0 = 255 then ((fun (e n : Nat) => rowBytesOf (c12x19.tagAhead (myCluster c12x19) e) n) 0 n).max ((fun (e n : Nat) => rowBytesOf (c12x19.tagAhead (myCluster c12x19) e) n) 1 n) else (fun (e n : Nat) => rowBytesOf (c12x19.tagAhead (myCluster c12x19) e) n) 0 n) (if fieldOf (ownBytes c12x19 20480 128) 0 1 = 0 then 64 else if fieldOf (ownBytes c12x19 20480 128) 0 1 = 1 then 32 else fieldOf (ownBytes c12x19 20480 128) 40 4)) (fun (n : NormShape) => (fun (n : NormShape) => n.slices == fieldOf (ownBytes c12x19 20480 128) 80 2 && n.width == 2 ^ fieldOf (ownBytes c12x19 20480 128) 84 1 && n.etype == fieldOf (ownBytes c12x19 20480 128) 44 1) n && !n.orient && n.nr == fieldOf (ownBytes c12x19 20480 128) 6 2) c12x20) ∧ (fieldOf (ownBytes c12x19 20480 128) 0 1 = 2 → operandGood c12x19 (fieldOf (ownBytes c12x19 20480 128) 1 1 / 2 % 2 == 1) (fieldOf (ownBytes c12x19 20480 128) 1 1 / 8 % 2 == 1) (BitVec.ofNat 64 (fieldOf (ownBytes c12x19 20480 128) 24 8)) (BitVec.ofNat 64 (fieldOf (ownBytes c12x19 20480 128) 32 8)) (fieldOf (ownBytes c12x19 20480 128) 47 1) (fieldOf (ownBytes c12x19 20480 128) 40 4) ((fun (n : Nat) => if fieldOf (ownBytes c12x19 20480 128) 0 1 = 2 then rowBytesOf (fieldOf (ownBytes c12x19 20480 128) 44 1) n else if 0 = 255 then ((fun (e n : Nat) => rowBytesOf (c12x19.tagAhead (myCluster c12x19) e) n) 0 n).max ((fun (e n : Nat) => rowBytesOf (c12x19.tagAhead (myCluster c12x19) e) n) 1 n) else (fun (e n : Nat) => rowBytesOf (c12x19.tagAhead (myCluster c12x19) e) n) 0 n) 32) (fun (n : NormShape) => (fun (n : NormShape) => n.slices == fieldOf (ownBytes c12x19 20480 128) 80 2 && n.width == 2 ^ fieldOf (ownBytes c12x19 20480 128) 84 1 && n.etype == fieldOf (ownBytes c12x19 20480 128) 44 1) n && n.orient) { : Operand }) ∧ c12x19.admits (Instr.mxq c12x18) = true ∧ c12x19.here.wait = Wait.ready ∧ c12x19.sound = true ∧ c12x18.a.toNat < 28 ∧ BitVec.toNat (c12x19.hereW c12x18.a) % 128 = 0 ∧ recordFault (c12x19.pitchOf c12x19.here.gid) (ownBytes c12x19 20480 128) = none ∧ ((fieldOf (ownBytes c12x19 20480 128) 1 1 / 2 % 2 == 1) = true → c12x19.hereCore.feat.getLsbD 4 = true) ∧ (if fieldOf (ownBytes c12x19 20480 128) 2 1 = 255 ∧ 4 ≤ (c12x19.pitchOf c12x19.here.gid).length then 0 = 255 else engineOf (c12x19.pitchOf c12x19.here.gid) (fieldOf (ownBytes c12x19 20480 128) 2 1 % 255) = some 0) ∧ accOf (c12x19.pitchOf c12x19.here.gid) (fieldOf (ownBytes c12x19 20480 128) 3 1) = some 6 ∧ (if fieldOf (ownBytes c12x19 20480 128) 0 1 = 0 then accOf (c12x19.pitchOf c12x19.here.gid) (fieldOf (ownBytes c12x19 20480 128) 49 1) = some 5 else 5 = 6)) := by
  refine ⟨
    by decide +kernel,
    ⟨by delta ownUnits; delta State.ownRange; delta State.ownAddress; decide +kernel, by unfold operandGood; rw [if_neg (by decide +kernel)]; delta State.ownAddress; decide +kernel, fun h => absurd h (by decide +kernel), by decide +kernel⟩⟩

theorem witness_MatrixIssue_4 :
    -- .2.2.2.2.2.2.2.2.1.1
    (c12x22.admits (Instr.mxq c12x21) = true ∧ c12x22.here.wait = Wait.ready ∧ c12x22.sound = true ∧ c12x21.a.toNat < 28 ∧ BitVec.toNat (c12x22.hereW c12x21.a) % 128 ≠ 0) ∧
    -- .2.2.2.2.2.2.2.2.1.2.2.1
    (ownUnits c12x29 (c12x29.hereW c12x28.a) 20480 8 false ∧ c12x29.admits (Instr.mxq c12x28) = true ∧ c12x29.here.wait = Wait.ready ∧ c12x29.sound = true ∧ c12x28.a.toNat < 28 ∧ BitVec.toNat (c12x29.hereW c12x28.a) % 128 = 0 ∧ recordFault (c12x29.pitchOf c12x29.here.gid) (ownBytes c12x29 20480 128) = none ∧ fieldOf (ownBytes c12x29 20480 128) 1 1 / 2 % 2 = 1 ∧ c12x29.hereCore.feat.getLsbD 4 = false) ∧
    -- .2.2.2.2.2.2.2.2.2.1
    ((Instr.mxwaitv (XX 0 1 2 0 0 0 0) = Instr.mxwaitv c12x34 ∧ 0 = c12x34.aux32.toNat % 65536 ∨ Instr.mxwaitv (XX 0 1 2 0 0 0 0) = Instr.mxwaitvReg c12x34 ∧ 0 = BitVec.toNat (s0.hereW c12x34.a) % 65536 ∧ c12x34.a.toNat < 28) ∧ s0.admits (Instr.mxwaitv (XX 0 1 2 0 0 0 0)) = true ∧ accOf (s0.pitchOf s0.here.gid) c12x34.d.toNat = some 4) ∧
    -- .2.2.2.2.2.2.2.2.2.2.1.2.2
    ((∀ (k : Nat), k < 64 → ownUnits s0 (s0.hereW c12x36.a + BitVec.ofNat 64 k * if c12x36.b = 0 then BitVec.ofNat 64 (if c12x36.et = 11 then 64 else 128) else s0.hereW c12x36.b) ((fun (k : Nat) => 20480 + 64 * k) k) ((if c12x36.et = 11 then 64 else 128) / 16) true) ∧ s0.admits (Instr.mxdrain c12x36) = true ∧ c12x36.a.toNat < 28 ∧ c12x36.b.toNat < 28 ∧ accOf (s0.pitchOf s0.here.gid) c12x36.d.toNat = some 4 ∧ BitVec.toNat (s0.hereW c12x36.a) % 16 = 0 ∧ ((if c12x36.b = 0 then BitVec.ofNat 64 (if c12x36.et = 11 then 64 else 128) else s0.hereW c12x36.b).toNat % 16 = 0)) ∧
    -- .2.2.2.2.2.2.2.2.2.2.1.2.1
    (c12x39.admits (Instr.mxdrain c12x38) = true ∧ c12x39.here.wait = Wait.ready ∧ c12x39.sound = true ∧ c12x38.a.toNat < 28 ∧ c12x38.b.toNat < 28 ∧ accOf (c12x39.pitchOf c12x39.here.gid) c12x38.d.toNat = some 4 ∧ BitVec.toNat (c12x39.hereW c12x38.a) % 16 = 0 ∧ ((if c12x38.b = 0 then BitVec.ofNat 64 (if c12x38.et = 11 then 64 else 128) else c12x39.hereW c12x38.b).toNat % 16 ≠ 0)) := by
  refine ⟨
    by decide +kernel,
    ⟨by delta ownUnits; delta State.ownRange; delta State.ownAddress; decide +kernel, by decide +kernel⟩,
    by decide +kernel,
    ⟨by delta ownUnits; delta State.ownRange; delta State.ownAddress; decide +kernel, by decide +kernel⟩,
    by decide +kernel⟩

theorem witness_MatrixIssue_5 :
    -- .2.2.2.2.2.2.2.2.2.2.2.1.1
    (s0.admits (Instr.mxdrainCe c12x40) = true ∧ c12x40.a.toNat < 28 ∧ accOf (s0.pitchOf s0.here.gid) c12x40.d.toNat = some 4 ∧ (256 ≤ BitVec.toNat (s0.hereW c12x40.a) ∨ Option.any (fun (p : Transfer) => p.gid == s0.here.gid && match p.kind with | TransferKind.rscat r => r.stream | x => false) ((tfind (s0.die (dieOf s0.curCid)).plans (BitVec.toNat (s0.hereW c12x40.a))).bind s0.transfer?) = false)) ∧
    -- .2.2.2.2.2.2.2.2.2.2.2.1.2
    (spl.admits (Instr.mxdrainCe c12x41) = true ∧ spl.here.wait = Wait.ready ∧ spl.sound = true ∧ c12x41.a.toNat < 28 ∧ accOf (spl.pitchOf spl.here.gid) c12x41.d.toNat = some 4 ∧ BitVec.toNat (spl.hereW c12x41.a) < 256 ∧ (Option.any (fun (p : Transfer) => p.gid == spl.here.gid && match p.kind with | TransferKind.rscat r => r.stream | x => false) ((tfind (spl.die (dieOf spl.curCid)).plans (BitVec.toNat (spl.hereW c12x41.a))).bind spl.transfer?) = true)) ∧
    -- .2.2.2.2.2.2.2.2.2.2.2.2.1.2
    (sacc.admits (Instr.mxstat c12x42) = true ∧ sacc.here.wait = Wait.ready ∧ sacc.sound = true ∧ sacc.hereCore.sp.wf = true ∧ c12x42.d.toNat < 28 ∧ sacc.quietReg (8 * c12x42.d.toNat) = true ∧ accOf (sacc.pitchOf sacc.here.gid) c12x42.c.toNat = some 5) ∧
    -- .2.2.2.2.2.2.2.2.2.2.2.2.1.1
    (sacc.admits (Instr.mxstat c12x44) = true ∧ c12x44.d.toNat < 28 ∧ sacc.quietReg (8 * c12x44.d.toNat) = true ∧ accOf (sacc.pitchOf sacc.here.gid) c12x44.c.toNat = none) ∧
    -- .2.2.2.2.2.2.2.2.2.2.2.2.2.1.2.2
    ((nrd 2).admits (Instr.normrd c12x45) = true ∧ (nrd 2).here.wait = Wait.ready ∧ (nrd 2).sound = true ∧ (nrd 2).hereCore.sp.wf = true ∧ c12x45.a.toNat < 28 ∧ c12x45.d.toNat < 28 ∧ (nrd 2).quietReg (8 * c12x45.d.toNat) = true ∧ ((nrd 2).handle (nrd 2).curCid (c12x45.aux8.toNat % 64)).norm = some c12x46 ∧ BitVec.toNat ((nrd 2).hereW c12x45.a) < c12x46.count) := by
  refine ⟨?_, ?_, ?_, ?_, ?_⟩ <;> decide +kernel

theorem witness_MatrixIssue_6 :
    -- .2.2.2.2.2.2.2.2.2.2.2.2.2.1.2.1
    ((nrd 4).admits (Instr.normrd c12x47) = true ∧ (nrd 4).here.wait = Wait.ready ∧ (nrd 4).sound = true ∧ (nrd 4).hereCore.sp.wf = true ∧ c12x47.a.toNat < 28 ∧ c12x47.d.toNat < 28 ∧ (nrd 4).quietReg (8 * c12x47.d.toNat) = true ∧ ((nrd 4).handle (nrd 4).curCid (c12x47.aux8.toNat % 64)).norm = some c12x48 ∧ c12x48.count ≤ BitVec.toNat ((nrd 4).hereW c12x47.a)) ∧
    -- .2.2.2.2.2.2.2.2.2.2.2.2.2.1.1
    ((nrd 4).admits (Instr.normrd c12x49) = true ∧ c12x49.a.toNat < 28 ∧ c12x49.d.toNat < 28 ∧ (nrd 4).quietReg (8 * c12x49.d.toNat) = true ∧ ((nrd 4).handle (nrd 4).curCid (c12x49.aux8.toNat % 64)).norm = none) ∧
    -- .2.2.2.2.2.2.2.2.2.2.2.2.2.2.2.2.2.2
    (c12x51.admits (Instr.normref c12x50) = true ∧ c12x51.here.wait = Wait.ready ∧ c12x51.sound = true ∧ c12x50.a.toNat < 28 ∧ ((c12x51.handle c12x51.curCid (c12x50.aux8.toNat % 64)).state = HState.filling ∨ (c12x51.handle c12x51.curCid (c12x50.aux8.toNat % 64)).state = HState.full) ∧ (c12x51.handle c12x51.curCid (c12x50.aux8.toNat % 64)).pins = 0 ∧ (c12x51.handle c12x51.curCid (c12x50.aux8.toNat % 64)).base + (c12x51.handle c12x51.curCid (c12x50.aux8.toNat % 64)).len ≤ 393216 ∧ (if c12x51.hereW c12x50.a = 0 then (c12x51.handle c12x51.curCid (c12x50.aux8.toNat % 64)).norm = some c12x52 else validNorm (c12x51.hereW c12x50.a) (c12x51.handle c12x51.curCid (c12x50.aux8.toNat % 64)).len = true ∧ State.findNorms (if c12x51.hereW c12x50.a = 0 then c12x51 else match (c12x51.handle c12x51.curCid (c12x50.aux8.toNat % 64)).norm with | some u => c12x51.freeNorms c12x51.curCid u | none => c12x51).hereCore.norms (normShape (c12x51.hereW c12x50.a)).slices = some c12x52.first ∧ c12x52.desc = c12x51.hereW c12x50.a ∧ c12x52.count = (normShape (c12x51.hereW c12x50.a)).slices) ∧ 0 < c12x52.count) ∧
    -- .2.2.2.2.2.2.2.2.2.2.2.2.2.2.1
    (c12x63.admits (Instr.normref c12x62) = true ∧ c12x63.here.wait = Wait.ready ∧ c12x63.sound = true ∧ c12x62.a.toNat < 28 ∧ ((c12x63.handle c12x63.curCid (c12x62.aux8.toNat % 64)).state ≠ HState.filling ∧ (c12x63.handle c12x63.curCid (c12x62.aux8.toNat % 64)).state ≠ HState.full ∨ 0 < (c12x63.handle c12x63.curCid (c12x62.aux8.toNat % 64)).pins)) := by
  refine ⟨?_, ?_, ?_, ?_⟩ <;> decide +kernel

theorem witness_MatrixIssue_7 :
    -- .2.2.2.2.2.2.2.2.2.2.2.2.2.2.2.1
    ((nf HState.full 0).admits (Instr.normref c12x64) = true ∧ (nf HState.full 0).here.wait = Wait.ready ∧ (nf HState.full 0).sound = true ∧ c12x64.a.toNat < 28 ∧ (((nf HState.full 0).handle (nf HState.full 0).curCid (c12x64.aux8.toNat % 64)).state = HState.filling ∨ ((nf HState.full 0).handle (nf HState.full 0).curCid (c12x64.aux8.toNat % 64)).state = HState.full) ∧ ((nf HState.full 0).handle (nf HState.full 0).curCid (c12x64.aux8.toNat % 64)).pins = 0 ∧ ((nf HState.full 0).handle (nf HState.full 0).curCid (c12x64.aux8.toNat % 64)).base + ((nf HState.full 0).handle (nf HState.full 0).curCid (c12x64.aux8.toNat % 64)).len ≤ 393216 ∧ (nf HState.full 0).hereW c12x64.a = 0 ∧ ((nf HState.full 0).handle (nf HState.full 0).curCid (c12x64.aux8.toNat % 64)).norm = none) ∧
    -- .2.2.2.2.2.2.2.2.2.2.2.2.2.2.2.2.1
    ((nf HState.full 7).admits (Instr.normref c12x65) = true ∧ (nf HState.full 7).here.wait = Wait.ready ∧ (nf HState.full 7).sound = true ∧ c12x65.a.toNat < 28 ∧ (((nf HState.full 7).handle (nf HState.full 7).curCid (c12x65.aux8.toNat % 64)).state = HState.filling ∨ ((nf HState.full 7).handle (nf HState.full 7).curCid (c12x65.aux8.toNat % 64)).state = HState.full) ∧ ((nf HState.full 7).handle (nf HState.full 7).curCid (c12x65.aux8.toNat % 64)).pins = 0 ∧ ((nf HState.full 7).handle (nf HState.full 7).curCid (c12x65.aux8.toNat % 64)).base + ((nf HState.full 7).handle (nf HState.full 7).curCid (c12x65.aux8.toNat % 64)).len ≤ 393216 ∧ (nf HState.full 7).hereW c12x65.a ≠ 0 ∧ validNorm ((nf HState.full 7).hereW c12x65.a) ((nf HState.full 7).handle (nf HState.full 7).curCid (c12x65.aux8.toNat % 64)).len = false) ∧
    -- .2.2.2.2.2.2.2.2.1.2.1
    (ownUnits c12x67 (c12x67.hereW c12x66.a) 20480 8 false ∧ c12x67.admits (Instr.mxq c12x66) = true ∧ c12x67.here.wait = Wait.ready ∧ c12x67.sound = true ∧ c12x66.a.toNat < 28 ∧ BitVec.toNat (c12x67.hereW c12x66.a) % 128 = 0 ∧ recordFault (c12x67.pitchOf c12x67.here.gid) (ownBytes c12x67 20480 128) = some 0) ∧
    -- .2.2.2.2.2.2.2.2.2.2.1.1
    (c12x69.admits (Instr.mxdrain c12x68) = true ∧ c12x69.here.wait = Wait.ready ∧ c12x69.sound = true ∧ c12x68.a.toNat < 28 ∧ c12x68.b.toNat < 28 ∧ accOf (c12x69.pitchOf c12x69.here.gid) c12x68.d.toNat = some 4 ∧ BitVec.toNat (c12x69.hereW c12x68.a) % 16 ≠ 0) := by
  refine ⟨
    by decide +kernel,
    by decide +kernel,
    ⟨by delta ownUnits; delta State.ownRange; delta State.ownAddress; decide +kernel, by decide +kernel⟩,
    by decide +kernel⟩

theorem witness_MatrixIssue_8 :
    -- .2.2.2.2.2.2.2.2.2.2.2.2.2.2.2.2.2.1
    nfu.admits (Instr.normref c12x70) = true ∧ nfu.here.wait = Wait.ready ∧ nfu.sound = true ∧ c12x70.a.toNat < 28 ∧ ((nfu.handle nfu.curCid (c12x70.aux8.toNat % 64)).state = HState.filling ∨ (nfu.handle nfu.curCid (c12x70.aux8.toNat % 64)).state = HState.full) ∧ (nfu.handle nfu.curCid (c12x70.aux8.toNat % 64)).pins = 0 ∧ (nfu.handle nfu.curCid (c12x70.aux8.toNat % 64)).base + (nfu.handle nfu.curCid (c12x70.aux8.toNat % 64)).len ≤ 393216 ∧ nfu.hereW c12x70.a ≠ 0 ∧ validNorm (nfu.hereW c12x70.a) (nfu.handle nfu.curCid (c12x70.aux8.toNat % 64)).len = true ∧ (State.findNorms (if nfu.hereW c12x70.a = 0 then nfu else match (nfu.handle nfu.curCid (c12x70.aux8.toNat % 64)).norm with | some u => nfu.freeNorms nfu.curCid u | none => nfu).hereCore.norms (normShape (nfu.hereW c12x70.a)).slices = none) := by
  exact by decide +kernel

end Sys2Proof.Tests.T12

namespace Sys2Proof.Tests.T13
open Sys2Proof.Machine Sys2Proof.Claims

def b0 : State := { (small 0) with obj := {a := 0, b := 20} }
def E (k : EntryKind) : Entry := { id := 20, cid := 1, slot := 0, serial := 7, gid := 1, kind := k }
def q (s : State) (l : List Entry) : State := s.modCluster 0 fun c => { c with queue := l }
def R (e : Entry) : Entry := { e with started := true }
def fill31 := List.replicate 31 { (E (.zero 3)) with id := 1, gid := 2 }
def wt : State := ((q b0 fill31).modCluster 0 fun c => { c with waiting := [E (.zero 4), E (.zero 5)] }).modSlot 1 0 fun x => { x with wait := .enqueue }
def T (mode rows : Nat) : TaskRec := { mode := mode, bar := false, samp := false, rdv := none, engine := 0, expver := 3, rows := rows, a := {cid := some 1, base := 0x5000, stride := 128, len := 0x1000}, b := {cid := some 1, base := 0x6000, stride := 64, len := 0x1000}, klen := 70, etype := 11, cbslot := 0, seed := 0, tag := 0, slices := 0, samples := 0, wlog := 0, vlim := 0 }
def accs (s : State) : State := (s.setAccumulator 0 5 { version := 3, words := [(0, 0x3f800000), (33, 0x40000000), (2047, 1)], status := 9 }).setAccumulator 0 6 {version := 8, words := [(0,0x40400000)]}
def pl (tag : Nat) (s : State) : State := s.setEngine 0 0 { active := {tag := tag, rows := (List.range 64).map fun k => (k, BitVec.ofNat 512 (0x3f803f80404000003f80 * (k+1)))}, cb := [(3, 7)] }
def dat (s : State) : State := s.modCore 1 fun c => { c with sp := by_ 0x5000 ((List.range 0x200).map fun k => (k * 37 + 11) % 70) ++ by_ 0x6000 ((List.range 0x1200).map fun k => (k * 29 + 11) % 70) }
def ts (k : TaskRec) : State := q (pl k.etype (accs (dat b0))) [E (.task k 5 6)]
def Tg := { (T 0 2) with a := { base := 0x80000000, stride := 128, len := 0x1000} }
def Tv := { (T 0 2) with expver := 4 }
def sw := q (pl 11 b0) [E (.swap 0)]
def rt : Entry := R { (E (.task (T 0 2) 5 5)) with id := 2 }
def mx (s : State) : State := s.setEngine 0 0 { active := { tag := 15, mx := 11, rows := (List.range 64).map fun k => (k, BitVec.ofNat 512 (0x3a413850395138ffff * (k+1))) } }
def tm (k : TaskRec) (b : Nat) : State := q (mx ((accs (dat b0)).setAccumulator 0 6 { version := 3, words := [(0, 0x40400000)] })) [E (.task k 5 b)]
def Tm := { (T 0 2) with a := { (T 0 2).a with stride := 64 } }
def cb := E (.codebook 0 1 ((List.range 16).map fun k => BitVec.ofNat 16 (k * 3)))
def un : List (Word × Loc) := [(0x5000, { home := .scratch 1, addr := 0x5000 }), (0x5020, { home := .scratch 1, addr := 0x5020 })]
def dr := { (E (.drain 5 false)) with units := un }
def drb := { (E (.drain 5 true)) with units := un }
def pr : PlanRec := { home := 1, etype := 9, stream := false, rdv := none, slot := 0, n := 2, rank := 1, elems := 8, src := 0, dst := 0x8000, next := 2, planid := 77, mb := 6 }
def tr : Transfer := { id := 5, cid := 1, slot := 0, serial := 7, gid := 1, region := 0x10000, kind := .rscat { pr with stream := true }, accepted := true }
def ce := E (.drainCe 5 9)
def lk (s : State) := s.modCluster 0 fun c => { c with locks := [{full := false, global := false, core := 1, region := 0, base := 0x5000, len := 16, hkind := 3, hidx := 20, holder := 20, since := 0}, {full := false, global := false, core := 1, region := 0, base := 0x5000, len := 16, hkind := 0, hidx := 20, holder := 20, since := 0}] }
def cm (k : EntryKind) (f : Entry → Entry := id) : State := q (lk (accs b0)) [f (R (E k))]
def tk (e : Entry) : Entry := { e with words := [(5, [(4,8)])], status := 77 }
def Tr := { (T 0 2) with rdv := some 4 }
def G0 : Group := { gid := 1, region := 0x10000, header := {nsafe := 5}, mode := {det := true}, pitch := [1,2], state := .running }

def c13x0 : Entry := (E (.zero 4))
def c13x1 : Entry := (E (.task (T 0 2) 5 6))
def c13x5 : Entry := (E (.task Tg 5 6))
def c13x6 : ReadErr := ((((ts Tg).taskSums 0 1 0x10000 0 Tg 5 5).err).getD {code := 1})
def c13x7 : Entry := (E (.task Tv 5 6))
def c13x8 : Entry := (E (.swap 0))
def c13x9 : State := (q b0 [rt, E (.swap 0)])
def c13x10 : Entry := (E (.swap 0))
def c13x11 : State := (tm { Tm with expver := 3 } 7)
def c13x12 : Entry := (E (.task Tm 5 7))
def c13x13 : Entry := (E (.task Tm 5 5))
def c13x14 : Entry := (E (.task Tm 5 6))
def c13x15 : State := (q (pl 11 b0) [cb])
def c13x16 : State := (q (pl 14 b0) [R { (E (.task { (T 0 2) with cbslot := 1 } 5 5)) with id := 2 }, cb])
def c13x17 : State := (q (accs b0) [dr])
def c13x19 : State := (q (accs b0) [rt, drb])
def c13x20 : State := { (q (accs b0) [ce]) with dies := [(0, { plans := [(9, 5)] })], transfers := [tr] }
def c13x21 : State := (q b0 [E (.zero 5)])
def c13x22 : Entry := (E (.zero 5))
def c13x27 : State := (q b0 [rt, E (.scale 5 6 0 [] [])])
def c13x28 : Entry := (E (.scale 5 6 0 [] []))
def c13x29 : State := (cm (.zero 5))
def c13x30 : Entry := (R (E (.zero 5)))
def c13x41 : State := { (cm (.task Tr 5 5) tk) with groups := [(1,G0)] }
def c13x42 : Entry := (tk (R (E (.task Tr 5 5))))
def c13x43 : State := ((cm (.drain 5 false)).modSlot 1 0 fun x => {x with wait := .engine 20})
def c13x44 : Entry := (R (E (.drain 5 false)))

theorem witness_EngineEvents_1 :
    -- .1
    ((wt.cluster wt.obj.a).waiting = [c13x0, E (EntryKind.zero 5)] ∧ (wt.cluster wt.obj.a).queue.length = 31 ∧ c13x0.kind.startStep ≠ Instr.taskStart ∧ wt.ownerOf c13x0.cid c13x0.slot c13x0.serial = some (1, 0) ∧ (wt.slot 1 0).wait = Wait.enqueue) ∧
    -- .2.1.2.1
    (headIs (ts (T 0 2)) 0 c13x1 ∧ c13x1.kind = EntryKind.task (T 0 2) 5 6 ∧ ((T 0 2).bar = true → ∀ (x : Entry), x ∈ ((ts (T 0 2)).cluster 0).queue → x.started = true → x.kind.startStep ≠ Instr.taskStart) ∧ (if (T 0 2).engine = 255 then 0 = 0 ∨ 0 = 1 ∧ (ts (T 0 2)).engineBusy 0 0 = true else 0 = (T 0 2).engine) ∧ (ts (T 0 2)).engineBusy 0 0 = false ∧ (ts (T 0 2)).accBusy 0 5 = false ∧ ((ts (T 0 2)).acc 0 5).version = (T 0 2).expver ∧ (T 0 2).samp = false ∧ ((T 0 2).mode = 1 → (T 0 2).rows ≤ 32) ∧ (ts (T 0 2)).sound = true ∧ (¬((T 0 2).mode = 0 ∧ ((ts (T 0 2)).engine 0 0).active.tag = 15)) ∧ ((ts (T 0 2)).taskSums 0 c13x1.cid ((ts (T 0 2)).regionOf c13x1.gid) 0 (T 0 2) 5 5).err = none) ∧
    -- .2.1.2.2.1
    (headIs (ts Tg) 0 c13x5 ∧ c13x5.kind = EntryKind.task Tg 5 6 ∧ (Tg.bar = true → ∀ (x : Entry), x ∈ ((ts Tg).cluster 0).queue → x.started = true → x.kind.startStep ≠ Instr.taskStart) ∧ (if Tg.engine = 255 then 0 = 0 ∨ 0 = 1 ∧ (ts Tg).engineBusy 0 0 = true else 0 = Tg.engine) ∧ (ts Tg).engineBusy 0 0 = false ∧ (ts Tg).accBusy 0 5 = false ∧ ((ts Tg).acc 0 5).version = Tg.expver ∧ Tg.samp = false ∧ (Tg.mode = 1 → Tg.rows ≤ 32) ∧ (ts Tg).sound = true ∧ (¬(Tg.mode = 0 ∧ ((ts Tg).engine 0 0).active.tag = 15)) ∧ ((ts Tg).taskSums 0 c13x5.cid ((ts Tg).regionOf c13x5.gid) 0 Tg 5 5).err = some c13x6) ∧
    -- .2.1.1
    (headIs (ts Tv) 0 c13x7 ∧ c13x7.kind = EntryKind.task Tv 5 6 ∧ ((Tv.bar = true ∧ ∃ (x : Entry), x ∈ ((ts Tv).cluster 0).queue ∧ x.started = true ∧ x.kind.startStep = Instr.taskStart) ∨ Tv.engine ≠ 255 ∧ (ts Tv).engineBusy 0 Tv.engine = true ∨ ((ts Tv).acc 0 5).version ≠ Tv.expver ∨ (ts Tv).accBusy 0 5 = true)) := by
  refine ⟨
    by decide +kernel,
    ⟨by delta headIs; decide +kernel, by decide +kernel⟩,
    ⟨by delta headIs; decide +kernel, by decide +kernel⟩,
    ⟨by delta headIs; decide +kernel, by decide +kernel⟩⟩

theorem witness_EngineEvents_2 :
    -- .2.2.1.2
    (headIs sw 0 c13x8 ∧ (∀ (g : Group), sw.group? c13x8.gid = some g → g.state = GState.running) ∧ c13x8.kind = EntryKind.swap 0 ∧ sw.engineBusy 0 0 = false) ∧
    -- .2.2.1.1
    (headIs c13x9 0 c13x10 ∧ (∀ (g : Group), c13x9.group? c13x10.gid = some g → g.state = GState.running) ∧ c13x10.kind = EntryKind.swap 0 ∧ c13x9.engineBusy 0 0 = true) ∧
    -- .2.1.2.2.2.1
    (headIs c13x11 0 c13x12 ∧ c13x12.kind = EntryKind.task Tm 5 7 ∧ (Tm.bar = true → ∀ (x : Entry), x ∈ (c13x11.cluster 0).queue → x.started = true → x.kind.startStep ≠ Instr.taskStart) ∧ (if Tm.engine = 255 then 0 = 0 ∨ 0 = 1 ∧ c13x11.engineBusy 0 0 = true else 0 = Tm.engine) ∧ c13x11.engineBusy 0 0 = false ∧ c13x11.accBusy 0 5 = false ∧ (c13x11.acc 0 5).version = Tm.expver ∧ Tm.samp = false ∧ (Tm.mode = 1 → Tm.rows ≤ 32) ∧ c13x11.sound = true ∧ (Tm.mode = 0 ∧ (c13x11.engine 0 0).active.tag = 15) ∧ (c13x11.accBusy 0 7 = true ∨ (c13x11.acc 0 7).version ≠ Tm.expver)) ∧
    -- .2.1.2.2.2.2.1
    (headIs (tm Tm 5) 0 c13x13 ∧ c13x13.kind = EntryKind.task Tm 5 5 ∧ (Tm.bar = true → ∀ (x : Entry), x ∈ ((tm Tm 5).cluster 0).queue → x.started = true → x.kind.startStep ≠ Instr.taskStart) ∧ (if Tm.engine = 255 then 0 = 0 ∨ 0 = 1 ∧ (tm Tm 5).engineBusy 0 0 = true else 0 = Tm.engine) ∧ (tm Tm 5).engineBusy 0 0 = false ∧ (tm Tm 5).accBusy 0 5 = false ∧ ((tm Tm 5).acc 0 5).version = Tm.expver ∧ (tm Tm 5).sound = true ∧ (Tm.mode = 0 ∧ ((tm Tm 5).engine 0 0).active.tag = 15) ∧ 5 = 5) := by
  refine ⟨
    ⟨by delta headIs; decide +kernel, every_some (by decide +kernel), by decide +kernel⟩,
    ⟨by delta headIs; decide +kernel, every_some (by decide +kernel), by decide +kernel⟩,
    ⟨by delta headIs; decide +kernel, by decide +kernel⟩,
    ⟨by delta headIs; decide +kernel, by decide +kernel⟩⟩

theorem witness_EngineEvents_3 :
    -- .2.1.2.2.2.2.2
    (headIs (tm Tm 6) 0 c13x14 ∧ c13x14.kind = EntryKind.task Tm 5 6 ∧ (Tm.bar = true → ∀ (x : Entry), x ∈ ((tm Tm 6).cluster 0).queue → x.started = true → x.kind.startStep ≠ Instr.taskStart) ∧ (if Tm.engine = 255 then 0 = 0 ∨ 0 = 1 ∧ (tm Tm 6).engineBusy 0 0 = true else 0 = Tm.engine) ∧ (tm Tm 6).engineBusy 0 0 = false ∧ (tm Tm 6).accBusy 0 5 = false ∧ ((tm Tm 6).acc 0 5).version = Tm.expver ∧ (tm Tm 6).sound = true ∧ (Tm.mode = 0 ∧ ((tm Tm 6).engine 0 0).active.tag = 15) ∧ 5 ≠ 6 ∧ (tm Tm 6).accBusy 0 6 = false ∧ ((tm Tm 6).acc 0 6).version = Tm.expver ∧ ((tm Tm 6).taskSums 0 c13x14.cid ((tm Tm 6).regionOf c13x14.gid) 0 Tm 5 6).err = none) ∧
    -- .2.2.2.1.2
    (headIs c13x15 0 cb ∧ (∀ (g : Group), c13x15.group? cb.gid = some g → g.state = GState.running) ∧ (cb.kind = EntryKind.codebook 0 1 (List.map (fun (k : Nat) => BitVec.ofNat 16 (k * 3)) (List.range 16))) ∧ ((List.map (fun (k : Nat) => BitVec.ofNat 16 (k * 3)) (List.range 16)).length = 16) ∧ codebookUsed c13x15 0 0 1 = false) ∧
    -- .2.2.2.1.1
    (headIs c13x16 0 cb ∧ (∀ (g : Group), c13x16.group? cb.gid = some g → g.state = GState.running) ∧ codebookUsed c13x16 0 0 1 = true) ∧
    -- .2.2.2.2.1.2
    (headIs c13x17 0 dr ∧ (∀ (i j : Nat), i < j → j < dr.units.length → (fun (i : Nat) => (dr.units.getD i (0, { home := Home.scratch dr.cid, addr := 0 : Loc })).snd.addr) i + 16 ≤ (fun (i : Nat) => (dr.units.getD i (0, { home := Home.scratch dr.cid, addr := 0 : Loc })).snd.addr) j ∨ (fun (i : Nat) => (dr.units.getD i (0, { home := Home.scratch dr.cid, addr := 0 : Loc })).snd.addr) j + 16 ≤ (fun (i : Nat) => (dr.units.getD i (0, { home := Home.scratch dr.cid, addr := 0 : Loc })).snd.addr) i) ∧ dr.kind = EntryKind.drain 5 false ∧ c13x17.accBusy 0 5 = false ∧ c13x17.sound = true ∧ (c13x17.core dr.cid).sp.wf = true ∧ (∀ (i : Nat), i < dr.units.length → (dr.units.getD i (0, { home := Home.scratch dr.cid, addr := 0 : Loc })).snd.home = Home.scratch dr.cid ∧ c13x17.scratchLocked dr.cid ((fun (i : Nat) => (dr.units.getD i (0, { home := Home.scratch dr.cid, addr := 0 : Loc })).snd.addr) i) 16 true = false ∧ c13x17.unwritten dr.cid ((fun (i : Nat) => (dr.units.getD i (0, { home := Home.scratch dr.cid, addr := 0 : Loc })).snd.addr) i) 16 = true ∧ c13x17.unwatched (Home.scratch dr.cid) ((fun (i : Nat) => (dr.units.getD i (0, { home := Home.scratch dr.cid, addr := 0 : Loc })).snd.addr) i) 16 = true)) := by
  refine ⟨
    ⟨by delta headIs; decide +kernel, by decide +kernel⟩,
    ⟨by delta headIs; decide +kernel, every_some (by decide +kernel), by decide +kernel⟩,
    ⟨by delta headIs; decide +kernel, every_some (by decide +kernel), by decide +kernel⟩,
    ⟨by delta headIs; decide +kernel, by intro i j h1 h2; revert h1; revert i; revert h2; revert j; decide +kernel, by decide +kernel⟩⟩

theorem witness_EngineEvents_4 :
    -- .2.2.2.2.1.1
    (headIs c13x19 0 drb ∧ drb.kind = EntryKind.drain 5 true ∧ c13x19.accBusy 0 5 = true) ∧
    -- .2.2.2.2.2.1
    (headIs c13x20 0 ce ∧ ce.kind = EntryKind.drainCe 5 9 ∧ c13x20.accBusy 0 5 = false ∧ c13x20.sound = true ∧ tfind (c13x20.die (dieOf ce.cid)).plans 9 = some tr.id ∧ c13x20.transfer? tr.id = some tr) ∧
    -- .2.2.2.2.2.2.1.2
    (headIs c13x21 0 c13x22 ∧ c13x21.sound = true ∧ Instr.zeroStart ∈ [Instr.zeroStart, Instr.fillStart, Instr.scaleStart] ∧ c13x22.kind.startStep = Instr.zeroStart ∧ c13x22.acc?.any (c13x21.accBusy 0) = false) ∧
    -- .2.2.2.2.2.2.1.1
    (headIs c13x27 0 c13x28 ∧ c13x27.sound = true ∧ Instr.scaleStart ∈ [Instr.zeroStart, Instr.fillStart, Instr.scaleStart] ∧ c13x28.kind.startStep = Instr.scaleStart ∧ c13x28.acc?.any (c13x27.accBusy 0) = true) ∧
    -- .2.2.2.2.2.2.2.1
    ((∀ (g : Group), c13x29.group? c13x30.gid = some g → g.state = GState.running) ∧ (List.find? (fun (x : Entry) => x.id == c13x29.obj.b) (c13x29.cluster c13x29.obj.a).queue = some c13x30) ∧ c13x30.audit = none ∧ c13x30.trap = none) ∧
    -- .2.2.2.2.2.2.2.2.1
    ((List.find? (fun (x : Entry) => x.id == c13x41.obj.b) (c13x41.cluster c13x41.obj.a).queue = some c13x42) ∧ c13x42.kind = EntryKind.task Tr 5 5 ∧ Tr.rdv = some 4 ∧ c13x42.silent = false ∧ c13x42.audit = none ∧ c13x41.group? c13x42.gid = some G0 ∧ G0.gid = c13x42.gid ∧ G0.state = GState.running) := by
  refine ⟨
    ⟨by delta headIs; decide +kernel, by decide +kernel⟩,
    ⟨by delta headIs; decide +kernel, by decide +kernel⟩,
    ⟨by delta headIs; decide +kernel, by decide +kernel⟩,
    ⟨by delta headIs; decide +kernel, by decide +kernel⟩,
    ⟨every_some (by decide +kernel), by decide +kernel⟩,
    by decide +kernel⟩

theorem witness_EngineEvents_5 :
    -- .2.2.2.2.2.2.2.2.2
    (∀ (g : Group), c13x43.group? c13x44.gid = some g → g.state = GState.running) ∧ (List.find? (fun (x : Entry) => x.id == c13x43.obj.b) (c13x43.cluster c13x43.obj.a).queue = some c13x44) ∧ c13x44.kind = EntryKind.drain 5 false ∧ c13x44.trap = none ∧ c13x43.ownerOf c13x44.cid c13x44.slot c13x44.serial = some (1, 0) ∧ (c13x43.slot 1 0).wait = Wait.engine c13x44.id ∧ c13x43.ustore c13x44.serial ≤ 64 := by
  exact ⟨every_some (by decide +kernel), by decide +kernel⟩

end Sys2Proof.Tests.T13

namespace Sys2Proof.Tests.T21
open Sys2Proof.Machine Sys2Proof.Claims

def ha : NormTab := { desc := BitVec.ofNat 64 (2 ^ 44 + 2 ^ 32 + 11 * 2 ^ 16 + 2 ^ 12 + 3), first := 0, count := 4 }
def hb : NormTab := { desc := BitVec.ofNat 64 (4 * 2 ^ 44 + 2 ^ 32 + 11 * 2 ^ 16 + 2 ^ 15 + 2 ^ 12 + 3), first := 4, count := 4 }
def K (n : Nat) (v : BitVec 32) : TaskRec := { mode := 2, bar := false, samp := true, rdv := none, engine := 0, expver := 3, rows := 1, a := { cid := some 1, base := 0x5000, stride := 16, len := 16, handle := some 2 }, b := { cid := some 1, base := 0x6000, stride := 64, len := 512, handle := some 3 }, klen := 8, etype := 11, cbslot := 0, seed := 5, tag := 9, slices := 4, samples := n, wlog := 1, vlim := v }
def E (k : TaskRec) : Entry := { id := 20, cid := 1, slot := 0, serial := 7, gid := 1, kind := .task k 5 5 }
def a1 : List Nat := [0x80,0x3f,0,0x40,0x40,0x40,0x80,0x40,0xa0,0x40,0xc0,0xc0,0xe0,0x40,0,0x41]
def st (k : TaskRec) (a : List Nat) (gov : Bool) (aud : Word) : State :=
  let s : State := { (small 0) with obj := { a := 0, b := 20 }, groups := [(1, { gid := 1, region := 0x10000, header := {nsafe := 5}, mode := { gov := gov }, pitch := [1], state := .running })], regions := [(0x10000, { regid := 1, audthr := BitVec.ofNat 32 aud.toNat })] }
  let s := s.modCore 1 fun c => { c with sp := by_ 0x5000 a ++ by_ 0x6000 ((List.range 512).map fun k => if k % 2 = 0 then (k * 37) % 128 else 0x3f), hs := [(2, { state := .full, base := 0x5000, len := 16, norm := some ha }), (3, { state := .full, base := 0x6000, len := 512, norm := some hb })], norms := (List.range 8).map fun k => (k, { used := true, norm := 0x3f800000, stale := k != 3 && k != 5 }) }
  (s.setAccumulator 0 5 { version := 3, words := [(0, 0x3f800000), (40, 0x40000000)] }).modCluster 0 fun c => { c with queue := [E k] }
def EA : Entry := { (E (K 2 0)) with started := true, audit := some (some 0x3FF8000000000000, true) }
def au : State := (st (K 2 0) a1 true 0).modCluster 0 fun c => { c with queue := [EA] }
def rg : Region := { regid := 1, audthr := 0, audsum := 0x3FF0000000000000, audcnt := 4 }
def au2 : State := { au with regions := [(0x10000, rg)], net := [] }

def c21x0 : State := (st (K 2 0x7f800000) a1 false 0)
def c21x1 : Entry := (E (K 2 0x7f800000))
def c21x2 : TaskRec := (K 2 0x7f800000)

theorem witness_SampledTasks :
    -- .1
    (headIs c21x0 0 c21x1 ∧ sampledGood c21x0 c21x1.cid c21x2 2 3 ha hb ∧ c21x1.kind = EntryKind.task c21x2 5 5 ∧ (c21x2.bar = true → ∀ (x : Entry), x ∈ (c21x0.cluster 0).queue → x.started = true → x.kind.startStep ≠ Instr.taskStart) ∧ c21x2.engine ≠ 255 ∧ c21x0.engineBusy 0 c21x2.engine = false ∧ c21x0.accBusy 0 5 = false ∧ (c21x0.acc 0 5).version = c21x2.expver ∧ c21x0.sound = true) ∧
    -- .2
    ((∀ (g : Group), au2.group? EA.gid = some g → g.state = GState.running) ∧ (List.find? (fun (x : Entry) => x.id == au2.obj.b) (au2.cluster au2.obj.a).queue = some EA) ∧ EA.kind = EntryKind.task (K 2 0) 5 5 ∧ EA.audit = some (some 4609434218613702656, true) ∧ (K 2 0).rdv = none ∧ tfind au2.regions (au2.regionOf EA.gid) = some rg ∧ au2.sound = true ∧ au2.mem.wf = true ∧ au2.net = []) := by
  refine ⟨
    ⟨by delta headIs; decide +kernel, by delta sampledGood; decide +kernel, by decide +kernel⟩,
    ⟨every_some (by decide +kernel), by decide +kernel⟩⟩

end Sys2Proof.Tests.T21

namespace Sys2Proof.Tests.T14
open Sys2Proof.Machine Sys2Proof.Claims

def XX (d a b c et aux8 aux32 : Nat) : XF := ⟨0,BitVec.ofNat 5 d,BitVec.ofNat 5 a,BitVec.ofNat 5 b,BitVec.ofNat 5 c,BitVec.ofNat 4 et,0,false,0,BitVec.ofNat 8 aux8,BitVec.ofNat 32 aux32⟩
def w (n v : Nat) : List Host.Cell := by_ (8*n) ((List.range 8).map fun k => v / 2^(8*k) % 256)
def st (a b c : Nat) (extra : List Host.Cell := []) (d : Nat := 0): State := (small 0).modCore 1 fun k => { k with sp := w 1 a ++ w 2 b ++ w 3 c ++ w 4 d ++ by_ 576 [1,0,0,0,0xff] ++ by_ 608 [1] ++ by_ 616 [0x14] ++ extra }
def mb (c a : Nat) (s : State) := s.setMailbox 1 5 { count := c, abandon := a }
def wt (s : State) := s.modSlot 1 3 fun x => { x with live := true, wait := .mailbox 5 4 (.reg 3 24) }
def hs (l : List (Nat × Handle)) (s : State) := s.modCore 1 fun c => { c with hs := l }
def scn := st 0x6000 0x7000 5 (by_ 0x6000 [0,0x80,0,0,1,0,0,0,0xc0,0x7f])
def mz : Msg := { id := 4, kind := .instr, cid := 1, slot := 0, serial := 7, region := 0x10000, va := 3, loc := {home := .scratch 1, addr := 0}, size := 0, units := [{home := .scratch 1, addr := 0x7000}], bytes := [1,0,0,0,2,0,0,0], dest := .reg 0 32, ins := .nzscan (XX 4 1 2 3 4 0 0), performed := true }
def zs (c : Nat) : State := { ((st 1 2 3).modSlot 1 0 fun x => {x with wait := .engine 4}) with net := [mz], obj := {a := 4, c := c} }
def sd (d x toH sh k : Nat) := XX d 1 2 3 0 (x + 64*toH + 128*sh) k
def lkd14 : State := { ((hs [(5,{state := .filling, base := 0x8000, len := 0x1000})] (st 0x10 0x6000 0x100)).modCluster 0 fun c => { c with locks := [{full := true, global := false, core := 1, region := 0, base := 0x8000, len := 0x100, hkind := 3, hidx := 20, holder := 20, since := 0}] }) with cycle := 5 }
def lst : List Host.Cell := by_ 0x4040 ([10,2] ++ List.replicate 6 0 ++ [0,0,0,0x80] ++ List.replicate 4 0 ++ [64,0,0,0, 9,0,0,0] ++ List.replicate 16 0 ++ [128])
def g := XX 0 0 2 3 0 5 1
def pl (st_ : Nat) : List Host.Cell := by_ 0x6000 ([9, 2 + st_, 3, 4, 2, 0, 1, 0, (if st_ = 1 then 0 else 8), (if st_ = 1 then 0x10 else 0)] ++ List.replicate 6 0 ++ [0,0x70] ++ List.replicate 6 0 ++ [0, 0x80] ++ List.replicate 6 0 ++ [1])
def vd (e : Nat) : List Host.Cell := by_ 0x6000 ([1,1,2,5,2,0,0,0, 0,0,0,0x80,0,0,0,0, 100,0,0,0,0,0,0,0, 0,0x70,0,0,0,0,0,0, 2,0,4,0,16,0,16,0, 7]) ++ by_ 0x7000 [3,0,4,0,0,0,0,0, 1,0,e,0]

def c14x0 : XF := (XX 3 1 0 0 0 5 0)
def c14x1 : State := (mb 4 0 (st 4 0 0))
def c14x4 : XF := (XX 3 1 0 0 0 5 0)
def c14x5 : State := (mb 4 0 (st 5 0 0))
def c14x6 : XF := (XX 3 1 0 0 0 5 0)
def c14x7 : State := (mb 4 0 (st (2^32) 0 0))
def c14x8 : XF := (XX 3 1 0 0 0 69 0)
def c14x9 : State := (mb 4 7 (st 5 0 0))
def c14x10 : XF := (XX 3 1 0 0 0 5 0)
def c14x11 : State := (mb 4 7 (st (2^48) 0 0))
def c14x12 : XF := (XX 3 1 0 0 0 5 0)
def c14x13 : State := (mb 4 7 (st (2^48-1) 0 0))
def c14x14 : XF := (XX 3 1 0 0 0 5 0)
def c14x15 : State := (wt (st 4 0 0))
def c14x18 : XF := (XX 3 1 2 0 0 5 0x305)
def c14x19 : State := (hs [(5, {claim := 4})] (st 0x8000 0x100 0))
def c14x20 : XF := (XX 3 1 2 0 0 5 0x305)
def c14x21 : State := (hs [(7, {state := .full, base := 0x8080, len := 0x1000})] (st 0x8000 0x100 0))
def c14x22 : XF := (XX 3 1 2 0 0 5 0x305)
def c14x23 : State := (hs [] (st 0x4000 0x100 0))
def c14x24 : XF := (XX 3 1 2 0 0 5 0x305)
def c14x25 : State := (hs [] (st 0x8000 0x108 0))
def c14x26 : XF := (XX 3 1 2 0 0 5 0x305)
def c14x27 : State := (hs [] (st 0x8008 0x108 0))
def c14x28 : XF := (XX 3 1 2 0 0 5 0x305)
def c14x29 : State := (hs [(5,{state := .full})] (st 0x8008 0x108 0))
def c14x30 : XF := (XX 3 1 2 0 0 5 0)
def c14x31 : State := (hs [(5,{state := .full, mb := 3})] (st 0 0 0))
def c14x32 : XF := (XX 3 1 2 0 0 5 0)
def c14x33 : State := (hs [(5,{state := .draining, mb := 3})] (st 0 0 0))
def c14x34 : XF := (XX 3 1 2 0 0 5 0)
def c14x35 : State := (hs [(5,{state := .draining, mb := 3})] (st 0 0 0))
def c14x36 : XF := (XX 3 1 2 0 0 5 0)
def c14x37 : State := ((hs [(5,{state := .full, mb := 3, claim := 7, norm := some {desc := 5, first := 2, count := 3}})] (st 0 0 0)).setNorm 1 3 { used := true, norm := 8 })
def c14x38 : XF := (XX 3 1 2 0 0 5 0)
def c14x39 : State := (hs [(5,{state := .draining, mb := 3})] (st 0 0 0))
def c14x40 : XF := (XX 4 1 2 3 10 0 0)
def c14x42 : XF := (XX 4 1 2 3 4 0 0)
def c14x43 : State := (st 0x6008 0 5)
def c14x44 : XF := (XX 4 1 2 3 4 0 0)
def c14x45 : State := (st 0x5FFF0 0 16)
def c14x46 : XF := (XX 4 1 2 3 4 0 0)
def c14x47 : State := (st 0x5FFF0 0 65536)
def c14x48 : XF := (XX 4 1 2 3 4 0 0)
def c14x49 : XF := (XX 4 1 2 3 4 0 0)
def c14x50 : XF := (sd 0 0 0 0 0x20043)
def c14x51 : State := (st 0x8000 0x6000 0x2000)
def c14x56 : XF := (sd 0 5 0 1 0x10043)
def c14x57 : State := (hs [(2,{state := .full, base := 0x6000, len := 0x1000, swz := 2})] (st 0x10 2 0x1000))
def c14x58 : XF := (sd 0 5 0 1 0x50043)
def c14x59 : State := (hs [(2,{state := .full, base := 0x6000, len := 0x1000, swz := 2})] (st 0x10 2 0x1000))
def c14x60 : XF := (sd 0 0 0 0 0)
def c14x61 : State := (({ (st 0x8000 0x6000 0x2000) with groups := []}))
def c14x62 : XF := (sd 0 5 1 0 0)
def c14x63 : XF := (sd 0 0 0 0 0)
def c14x64 : State := (st 0x8008 0x6000 0x2000)
def c14x65 : XF := (sd 0 0 0 0 0)
def c14x66 : State := (st 0x8008 0x6008 0x2000)
def c14x67 : XF := (sd 0 0 0 1 0)
def c14x68 : State := (hs [(2,{state := .full, base := 0x6000, len := 0x1000, swz := 2})] (st 0x8008 2 0x2000))
def c14x69 : XF := (sd 0 0 0 1 0)
def c14x70 : State := (st 0x8008 2 0x2000)
def c14x71 : XF := (sd 0 0 0 1 0)
def c14x72 : State := (st 0x8008 2 0x2008)
def c14x73 : State := (hs [(5,{state := .filling, base := 0x8000, len := 0x1000, claim := 4})] (st 0 0x7000 3 (lst ++ by_ 0x7000 [1,0,0,0,2,0,0,0,3])))
def c14x75 : State := (hs [(5,{state := .filling, base := 0x8000, len := 0x1000, claim := 4})] (st 0 0x4000 3 (lst ++ by_ 0x7000 [1,0,0,0,2,0,0,0,3])))
def c14x76 : State := (hs [(5,{state := .filling, base := 0x8000, len := 0x10, claim := 4})] (st 0 0x4000 3 lst))
def c14x77 : State := (hs [(5,{state := .full, base := 0x8000, len := 0x10, claim := 4})] (st 0 0x4000 3 lst))
def c14x78 : State := (st 0 0x4000 3)
def c14x79 : XF := (XX 0 1 0 0 0 0 0)
def c14x80 : State := (st 0x6000 0 0 (pl 0))
def c14x83 : XF := (XX 0 1 0 0 0 0 0)
def c14x84 : State := {(st 0x6000 0 0 (pl 1)) with dies := [(0, {plans := [(3,9)]})]}
def c14x85 : XF := (XX 0 1 0 0 0 0 0)
def c14x86 : State := (st 0x6000 0 0)
def c14x87 : XF := (XX 0 1 0 0 0 0 0)
def c14x88 : State := (st 0x6000 0 0 (vd 5))
def c14x89 : XF := (XX 0 1 0 0 0 0 0)
def c14x90 : State := (st 0x6000 0 0 (vd 0x55))
def c14x91 : XF := (XX 0 1 0 0 0 0 0)
def c14x92 : State := (st 0x6000 0 0)
def c14x93 : XF := (XX 0 1 0 0 0 0 0)
def c14x94 : State := (st 0x6008 0 0)
def c14x95 : State := (st 0 0x7000 65536 lst)
def c14x96 : XF := (XX 0 1 0 0 0 0 0)
def c14x97 : State := (st 0x6040 0 0)

theorem witness_MailboxesAndHandles_1 :
    -- .1.2.1
    (c14x1.admits (Instr.mbwait c14x0) = true ∧ c14x1.here.wait = Wait.ready ∧ c14x1.sound = true ∧ c14x1.hereCore.sp.wf = true ∧ c14x0.a.toNat < 28 ∧ c14x0.d.toNat < 28 ∧ c14x1.quietReg (8 * c14x0.d.toNat) = true ∧ BitVec.toNat (c14x1.hereW c14x0.a) < 2 ^ 32 ∧ ((c14x1.mailbox c14x1.curCid (c14x0.aux8.toNat % 64)).abandon ≠ 0 ∨ BitVec.toNat (c14x1.hereW c14x0.a) ≤ (c14x1.mailbox c14x1.curCid (c14x0.aux8.toNat % 64)).count)) ∧
    -- .1.2.2
    (c14x5.admits (Instr.mbwait c14x4) = true ∧ c14x5.here.wait = Wait.ready ∧ c14x5.sound = true ∧ c14x5.hereCore.sp.wf = true ∧ c14x4.a.toNat < 28 ∧ c14x4.d.toNat < 28 ∧ c14x5.quietReg (8 * c14x4.d.toNat) = true ∧ BitVec.toNat (c14x5.hereW c14x4.a) < 2 ^ 32 ∧ (c14x5.mailbox c14x5.curCid (c14x4.aux8.toNat % 64)).abandon = 0 ∧ (c14x5.mailbox c14x5.curCid (c14x4.aux8.toNat % 64)).count < BitVec.toNat (c14x5.hereW c14x4.a)) ∧
    -- .1.1
    (c14x7.admits (Instr.mbwait c14x6) = true ∧ c14x7.here.wait = Wait.ready ∧ c14x7.sound = true ∧ c14x7.hereCore.sp.wf = true ∧ c14x6.a.toNat < 28 ∧ c14x6.d.toNat < 28 ∧ c14x7.quietReg (8 * c14x6.d.toNat) = true ∧ 2 ^ 32 ≤ BitVec.toNat (c14x7.hereW c14x6.a)) ∧
    -- .2.1
    (c14x9.admits (Instr.mbread c14x8) = true ∧ c14x9.here.wait = Wait.ready ∧ c14x9.sound = true ∧ c14x8.d.toNat < 28) := by
  refine ⟨?_, ?_, ?_, ?_⟩ <;> decide +kernel

theorem witness_MailboxesAndHandles_2 :
    -- .2.2.1.1
    (c14x11.admits (Instr.mbset c14x10) = true ∧ c14x11.sound = true ∧ c14x10.a.toNat < 28 ∧ 2 ^ 48 ≤ BitVec.toNat (c14x11.hereW c14x10.a)) ∧
    -- .2.2.1.2.1
    (c14x13.Settled c14x13.curCid ∧ c14x13.admits (Instr.mbset c14x12) = true ∧ c14x13.sound = true ∧ c14x12.a.toNat < 28 ∧ BitVec.toNat (c14x13.hereW c14x12.a) < 2 ^ 48) ∧
    -- .2.2.1.2.2
    ((∀ (j : Nat), j ≠ 3 → (c14x15.slot c14x15.curCid j).wait = Wait.ready) ∧ c14x15.admits (Instr.mbset c14x14) = true ∧ c14x15.sound = true ∧ c14x14.a.toNat < 28 ∧ BitVec.toNat (c14x15.hereW c14x14.a) < 2 ^ 48 ∧ 3 < 16 ∧ 3 ≠ c14x15.curSlot ∧ (c14x15.slot c14x15.curCid 3).wait = Wait.mailbox (c14x14.aux8.toNat % 64) 4 (Dest.reg 3 24) ∧ (c14x15.slot c14x15.curCid 3).live = true ∧ (c14x15.slot c14x15.curCid 3).guest = false ∧ c14x15.hereCore.sp.wf = true ∧ (BitVec.toNat (c14x15.hereW c14x14.a) / 2 ^ 32 ≠ 0 ∨ 4 ≤ BitVec.toNat (c14x15.hereW c14x14.a) % 2 ^ 32)) := by
  refine ⟨
    by decide +kernel,
    ⟨settled_of (by decide +kernel), by decide +kernel⟩,
    ⟨others_ready (by decide +kernel), by decide +kernel⟩⟩

theorem witness_MailboxesAndHandles_3 :
    -- .2.2.2.1.2.2.2.2.2
    (c14x19.admits (Instr.hclaim c14x18) = true ∧ c14x19.here.wait = Wait.ready ∧ c14x19.sound = true ∧ c14x18.a.toNat < 28 ∧ c14x18.b.toNat < 28 ∧ (c14x19.handle c14x19.curCid (c14x18.aux8.toNat % 64)).state = HState.free ∧ BitVec.toNat (c14x19.hereW c14x18.a) % 16 = 0 ∧ BitVec.toNat (c14x19.hereW c14x18.b) % 16 = 0 ∧ c14x19.hereW c14x18.b ≠ 0 ∧ 20480 ≤ BitVec.toNat (c14x19.hereW c14x18.a) ∧ BitVec.toNat (c14x19.hereW c14x18.a) + BitVec.toNat (c14x19.hereW c14x18.b) ≤ 393216 ∧ (∀ (k : Nat), k < 64 → ¬(fun (k : Nat) => k ≠ c14x18.aux8.toNat % 64 ∧ (c14x19.handle c14x19.curCid k).state ≠ HState.free ∧ (c14x19.handle c14x19.curCid k).base < BitVec.toNat (c14x19.hereW c14x18.a) + BitVec.toNat (c14x19.hereW c14x18.b) ∧ BitVec.toNat (c14x19.hereW c14x18.a) < (c14x19.handle c14x19.curCid k).base + (c14x19.handle c14x19.curCid k).len) k)) ∧
    -- .2.2.2.1.2.2.2.2.1
    (c14x21.admits (Instr.hclaim c14x20) = true ∧ c14x21.here.wait = Wait.ready ∧ c14x21.sound = true ∧ c14x20.a.toNat < 28 ∧ c14x20.b.toNat < 28 ∧ (c14x21.handle c14x21.curCid (c14x20.aux8.toNat % 64)).state = HState.free ∧ BitVec.toNat (c14x21.hereW c14x20.a) % 16 = 0 ∧ BitVec.toNat (c14x21.hereW c14x20.b) % 16 = 0 ∧ c14x21.hereW c14x20.b ≠ 0 ∧ 20480 ≤ BitVec.toNat (c14x21.hereW c14x20.a) ∧ BitVec.toNat (c14x21.hereW c14x20.a) + BitVec.toNat (c14x21.hereW c14x20.b) ≤ 393216 ∧ 7 < 64 ∧ ((fun (k : Nat) => k ≠ c14x20.aux8.toNat % 64 ∧ (c14x21.handle c14x21.curCid k).state ≠ HState.free ∧ (c14x21.handle c14x21.curCid k).base < BitVec.toNat (c14x21.hereW c14x20.a) + BitVec.toNat (c14x21.hereW c14x20.b) ∧ BitVec.toNat (c14x21.hereW c14x20.a) < (c14x21.handle c14x21.curCid k).base + (c14x21.handle c14x21.curCid k).len) 7) ∧ (∀ (j : Nat), j < 7 → ¬(fun (k : Nat) => k ≠ c14x20.aux8.toNat % 64 ∧ (c14x21.handle c14x21.curCid k).state ≠ HState.free ∧ (c14x21.handle c14x21.curCid k).base < BitVec.toNat (c14x21.hereW c14x20.a) + BitVec.toNat (c14x21.hereW c14x20.b) ∧ BitVec.toNat (c14x21.hereW c14x20.a) < (c14x21.handle c14x21.curCid k).base + (c14x21.handle c14x21.curCid k).len) j)) := by
  refine ⟨?_, ?_⟩ <;> decide +kernel

theorem witness_MailboxesAndHandles_4 :
    -- .2.2.2.1.2.2.2.1
    (c14x23.admits (Instr.hclaim c14x22) = true ∧ c14x23.here.wait = Wait.ready ∧ c14x23.sound = true ∧ c14x22.a.toNat < 28 ∧ c14x22.b.toNat < 28 ∧ (c14x23.handle c14x23.curCid (c14x22.aux8.toNat % 64)).state = HState.free ∧ BitVec.toNat (c14x23.hereW c14x22.a) % 16 = 0 ∧ BitVec.toNat (c14x23.hereW c14x22.b) % 16 = 0 ∧ c14x23.hereW c14x22.b ≠ 0 ∧ (BitVec.toNat (c14x23.hereW c14x22.a) < 20480 ∨ 393216 < BitVec.toNat (c14x23.hereW c14x22.a) + BitVec.toNat (c14x23.hereW c14x22.b))) ∧
    -- .2.2.2.1.2.2.1
    (c14x25.admits (Instr.hclaim c14x24) = true ∧ c14x25.here.wait = Wait.ready ∧ c14x25.sound = true ∧ c14x24.a.toNat < 28 ∧ c14x24.b.toNat < 28 ∧ (c14x25.handle c14x25.curCid (c14x24.aux8.toNat % 64)).state = HState.free ∧ BitVec.toNat (c14x25.hereW c14x24.a) % 16 = 0 ∧ (BitVec.toNat (c14x25.hereW c14x24.b) % 16 ≠ 0 ∨ c14x25.hereW c14x24.b = 0)) ∧
    -- .2.2.2.1.2.1
    (c14x27.admits (Instr.hclaim c14x26) = true ∧ c14x27.here.wait = Wait.ready ∧ c14x27.sound = true ∧ c14x26.a.toNat < 28 ∧ c14x26.b.toNat < 28 ∧ (c14x27.handle c14x27.curCid (c14x26.aux8.toNat % 64)).state = HState.free ∧ BitVec.toNat (c14x27.hereW c14x26.a) % 16 ≠ 0) ∧
    -- .2.2.2.1.1
    (c14x29.admits (Instr.hclaim c14x28) = true ∧ c14x29.here.wait = Wait.ready ∧ c14x29.sound = true ∧ c14x28.a.toNat < 28 ∧ c14x28.b.toNat < 28 ∧ (c14x29.handle c14x29.curCid (c14x28.aux8.toNat % 64)).state ≠ HState.free) := by
  refine ⟨?_, ?_, ?_, ?_⟩ <;> decide +kernel

theorem witness_MailboxesAndHandles_5 :
    -- .2.2.2.2.1.2
    (c14x31.admits (Instr.hwait c14x30) = true ∧ c14x31.here.wait = Wait.ready ∧ c14x31.sound = true ∧ c14x31.hereCore.sp.wf = true ∧ c14x30.d.toNat < 28 ∧ c14x31.quietReg (8 * c14x30.d.toNat) = true ∧ ((c14x31.handle c14x31.curCid (c14x30.aux8.toNat % 64)).state = HState.free ∨ (c14x31.handle c14x31.curCid (c14x30.aux8.toNat % 64)).state = HState.full)) ∧
    -- .2.2.2.2.1.1
    (c14x33.admits (Instr.hwait c14x32) = true ∧ c14x33.here.wait = Wait.ready ∧ c14x33.sound = true ∧ c14x33.hereCore.sp.wf = true ∧ c14x32.d.toNat < 28 ∧ c14x33.quietReg (8 * c14x32.d.toNat) = true ∧ ((c14x33.handle c14x33.curCid (c14x32.aux8.toNat % 64)).state = HState.filling ∨ (c14x33.handle c14x33.curCid (c14x32.aux8.toNat % 64)).state = HState.draining)) ∧
    -- .2.2.2.2.2.1.1
    (c14x35.admits (Instr.hfree c14x34) = true ∧ c14x35.sound = true ∧ ((c14x35.handle c14x35.curCid (c14x34.aux8.toNat % 64)).state ≠ HState.full ∨ 0 < (c14x35.handle c14x35.curCid (c14x34.aux8.toNat % 64)).pins)) ∧
    -- .2.2.2.2.2.1.2
    (c14x37.Settled c14x37.curCid ∧ c14x37.admits (Instr.hfree c14x36) = true ∧ c14x37.sound = true ∧ (c14x37.handle c14x37.curCid (c14x36.aux8.toNat % 64)).state = HState.full ∧ (c14x37.handle c14x37.curCid (c14x36.aux8.toNat % 64)).pins = 0) ∧
    -- .2.2.2.2.2.2.1
    (c14x39.admits (Instr.hstat c14x38) = true ∧ c14x39.here.wait = Wait.ready ∧ c14x39.sound = true ∧ c14x38.d.toNat < 28) := by
  refine ⟨
    by decide +kernel,
    by decide +kernel,
    by decide +kernel,
    ⟨settled_of (by decide +kernel), by decide +kernel⟩,
    by decide +kernel⟩

theorem witness_MailboxesAndHandles_6 :
    -- .2.2.2.2.2.2.2.1.2.2.2
    (scn.admits (Instr.nzscan c14x40) = true ∧ scn.here.wait = Wait.ready ∧ scn.sound = true ∧ c14x40.a.toNat < 28 ∧ c14x40.b.toNat < 28 ∧ c14x40.c.toNat < 28 ∧ c14x40.d.toNat < 28 ∧ scn.here.guest = false ∧ BitVec.toNat (scn.hereW c14x40.c) ≤ 65535 ∧ BitVec.toNat (scn.hereW c14x40.a) % 16 = 0 ∧ BitVec.toNat (scn.hereW c14x40.a) + 16 * ((BitVec.toNat (scn.hereW c14x40.c) * (elementBits c14x40.et.toNat / 8) + 15) / 16) ≤ 393216 ∧ BitVec.toNat (scn.hereW c14x40.b) % 16 = 0 ∧ BitVec.toNat (scn.hereW c14x40.b) + 4 * BitVec.toNat (scn.hereW c14x40.c) ≤ 393216 ∧ scn.scratchLocked scn.curCid (BitVec.toNat (scn.hereW c14x40.a)) (16 * ((BitVec.toNat (scn.hereW c14x40.c) * (elementBits c14x40.et.toNat / 8) + 15) / 16)) false = false ∧ scn.scratchLocked scn.curCid (BitVec.toNat (scn.hereW c14x40.b)) (4 * BitVec.toNat (scn.hereW c14x40.c)) true = false) ∧
    -- .2.2.2.2.2.2.2.1.2.1
    (c14x43.admits (Instr.nzscan c14x42) = true ∧ c14x43.here.wait = Wait.ready ∧ c14x43.sound = true ∧ c14x42.a.toNat < 28 ∧ c14x42.b.toNat < 28 ∧ c14x42.c.toNat < 28 ∧ c14x42.d.toNat < 28 ∧ c14x43.here.guest = false ∧ BitVec.toNat (c14x43.hereW c14x42.c) ≤ 65535 ∧ BitVec.toNat (c14x43.hereW c14x42.a) % 16 ≠ 0) := by
  refine ⟨?_, ?_⟩ <;> decide +kernel

theorem witness_MailboxesAndHandles_7 :
    -- .2.2.2.2.2.2.2.1.2.2.1
    (c14x45.admits (Instr.nzscan c14x44) = true ∧ c14x45.here.wait = Wait.ready ∧ c14x45.sound = true ∧ c14x44.a.toNat < 28 ∧ c14x44.b.toNat < 28 ∧ c14x44.c.toNat < 28 ∧ c14x44.d.toNat < 28 ∧ c14x45.here.guest = false ∧ BitVec.toNat (c14x45.hereW c14x44.c) ≤ 65535 ∧ BitVec.toNat (c14x45.hereW c14x44.a) % 16 = 0 ∧ 393216 < BitVec.toNat (c14x45.hereW c14x44.a) + 16 * ((BitVec.toNat (c14x45.hereW c14x44.c) * (elementBits c14x44.et.toNat / 8) + 15) / 16)) ∧
    -- .2.2.2.2.2.2.2.1.1
    (c14x47.admits (Instr.nzscan c14x46) = true ∧ c14x47.here.wait = Wait.ready ∧ c14x47.sound = true ∧ c14x46.a.toNat < 28 ∧ c14x46.b.toNat < 28 ∧ c14x46.c.toNat < 28 ∧ c14x46.d.toNat < 28 ∧ c14x47.here.guest = false ∧ 65535 < BitVec.toNat (c14x47.hereW c14x46.c)) ∧
    -- .2.2.2.2.2.2.2.2.1
    (stepMessage (zs 0) mz ∧ mz.kind = MsgKind.instr ∧ mz.ins = Instr.nzscan c14x48 ∧ (zs 0).ownerOf mz.cid mz.slot mz.serial = some (1, 0) ∧ ((zs 0).slot 1 0).wait = Wait.engine mz.id ∧ (zs 0).obj.c = 0) := by
  refine ⟨
    by decide +kernel,
    by decide +kernel,
    ⟨stepMessage_of 0 (by decide +kernel), by decide +kernel⟩⟩

theorem witness_MailboxesAndHandles_8 :
    -- .2.2.2.2.2.2.2.2.2
    stepMessage (zs 1) mz ∧ mz.ins = Instr.nzscan c14x49 ∧ (zs 1).ownerOf mz.cid mz.slot mz.serial = some (1, 0) ∧ ((zs 1).slot 1 0).wait = Wait.engine mz.id ∧ (zs 1).obj.c = 1 ∧ mz.units = [{ home := Home.scratch 1, addr := 28672 : Loc }] ∧ mz.dest = Dest.reg 0 32 ∧ 32 + 8 ≤ 1024 ∧ ((zs 1).slot 1 0).guest = false ∧ ((zs 1).core 1).sp.wf = true ∧ (zs 1).sound = true ∧ (zs 1).unwritten 1 28672 mz.bytes.length = true ∧ (zs 1).unwatched (Home.scratch 1) 28672 mz.bytes.length = true ∧ (28672 + mz.bytes.length ≤ 1024 * 0 + 32 ∨ 1024 * 0 + 32 + 8 ≤ 28672) := by
  exact ⟨stepMessage_of 0 (by decide +kernel), by decide +kernel⟩

theorem witness_TransfersPosted_1 :
    -- .1.2.2.2.2.2.2.2.2.2
    c14x51.admits (Instr.send c14x50) = true ∧ c14x51.here.wait = Wait.ready ∧ c14x51.sound = true ∧ c14x50.a.toNat < 28 ∧ c14x50.b.toNat < 28 ∧ c14x50.c.toNat < 28 ∧ c14x50.d.toNat < 28 ∧ c14x51.here.guest = false ∧ (BitVec.toNat (c14x51.hereW c14x50.c) % 16 = 0 ∧ 16 ≤ BitVec.toNat (c14x51.hereW c14x50.c) ∧ BitVec.toNat (c14x51.hereW c14x50.c) ≤ 2 ^ 32 - 16) ∧ (if c14x50.aux8.getLsbD 7 = true then BitVec.toNat (c14x51.hereW c14x50.b) < 64 ∧ (c14x51.handle c14x51.curCid (BitVec.toNat (c14x51.hereW c14x50.b))).state = HState.full ∧ (c14x51.handle c14x51.curCid (BitVec.toNat (c14x51.hereW c14x50.b))).pins = 0 ∧ BitVec.toNat (c14x51.hereW c14x50.c) ≤ (c14x51.handle c14x51.curCid (BitVec.toNat (c14x51.hereW c14x50.b))).len ∧ (c14x51.handle c14x51.curCid (BitVec.toNat (c14x51.hereW c14x50.b))).base + (c14x51.handle c14x51.curCid (BitVec.toNat (c14x51.hereW c14x50.b))).len ≤ 393216 else BitVec.toNat (c14x51.hereW c14x50.b) % 16 = 0 ∧ BitVec.toNat (c14x51.hereW c14x50.b) + BitVec.toNat (c14x51.hereW c14x50.c) ≤ 393216 ∧ c14x51.scratchLocked c14x51.curCid (BitVec.toNat (c14x51.hereW c14x50.b)) (BitVec.toNat (c14x51.hereW c14x50.c)) false = false) ∧ BitVec.toNat (c14x51.hereW c14x50.a) % 16 = 0 ∧ (if c14x50.aux8.getLsbD 6 = true then BitVec.toNat (c14x51.hereW c14x50.a) < 2 ^ 19 ∧ c14x51.scratchLocked c14x51.curCid ((c14x51.handle c14x51.curCid (c14x50.aux8.toNat % 64)).base + BitVec.toNat (c14x51.hereW c14x50.a)) (BitVec.toNat (c14x51.hereW c14x50.c)) true = false else BitVec.toNat (c14x51.hereW c14x50.a) + BitVec.toNat (c14x51.hereW c14x50.c) ≤ 393216 ∧ c14x51.scratchLocked c14x51.curCid (BitVec.toNat (c14x51.hereW c14x50.a)) (BitVec.toNat (c14x51.hereW c14x50.c)) true = false) ∧ c14x51.livePitchUp c14x51.curCid c14x51.here.region = true ∧ c14x50.aux32.toNat / 65536 % 256 ≤ 4 ∧ (c14x50.aux8.getLsbD 7 = false ∨ c14x50.aux32.toNat / 65536 % 256 = 0 ∨ (c14x51.handle c14x51.curCid (BitVec.toNat (c14x51.hereW c14x50.b))).swz = 0) ∧ (∀ (p : Transfer), p ∈ c14x51.transfers → p.id ≠ c14x51.serial) := by
  exact by decide +kernel

theorem witness_TransfersPosted_2 :
    -- .1.2.2.2.2.2.2.2.2.1
    (c14x57.admits (Instr.send c14x56) = true ∧ c14x57.here.wait = Wait.ready ∧ c14x57.sound = true ∧ c14x56.a.toNat < 28 ∧ c14x56.b.toNat < 28 ∧ c14x56.c.toNat < 28 ∧ c14x56.d.toNat < 28 ∧ c14x57.here.guest = false ∧ (BitVec.toNat (c14x57.hereW c14x56.c) % 16 = 0 ∧ 16 ≤ BitVec.toNat (c14x57.hereW c14x56.c) ∧ BitVec.toNat (c14x57.hereW c14x56.c) ≤ 2 ^ 32 - 16) ∧ (if c14x56.aux8.getLsbD 7 = true then BitVec.toNat (c14x57.hereW c14x56.b) < 64 ∧ (c14x57.handle c14x57.curCid (BitVec.toNat (c14x57.hereW c14x56.b))).state = HState.full ∧ (c14x57.handle c14x57.curCid (BitVec.toNat (c14x57.hereW c14x56.b))).pins = 0 ∧ BitVec.toNat (c14x57.hereW c14x56.c) ≤ (c14x57.handle c14x57.curCid (BitVec.toNat (c14x57.hereW c14x56.b))).len ∧ (c14x57.handle c14x57.curCid (BitVec.toNat (c14x57.hereW c14x56.b))).base + (c14x57.handle c14x57.curCid (BitVec.toNat (c14x57.hereW c14x56.b))).len ≤ 393216 else BitVec.toNat (c14x57.hereW c14x56.b) % 16 = 0 ∧ BitVec.toNat (c14x57.hereW c14x56.b) + BitVec.toNat (c14x57.hereW c14x56.c) ≤ 393216 ∧ c14x57.scratchLocked c14x57.curCid (BitVec.toNat (c14x57.hereW c14x56.b)) (BitVec.toNat (c14x57.hereW c14x56.c)) false = false) ∧ BitVec.toNat (c14x57.hereW c14x56.a) % 16 = 0 ∧ (if c14x56.aux8.getLsbD 6 = true then BitVec.toNat (c14x57.hereW c14x56.a) < 2 ^ 19 ∧ c14x57.scratchLocked c14x57.curCid ((c14x57.handle c14x57.curCid (c14x56.aux8.toNat % 64)).base + BitVec.toNat (c14x57.hereW c14x56.a)) (BitVec.toNat (c14x57.hereW c14x56.c)) true = false else BitVec.toNat (c14x57.hereW c14x56.a) + BitVec.toNat (c14x57.hereW c14x56.c) ≤ 393216 ∧ c14x57.scratchLocked c14x57.curCid (BitVec.toNat (c14x57.hereW c14x56.a)) (BitVec.toNat (c14x57.hereW c14x56.c)) true = false) ∧ c14x57.livePitchUp c14x57.curCid c14x57.here.region = true ∧ c14x56.aux32.toNat / 65536 % 256 ≤ 4 ∧ c14x56.aux8.getLsbD 7 = true ∧ c14x56.aux32.toNat / 65536 % 256 ≠ 0 ∧ (c14x57.handle c14x57.curCid (BitVec.toNat (c14x57.hereW c14x56.b))).swz ≠ 0) ∧
    -- .1.2.2.2.2.2.2.2.1
    (c14x59.admits (Instr.send c14x58) = true ∧ c14x59.here.wait = Wait.ready ∧ c14x59.sound = true ∧ c14x58.a.toNat < 28 ∧ c14x58.b.toNat < 28 ∧ c14x58.c.toNat < 28 ∧ c14x58.d.toNat < 28 ∧ c14x59.here.guest = false ∧ (BitVec.toNat (c14x59.hereW c14x58.c) % 16 = 0 ∧ 16 ≤ BitVec.toNat (c14x59.hereW c14x58.c) ∧ BitVec.toNat (c14x59.hereW c14x58.c) ≤ 2 ^ 32 - 16) ∧ (if c14x58.aux8.getLsbD 7 = true then BitVec.toNat (c14x59.hereW c14x58.b) < 64 ∧ (c14x59.handle c14x59.curCid (BitVec.toNat (c14x59.hereW c14x58.b))).state = HState.full ∧ (c14x59.handle c14x59.curCid (BitVec.toNat (c14x59.hereW c14x58.b))).pins = 0 ∧ BitVec.toNat (c14x59.hereW c14x58.c) ≤ (c14x59.handle c14x59.curCid (BitVec.toNat (c14x59.hereW c14x58.b))).len ∧ (c14x59.handle c14x59.curCid (BitVec.toNat (c14x59.hereW c14x58.b))).base + (c14x59.handle c14x59.curCid (BitVec.toNat (c14x59.hereW c14x58.b))).len ≤ 393216 else BitVec.toNat (c14x59.hereW c14x58.b) % 16 = 0 ∧ BitVec.toNat (c14x59.hereW c14x58.b) + BitVec.toNat (c14x59.hereW c14x58.c) ≤ 393216 ∧ c14x59.scratchLocked c14x59.curCid (BitVec.toNat (c14x59.hereW c14x58.b)) (BitVec.toNat (c14x59.hereW c14x58.c)) false = false) ∧ BitVec.toNat (c14x59.hereW c14x58.a) % 16 = 0 ∧ (if c14x58.aux8.getLsbD 6 = true then BitVec.toNat (c14x59.hereW c14x58.a) < 2 ^ 19 ∧ c14x59.scratchLocked c14x59.curCid ((c14x59.handle c14x59.curCid (c14x58.aux8.toNat % 64)).base + BitVec.toNat (c14x59.hereW c14x58.a)) (BitVec.toNat (c14x59.hereW c14x58.c)) true = false else BitVec.toNat (c14x59.hereW c14x58.a) + BitVec.toNat (c14x59.hereW c14x58.c) ≤ 393216 ∧ c14x59.scratchLocked c14x59.curCid (BitVec.toNat (c14x59.hereW c14x58.a)) (BitVec.toNat (c14x59.hereW c14x58.c)) true = false) ∧ c14x59.livePitchUp c14x59.curCid c14x59.here.region = true ∧ 4 < c14x58.aux32.toNat / 65536 % 256) := by
  refine ⟨?_, ?_⟩ <;> decide +kernel

theorem witness_TransfersPosted_3 :
    -- .1.2.2.2.2.2.2.1
    (c14x61.admits (Instr.send c14x60) = true ∧ c14x61.here.wait = Wait.ready ∧ c14x61.sound = true ∧ c14x60.a.toNat < 28 ∧ c14x60.b.toNat < 28 ∧ c14x60.c.toNat < 28 ∧ c14x60.d.toNat < 28 ∧ c14x61.here.guest = false ∧ (BitVec.toNat (c14x61.hereW c14x60.c) % 16 = 0 ∧ 16 ≤ BitVec.toNat (c14x61.hereW c14x60.c) ∧ BitVec.toNat (c14x61.hereW c14x60.c) ≤ 2 ^ 32 - 16) ∧ (if c14x60.aux8.getLsbD 7 = true then BitVec.toNat (c14x61.hereW c14x60.b) < 64 ∧ (c14x61.handle c14x61.curCid (BitVec.toNat (c14x61.hereW c14x60.b))).state = HState.full ∧ (c14x61.handle c14x61.curCid (BitVec.toNat (c14x61.hereW c14x60.b))).pins = 0 ∧ BitVec.toNat (c14x61.hereW c14x60.c) ≤ (c14x61.handle c14x61.curCid (BitVec.toNat (c14x61.hereW c14x60.b))).len ∧ (c14x61.handle c14x61.curCid (BitVec.toNat (c14x61.hereW c14x60.b))).base + (c14x61.handle c14x61.curCid (BitVec.toNat (c14x61.hereW c14x60.b))).len ≤ 393216 else BitVec.toNat (c14x61.hereW c14x60.b) % 16 = 0 ∧ BitVec.toNat (c14x61.hereW c14x60.b) + BitVec.toNat (c14x61.hereW c14x60.c) ≤ 393216 ∧ c14x61.scratchLocked c14x61.curCid (BitVec.toNat (c14x61.hereW c14x60.b)) (BitVec.toNat (c14x61.hereW c14x60.c)) false = false) ∧ BitVec.toNat (c14x61.hereW c14x60.a) % 16 = 0 ∧ (if c14x60.aux8.getLsbD 6 = true then BitVec.toNat (c14x61.hereW c14x60.a) < 2 ^ 19 ∧ c14x61.scratchLocked c14x61.curCid ((c14x61.handle c14x61.curCid (c14x60.aux8.toNat % 64)).base + BitVec.toNat (c14x61.hereW c14x60.a)) (BitVec.toNat (c14x61.hereW c14x60.c)) true = false else BitVec.toNat (c14x61.hereW c14x60.a) + BitVec.toNat (c14x61.hereW c14x60.c) ≤ 393216 ∧ c14x61.scratchLocked c14x61.curCid (BitVec.toNat (c14x61.hereW c14x60.a)) (BitVec.toNat (c14x61.hereW c14x60.c)) true = false) ∧ c14x61.livePitchUp c14x61.curCid c14x61.here.region = false) ∧
    -- .1.2.2.2.2.2.1
    (lkd14.admits (Instr.send c14x62) = true ∧ lkd14.here.wait = Wait.ready ∧ lkd14.sound = true ∧ c14x62.a.toNat < 28 ∧ c14x62.b.toNat < 28 ∧ c14x62.c.toNat < 28 ∧ c14x62.d.toNat < 28 ∧ lkd14.here.guest = false ∧ (BitVec.toNat (lkd14.hereW c14x62.c) % 16 = 0 ∧ 16 ≤ BitVec.toNat (lkd14.hereW c14x62.c) ∧ BitVec.toNat (lkd14.hereW c14x62.c) ≤ 2 ^ 32 - 16) ∧ (if c14x62.aux8.getLsbD 7 = true then BitVec.toNat (lkd14.hereW c14x62.b) < 64 ∧ (lkd14.handle lkd14.curCid (BitVec.toNat (lkd14.hereW c14x62.b))).state = HState.full ∧ (lkd14.handle lkd14.curCid (BitVec.toNat (lkd14.hereW c14x62.b))).pins = 0 ∧ BitVec.toNat (lkd14.hereW c14x62.c) ≤ (lkd14.handle lkd14.curCid (BitVec.toNat (lkd14.hereW c14x62.b))).len ∧ (lkd14.handle lkd14.curCid (BitVec.toNat (lkd14.hereW c14x62.b))).base + (lkd14.handle lkd14.curCid (BitVec.toNat (lkd14.hereW c14x62.b))).len ≤ 393216 else BitVec.toNat (lkd14.hereW c14x62.b) % 16 = 0 ∧ BitVec.toNat (lkd14.hereW c14x62.b) + BitVec.toNat (lkd14.hereW c14x62.c) ≤ 393216 ∧ lkd14.scratchLocked lkd14.curCid (BitVec.toNat (lkd14.hereW c14x62.b)) (BitVec.toNat (lkd14.hereW c14x62.c)) false = false) ∧ BitVec.toNat (lkd14.hereW c14x62.a) % 16 = 0 ∧ c14x62.aux8.getLsbD 6 = true ∧ BitVec.toNat (lkd14.hereW c14x62.a) < 2 ^ 19 ∧ lkd14.scratchLocked lkd14.curCid ((lkd14.handle lkd14.curCid (c14x62.aux8.toNat % 64)).base + BitVec.toNat (lkd14.hereW c14x62.a)) (BitVec.toNat (lkd14.hereW c14x62.c)) true = true) := by
  refine ⟨?_, ?_⟩ <;> decide +kernel

theorem witness_TransfersPosted_4 :
    -- .1.2.2.2.2.1
    (c14x64.admits (Instr.send c14x63) = true ∧ c14x64.here.wait = Wait.ready ∧ c14x64.sound = true ∧ c14x63.a.toNat < 28 ∧ c14x63.b.toNat < 28 ∧ c14x63.c.toNat < 28 ∧ c14x63.d.toNat < 28 ∧ c14x64.here.guest = false ∧ (BitVec.toNat (c14x64.hereW c14x63.c) % 16 = 0 ∧ 16 ≤ BitVec.toNat (c14x64.hereW c14x63.c) ∧ BitVec.toNat (c14x64.hereW c14x63.c) ≤ 2 ^ 32 - 16) ∧ (if c14x63.aux8.getLsbD 7 = true then BitVec.toNat (c14x64.hereW c14x63.b) < 64 ∧ (c14x64.handle c14x64.curCid (BitVec.toNat (c14x64.hereW c14x63.b))).state = HState.full ∧ (c14x64.handle c14x64.curCid (BitVec.toNat (c14x64.hereW c14x63.b))).pins = 0 ∧ BitVec.toNat (c14x64.hereW c14x63.c) ≤ (c14x64.handle c14x64.curCid (BitVec.toNat (c14x64.hereW c14x63.b))).len ∧ (c14x64.handle c14x64.curCid (BitVec.toNat (c14x64.hereW c14x63.b))).base + (c14x64.handle c14x64.curCid (BitVec.toNat (c14x64.hereW c14x63.b))).len ≤ 393216 else BitVec.toNat (c14x64.hereW c14x63.b) % 16 = 0 ∧ BitVec.toNat (c14x64.hereW c14x63.b) + BitVec.toNat (c14x64.hereW c14x63.c) ≤ 393216 ∧ c14x64.scratchLocked c14x64.curCid (BitVec.toNat (c14x64.hereW c14x63.b)) (BitVec.toNat (c14x64.hereW c14x63.c)) false = false) ∧ BitVec.toNat (c14x64.hereW c14x63.a) % 16 ≠ 0) ∧
    -- .1.2.2.2.1
    (c14x66.admits (Instr.send c14x65) = true ∧ c14x66.here.wait = Wait.ready ∧ c14x66.sound = true ∧ c14x65.a.toNat < 28 ∧ c14x65.b.toNat < 28 ∧ c14x65.c.toNat < 28 ∧ c14x65.d.toNat < 28 ∧ c14x66.here.guest = false ∧ (BitVec.toNat (c14x66.hereW c14x65.c) % 16 = 0 ∧ 16 ≤ BitVec.toNat (c14x66.hereW c14x65.c) ∧ BitVec.toNat (c14x66.hereW c14x65.c) ≤ 2 ^ 32 - 16) ∧ c14x65.aux8.getLsbD 7 = false ∧ BitVec.toNat (c14x66.hereW c14x65.b) % 16 ≠ 0) := by
  refine ⟨?_, ?_⟩ <;> decide +kernel

theorem witness_TransfersPosted_5 :
    -- .1.2.2.1
    (c14x68.admits (Instr.send c14x67) = true ∧ c14x68.here.wait = Wait.ready ∧ c14x68.sound = true ∧ c14x67.a.toNat < 28 ∧ c14x67.b.toNat < 28 ∧ c14x67.c.toNat < 28 ∧ c14x67.d.toNat < 28 ∧ c14x68.here.guest = false ∧ (BitVec.toNat (c14x68.hereW c14x67.c) % 16 = 0 ∧ 16 ≤ BitVec.toNat (c14x68.hereW c14x67.c) ∧ BitVec.toNat (c14x68.hereW c14x67.c) ≤ 2 ^ 32 - 16) ∧ c14x67.aux8.getLsbD 7 = true ∧ BitVec.toNat (c14x68.hereW c14x67.b) < 64 ∧ (c14x68.handle c14x68.curCid (BitVec.toNat (c14x68.hereW c14x67.b))).state = HState.full ∧ (c14x68.handle c14x68.curCid (BitVec.toNat (c14x68.hereW c14x67.b))).pins = 0 ∧ (c14x68.handle c14x68.curCid (BitVec.toNat (c14x68.hereW c14x67.b))).len < BitVec.toNat (c14x68.hereW c14x67.c)) ∧
    -- .1.2.1
    (c14x70.admits (Instr.send c14x69) = true ∧ c14x70.here.wait = Wait.ready ∧ c14x70.sound = true ∧ c14x69.a.toNat < 28 ∧ c14x69.b.toNat < 28 ∧ c14x69.c.toNat < 28 ∧ c14x69.d.toNat < 28 ∧ c14x70.here.guest = false ∧ (BitVec.toNat (c14x70.hereW c14x69.c) % 16 = 0 ∧ 16 ≤ BitVec.toNat (c14x70.hereW c14x69.c) ∧ BitVec.toNat (c14x70.hereW c14x69.c) ≤ 2 ^ 32 - 16) ∧ c14x69.aux8.getLsbD 7 = true ∧ (64 ≤ BitVec.toNat (c14x70.hereW c14x69.b) ∨ (c14x70.handle c14x70.curCid (BitVec.toNat (c14x70.hereW c14x69.b))).state ≠ HState.full ∨ 0 < (c14x70.handle c14x70.curCid (BitVec.toNat (c14x70.hereW c14x69.b))).pins)) := by
  refine ⟨?_, ?_⟩ <;> decide +kernel

theorem witness_TransfersPosted_6 :
    -- .1.1
    (c14x72.admits (Instr.send c14x71) = true ∧ c14x72.here.wait = Wait.ready ∧ c14x72.sound = true ∧ c14x71.a.toNat < 28 ∧ c14x71.b.toNat < 28 ∧ c14x71.c.toNat < 28 ∧ c14x71.d.toNat < 28 ∧ c14x72.here.guest = false ∧ (¬(BitVec.toNat (c14x72.hereW c14x71.c) % 16 = 0 ∧ 16 ≤ BitVec.toNat (c14x72.hereW c14x71.c) ∧ BitVec.toNat (c14x72.hereW c14x71.c) ≤ 2 ^ 32 - 16))) ∧
    -- .2.1.2.2.2.2.2
    (c14x73.admits (Instr.gather g) = true ∧ c14x73.here.wait = Wait.ready ∧ c14x73.sound = true ∧ g.a.toNat < 28 ∧ g.b.toNat < 28 ∧ g.c.toNat < 28 ∧ c14x73.here.guest = false ∧ BitVec.toNat (c14x73.hereW g.c) < 65536 ∧ c14x73.scratchLocked c14x73.curCid (16384 + 64 * (g.aux32.toNat % 64)) 64 false = false ∧ (lastHere c14x73 (g.aux32.toNat % 64)).valid = true ∧ ((lastHere c14x73 (g.aux32.toNat % 64)).hnd = false ∧ (lastHere c14x73 (g.aux32.toNat % 64)).extent 0 * elementBits (lastHere c14x73 (g.aux32.toNat % 64)).etype % 128 = 0 ∧ BitVec.toNat ((lastHere c14x73 (g.aux32.toNat % 64)).stride 1) % 16 = 0 ∧ BitVec.toNat (if c14x73.hereW g.a = 0 then (lastHere c14x73 (g.aux32.toNat % 64)).base else c14x73.hereW g.a) % 16 = 0) ∧ (c14x73.handle c14x73.curCid (g.aux8.toNat % 64)).state = HState.filling ∧ BitVec.toNat (c14x73.hereW g.c) * (lastHere c14x73 (g.aux32.toNat % 64)).rowBytes ≤ (c14x73.handle c14x73.curCid (g.aux8.toNat % 64)).len ∧ BitVec.toNat (c14x73.hereW g.b) % 16 = 0 ∧ 20480 ≤ BitVec.toNat (c14x73.hereW g.b) ∧ BitVec.toNat (c14x73.hereW g.b) + 4 * BitVec.toNat (c14x73.hereW g.c) ≤ 393216 ∧ (∀ (p : Transfer), p ∈ c14x73.transfers → p.id ≠ c14x73.serial)) := by
  refine ⟨?_, ?_⟩ <;> decide +kernel

theorem witness_TransfersPosted_7 :
    -- .2.1.2.2.2.2.1
    (c14x75.admits (Instr.gather g) = true ∧ c14x75.here.wait = Wait.ready ∧ c14x75.sound = true ∧ c14x75.here.guest = false ∧ BitVec.toNat (c14x75.hereW g.c) < 65536 ∧ c14x75.scratchLocked c14x75.curCid (16384 + 64 * (g.aux32.toNat % 64)) 64 false = false ∧ (lastHere c14x75 (g.aux32.toNat % 64)).valid = true ∧ ((lastHere c14x75 (g.aux32.toNat % 64)).hnd = false ∧ (lastHere c14x75 (g.aux32.toNat % 64)).extent 0 * elementBits (lastHere c14x75 (g.aux32.toNat % 64)).etype % 128 = 0 ∧ BitVec.toNat ((lastHere c14x75 (g.aux32.toNat % 64)).stride 1) % 16 = 0 ∧ BitVec.toNat (if c14x75.hereW g.a = 0 then (lastHere c14x75 (g.aux32.toNat % 64)).base else c14x75.hereW g.a) % 16 = 0) ∧ (c14x75.handle c14x75.curCid (g.aux8.toNat % 64)).state = HState.filling ∧ BitVec.toNat (c14x75.hereW g.c) * (lastHere c14x75 (g.aux32.toNat % 64)).rowBytes ≤ (c14x75.handle c14x75.curCid (g.aux8.toNat % 64)).len ∧ (BitVec.toNat (c14x75.hereW g.b) % 16 ≠ 0 ∨ BitVec.toNat (c14x75.hereW g.b) < 20480 ∨ 393216 < BitVec.toNat (c14x75.hereW g.b) + 4 * BitVec.toNat (c14x75.hereW g.c))) ∧
    -- .2.1.2.2.2.1
    (c14x76.admits (Instr.gather g) = true ∧ c14x76.here.wait = Wait.ready ∧ c14x76.sound = true ∧ c14x76.here.guest = false ∧ BitVec.toNat (c14x76.hereW g.c) < 65536 ∧ c14x76.scratchLocked c14x76.curCid (16384 + 64 * (g.aux32.toNat % 64)) 64 false = false ∧ (lastHere c14x76 (g.aux32.toNat % 64)).valid = true ∧ ((lastHere c14x76 (g.aux32.toNat % 64)).hnd = false ∧ (lastHere c14x76 (g.aux32.toNat % 64)).extent 0 * elementBits (lastHere c14x76 (g.aux32.toNat % 64)).etype % 128 = 0 ∧ BitVec.toNat ((lastHere c14x76 (g.aux32.toNat % 64)).stride 1) % 16 = 0 ∧ BitVec.toNat (if c14x76.hereW g.a = 0 then (lastHere c14x76 (g.aux32.toNat % 64)).base else c14x76.hereW g.a) % 16 = 0) ∧ (c14x76.handle c14x76.curCid (g.aux8.toNat % 64)).state = HState.filling ∧ (c14x76.handle c14x76.curCid (g.aux8.toNat % 64)).len < BitVec.toNat (c14x76.hereW g.c) * (lastHere c14x76 (g.aux32.toNat % 64)).rowBytes) ∧
    -- .2.1.2.2.1
    (c14x77.admits (Instr.gather g) = true ∧ c14x77.here.wait = Wait.ready ∧ c14x77.sound = true ∧ c14x77.here.guest = false ∧ BitVec.toNat (c14x77.hereW g.c) < 65536 ∧ c14x77.scratchLocked c14x77.curCid (16384 + 64 * (g.aux32.toNat % 64)) 64 false = false ∧ (lastHere c14x77 (g.aux32.toNat % 64)).valid = true ∧ ((lastHere c14x77 (g.aux32.toNat % 64)).hnd = false ∧ (lastHere c14x77 (g.aux32.toNat % 64)).extent 0 * elementBits (lastHere c14x77 (g.aux32.toNat % 64)).etype % 128 = 0 ∧ BitVec.toNat ((lastHere c14x77 (g.aux32.toNat % 64)).stride 1) % 16 = 0 ∧ BitVec.toNat (if c14x77.hereW g.a = 0 then (lastHere c14x77 (g.aux32.toNat % 64)).base else c14x77.hereW g.a) % 16 = 0) ∧ (c14x77.handle c14x77.curCid (g.aux8.toNat % 64)).state ≠ HState.filling) := by
  refine ⟨?_, ?_, ?_⟩ <;> decide +kernel

theorem witness_TransfersPosted_8 :
    -- .2.1.2.1
    (c14x78.admits (Instr.gather g) = true ∧ c14x78.here.wait = Wait.ready ∧ c14x78.sound = true ∧ c14x78.here.guest = false ∧ BitVec.toNat (c14x78.hereW g.c) < 65536 ∧ c14x78.scratchLocked c14x78.curCid (16384 + 64 * (g.aux32.toNat % 64)) 64 false = false ∧ ((lastHere c14x78 (g.aux32.toNat % 64)).valid = false ∨ ¬((lastHere c14x78 (g.aux32.toNat % 64)).hnd = false ∧ (lastHere c14x78 (g.aux32.toNat % 64)).extent 0 * elementBits (lastHere c14x78 (g.aux32.toNat % 64)).etype % 128 = 0 ∧ BitVec.toNat ((lastHere c14x78 (g.aux32.toNat % 64)).stride 1) % 16 = 0 ∧ BitVec.toNat (if c14x78.hereW g.a = 0 then (lastHere c14x78 (g.aux32.toNat % 64)).base else c14x78.hereW g.a) % 16 = 0))) ∧
    -- .2.2.1.2.2.2
    (ownUnits c14x80 (c14x80.hereW c14x79.a) 24576 8 false ∧ c14x80.admits (Instr.rscat c14x79) = true ∧ c14x80.here.wait = Wait.ready ∧ c14x80.sound = true ∧ c14x79.a.toNat < 28 ∧ BitVec.toNat (c14x80.hereW c14x79.a) % 128 = 0 ∧ planFault (ownBytes c14x80 24576 128) = none ∧ (tfind (c14x80.die (dieOf c14x80.curCid)).plans (fieldOf (ownBytes c14x80 24576 128) 2 1)).isSome = false ∧ (∀ (p : Transfer), p ∈ c14x80.transfers → p.id ≠ c14x80.serial)) ∧
    -- .2.2.1.2.2.1
    (ownUnits c14x84 (c14x84.hereW c14x83.a) 24576 8 false ∧ c14x84.admits (Instr.rscat c14x83) = true ∧ c14x84.here.wait = Wait.ready ∧ c14x84.sound = true ∧ c14x83.a.toNat < 28 ∧ BitVec.toNat (c14x84.hereW c14x83.a) % 128 = 0 ∧ planFault (ownBytes c14x84 24576 128) = none ∧ (tfind (c14x84.die (dieOf c14x84.curCid)).plans (fieldOf (ownBytes c14x84 24576 128) 2 1)).isSome = true) ∧
    -- .2.2.1.2.1
    (ownUnits c14x86 (c14x86.hereW c14x85.a) 24576 8 false ∧ c14x86.admits (Instr.rscat c14x85) = true ∧ c14x86.here.wait = Wait.ready ∧ c14x86.sound = true ∧ c14x85.a.toNat < 28 ∧ BitVec.toNat (c14x86.hereW c14x85.a) % 128 = 0 ∧ planFault (ownBytes c14x86 24576 128) = some 0) := by
  refine ⟨
    by decide +kernel,
    ⟨by delta ownUnits; delta State.ownRange; delta State.ownAddress; decide +kernel, by decide +kernel⟩,
    ⟨by delta ownUnits; delta State.ownRange; delta State.ownAddress; decide +kernel, by decide +kernel⟩,
    ⟨by delta ownUnits; delta State.ownRange; delta State.ownAddress; decide +kernel, by decide +kernel⟩⟩

theorem witness_TransfersPosted_9 :
    -- .2.2.2.2.2.2
    (ownUnits c14x88 (c14x88.hereW c14x87.a) 24576 4 false ∧ c14x88.admits (Instr.vdec c14x87) = true ∧ c14x88.here.wait = Wait.ready ∧ c14x88.sound = true ∧ c14x87.a.toNat < 28 ∧ c14x88.here.guest = false ∧ BitVec.toNat (c14x88.hereW c14x87.a) % 64 = 0 ∧ commandFault (ownBytes c14x88 24576 64) = none ∧ c14x88.scratchLocked c14x88.curCid (fieldOf (ownBytes c14x88 24576 64) 24 8) (8 * fieldOf (ownBytes c14x88 24576 64) 4 2) false = false ∧ (∀ (e : Nat), e ∈ List.map (fun (k : Nat) => leNat (ownBytes c14x88 (fieldOf (ownBytes c14x88 24576 64) 24 8 + 8 * k) 8)) (List.range (fieldOf (ownBytes c14x88 24576 64) 4 2)) → e = e % 2048 + e / 65536 % 64 * 65536) ∧ (∀ (p : Transfer), p ∈ c14x88.transfers → p.id ≠ c14x88.serial)) ∧
    -- .2.2.2.2.2.1
    (ownUnits c14x90 (c14x90.hereW c14x89.a) 24576 4 false ∧ c14x90.admits (Instr.vdec c14x89) = true ∧ c14x90.here.wait = Wait.ready ∧ c14x90.sound = true ∧ c14x89.a.toNat < 28 ∧ c14x90.here.guest = false ∧ BitVec.toNat (c14x90.hereW c14x89.a) % 64 = 0 ∧ commandFault (ownBytes c14x90 24576 64) = none ∧ c14x90.scratchLocked c14x90.curCid (fieldOf (ownBytes c14x90 24576 64) 24 8) (8 * fieldOf (ownBytes c14x90 24576 64) 4 2) false = false ∧ (∃ (e : Nat), e ∈ List.map (fun (k : Nat) => leNat (ownBytes c14x90 (fieldOf (ownBytes c14x90 24576 64) 24 8 + 8 * k) 8)) (List.range (fieldOf (ownBytes c14x90 24576 64) 4 2)) ∧ e ≠ e % 2048 + e / 65536 % 64 * 65536)) ∧
    -- .2.2.2.2.1
    (ownUnits c14x92 (c14x92.hereW c14x91.a) 24576 4 false ∧ c14x92.admits (Instr.vdec c14x91) = true ∧ c14x92.here.wait = Wait.ready ∧ c14x92.sound = true ∧ c14x91.a.toNat < 28 ∧ c14x92.here.guest = false ∧ BitVec.toNat (c14x92.hereW c14x91.a) % 64 = 0 ∧ commandFault (ownBytes c14x92 24576 64) = some 4) := by
  refine ⟨
    ⟨by delta ownUnits; delta State.ownRange; delta State.ownAddress; decide +kernel, by decide +kernel⟩,
    ⟨by delta ownUnits; delta State.ownRange; delta State.ownAddress; decide +kernel, by decide +kernel⟩,
    ⟨by delta ownUnits; delta State.ownRange; delta State.ownAddress; decide +kernel, by decide +kernel⟩⟩

theorem witness_TransfersPosted_10 :
    -- .2.2.2.1
    (c14x94.admits (Instr.vdec c14x93) = true ∧ c14x94.here.wait = Wait.ready ∧ c14x94.sound = true ∧ c14x93.a.toNat < 28 ∧ c14x94.here.guest = false ∧ BitVec.toNat (c14x94.hereW c14x93.a) % 64 ≠ 0) ∧
    -- .2.1.1
    (c14x95.admits (Instr.gather g) = true ∧ c14x95.here.wait = Wait.ready ∧ c14x95.sound = true ∧ c14x95.here.guest = false ∧ 65536 ≤ BitVec.toNat (c14x95.hereW g.c)) ∧
    -- .2.2.1.1
    (c14x97.admits (Instr.rscat c14x96) = true ∧ c14x97.here.wait = Wait.ready ∧ c14x97.sound = true ∧ c14x96.a.toNat < 28 ∧ BitVec.toNat (c14x97.hereW c14x96.a) % 128 ≠ 0) := by
  refine ⟨?_, ?_, ?_⟩ <;> decide +kernel

end Sys2Proof.Tests.T14

namespace Sys2Proof.Tests.T15
open Sys2Proof.Machine Sys2Proof.Claims

def XX (d a b c et aux8 aux32 : Nat) : XF := ⟨0,BitVec.ofNat 5 d,BitVec.ofNat 5 a,BitVec.ofNat 5 b,BitVec.ofNat 5 c,BitVec.ofNat 4 et,0,false,0,BitVec.ofNat 8 aux8,BitVec.ofNat 32 aux32⟩
def w (n v : Nat) : List Host.Cell := by_ (8*n) ((List.range 8).map fun k => v / 2^(8*k) % 256)
def st (a b c : Nat) (extra : List Host.Cell := []) (d : Nat := 0): State := (small 0).modCore 1 fun k => { k with sp := w 1 a ++ w 2 b ++ w 3 c ++ w 4 d ++ by_ 576 [1,0,0,0,0xff] ++ by_ 608 [1] ++ by_ 616 [0x14] ++ extra }
def recd (off n tag damp resid k : Nat) : List Host.Cell := by_ off ([tag, n, damp % 256, damp / 256, 7,1,0,0] ++ (List.range 4).map (fun k => resid / 256^k % 256) ++ List.replicate 20 0 ++ (List.range 72).flatMap fun i => [0,0,(i*k) % 256, 0x3f])
def gs (a b d : Nat) (l : List Host.Cell := []) : State := st a b 3 l d
def gf := XX 4 1 2 0 0 1 4
def S0 := gs 0x5000 0x5140 0x5280
def S1 := gs 0x5008 0x5140 0x5280
def S2 := gs 0x5FFC0 0x5140 0x5280
def S3 := { gs 0x5000 0x5140 0x5280 with cycle := 5 }.modCluster 0 fun c => { c with locks := [{full := true, global := false, core := 1, region := 0, base := 0x5000, len := 16, hkind := 3, hidx := 20, holder := 20, since := 0}] }
def blk (a : Word) (n m : Nat) (w : Bool) : Word × Nat × Nat × Bool := (a, n, m, w)
def snd (a : Nat) (n' n tag damp : Nat) := gs a 0x5140 0 (recd 0x5140 n 3 0 0 5 ++ recd 0x5280 n' tag damp 5 9)
def po (r0 r1 : Nat) : State := gs 0x5000 0 0 (recd 0x5000 2 3 0 r0 3 ++ recd 0x5140 2 3 0 r1 5)
def sq (ins : Instr) (ad : List Nat) (gctl : Nat) (l : List Host.Cell) (b : Nat) : State × SfuReq :=
  let r : SfuReq := { id := 5, cid := 1, slot := 0, serial := 7, cycle := 3, ins := ins, inputs := { lanes := 0, a := BitVec.ofNat 128 gctl }, dest := .q 0, addrs := ad }
  ({ ((gs 0 0 0 l).modCluster 0 fun c => { c with sfu := [r] }).modSlot 1 0 fun x => { x with wait := .sfu 5 } with cycle := 9, obj := { a := 0, b := b } }, r)
def gx (aux8 aux32 : Nat) : XF := XX 4 1 2 0 0 aux8 aux32
def A1 := recd 0x5000 2 3 0 0 3 ++ recd 0x5140 2 3 0 0 5 ++ recd 0x5280 7 3 1 5 5
def t1 := sq (.gmschur (gx 0x11 0)) [0x5000, 0x5140, 0x5280] 0 A1 0
def t2 (sub : Bool) := sq (if sub then .gmsub (gx 1 0) else .gmadd (gx 1 0)) [0x5000, 0x5140, 0x5280] 0 A1 5
def recj (off k : Nat) : List Host.Cell := by_ off ((List.range 272).flatMap fun i => [0,0,(i*k) % 256, 0x3f])
def J1 := recj 0x5000 7 ++ recd 0x5480 2 3 0 0 5
def t3 (sub : Bool) := sq (if sub then .gmsubJ (gx 1 6) else .gmaddJ (gx 1 6)) [0x5000, 0x5480, 0x5800] 0 J1 5
def t4 (dl : Nat) := sq (.gmdamp (gx 2 dl)) [0x5000, 0x5140, 0x5280] 0 A1 5
def lk (t : List (Nat × Nat)) (i j : Nat) : Nat := ((t.find? fun p => p.fst == 8 * i + j).map (fun p => p.snd)).getD 0
def factor (M : Nat → Nat → Nat) (p thr : Nat) : List (Nat × Nat) :=
  (List.range p).foldl (fun t j =>
    let v := pivotOf M (lk t) j
    let v := if lowPivot M (lk t) thr j then thr else v
    let t := (9 * j, Gauss.sqrt v) :: t
    (List.range p).foldl (fun t i => if i ≤ j then t else (8 * i + j, divF f32 .rne (lessProducts (M i j) (lk t i) (lk t j) (List.range j)) (lk t j j)) :: t) t) []
/-- Symmetric blocks: a joint record of order 4 and a plain record of order 3, diagonally dominant. -/
def fw (x : Nat) : List Nat := [x % 256, x / 256 % 256, x / 65536 % 256, x / 16777216]
def mat (i j : Nat) : Nat := if i = j then 0x41100000 + 0x10000 * i else 0x3f800000 + 0x10000 * (i + j)
def JS (dg : Nat → Nat) : List Host.Cell := by_ 0x5000 ((List.range 16).flatMap fun i => fw (0x40000000 + 0x20000 * i)) ++ by_ 0x5040 ((List.range 64).flatMap fun k => fw (if k / 16 = k % 16 then dg (k / 16) else mat (k / 16) (k % 16)))
def S4 (dg : Nat → Nat) (gctl : Nat) := sq (.gmschur (gx 0x13 0)) [0x5000, 0, 0x5800] gctl (JS dg) 5
def lamS (dg : Nat → Nat) (i j : Nat) : Nat := spWord ((S4 dg 0).fst.core 1).sp (0x5040 + 64 * i + 4 * j)
def etaS (dg : Nat → Nat) (i : Nat) : Nat := spWord ((S4 dg 0).fst.core 1).sp (0x5000 + 4 * i)
def MS (dg : Nat → Nat) (i j : Nat) : Nat := lamS dg (2 + i) (2 + j)
def mS (M : Nat → Nat → Nat) (i : Nat) : Nat := match decodeF f32 (M i i) with | .fin _ m _ => m | _ => 0
def eS (M : Nat → Nat → Nat) (i : Nat) : Int := match decodeF f32 (M i i) with | .fin _ _ e => e | _ => 0
def thS (M : Nat → Nat → Nat) (i eps : Nat) : Nat := Nat.max (roundF f32 .rne (.fin false (mS M i) (eS M i - eps))) 1
def d0 (i : Nat) : Nat := 0x41100000 + 0x10000 * i
def LS (dg : Nat → Nat) (eps : Nat) := lk (factor (MS dg) 2 (thS (MS dg) 1 eps))
def WS (dg : Nat → Nat) (eps : Nat) : Nat → Nat → Nat := fun i c =>
  let L := LS dg eps
  let w0 := divF f32 .rne (lamS dg 2 c) (L 0 0)
  if i = 0 then w0 else divF f32 .rne (lessProducts (lamS dg 3 c) (L 1) (fun _ => w0) [0]) (L 1 1)
def zS (dg : Nat → Nat) (eps : Nat) : Nat → Nat := fun i =>
  let L := LS dg eps
  let w0 := divF f32 .rne (etaS dg 2) (L 0 0)
  if i = 0 then w0 else divF f32 .rne (lessProducts (etaS dg 3) (L 1) (fun _ => w0) [0]) (L 1 1)
/-- A last pivot that is too small: clamped under GCTL bit 8, singular without it. -/
def d1 (i : Nat) : Nat := if i = 2 then 0x49000000 else if i = 3 then 0x3e000000 else d0 i
def d2 (i : Nat) : Nat := if i = 3 then 0x7fc00000 else d0 i
def PS (dg : Nat → Nat) : List Host.Cell := by_ 0x5020 ((List.range 8).flatMap fun i => fw (0x40000000 + 0x20000 * i)) ++ by_ 0x5040 ((List.range 24).flatMap fun k => fw (if k / 8 = k % 8 then dg (k / 8) else mat (k / 8) (k % 8)))
def S5 (dg : Nat → Nat) (gctl : Nat) := sq (.gmmean (gx 2 0)) [0x5000, 0, 0x5800] gctl (PS dg) 5
def M5 (dg : Nat → Nat) (i j : Nat) : Nat := spWord ((S5 dg 0).fst.core 1).sp (0x5040 + 32 * i + 4 * j)
def e5 (dg : Nat → Nat) (i : Nat) : Nat := spWord ((S5 dg 0).fst.core 1).sp (0x5020 + 4 * i)
def L5 (dg : Nat → Nat) (k eps : Nat) := lk (factor (M5 dg) 3 (thS (M5 dg) k eps))
def y5 (dg : Nat → Nat) (k eps : Nat) : List (Nat × Nat) := (List.range 3).foldl (fun t i => (i, divF f32 .rne (lessProducts (e5 dg i) (L5 dg k eps i) (lk t 0) (List.range i)) (L5 dg k eps i i)) :: t) []
def m5 (dg : Nat → Nat) (k eps : Nat) : List (Nat × Nat) := [2, 1, 0].foldl (fun t i => (i, divF f32 .rne (lessProducts (lk (y5 dg k eps) 0 i) (fun x => L5 dg k eps x i) (lk t 0) (rangeFrom (i + 1) (2 - i))) (L5 dg k eps i i)) :: t) []
def d3 (i : Nat) : Nat := if i = 0 then 0x49000000 else if i = 1 then 0x3e000000 else d0 i
def d4 (_ : Nat) : Nat := 0x80000000

def c15x0 : State := (snd 0x5280 2 2 3 0x4000)
def c15x4 : State := (snd 0x5280 2 9 64 0)
def c15x5 : State := (snd 0x5281 2 9 64 0)
def c15x6 : State := (snd (2^55 + 2 * 2^19 + 0x5280) 2 3 64 0)
def c15x7 : State := (po 0x3f800000 0x7fc00000)
def c15x9 : State := (po 0x80000000 0xbf800000)
def c15x10 : State := (t2 true).fst
def c15x11 : SfuReq := (t2 true).snd
def c15x14 : State := (t3 true).fst
def c15x15 : SfuReq := (t3 true).snd
def c15x18 : State := (t4 0x4001).fst
def c15x19 : SfuReq := (t4 0x4001).snd
def c15x20 : XF := (gx 2 0x4001)
def c15x21 : State := (S4 d0 20).fst
def c15x22 : SfuReq := (S4 d0 20).snd
def c15x23 : Int := (eS (MS d0) 1)
def c15x27 : State := (S4 d1 0x003).fst
def c15x28 : SfuReq := (S4 d1 0x003).snd
def c15x29 : Int := (eS (MS d1) 0)
def c15x30 : State := (S4 d2 0x003).fst
def c15x31 : SfuReq := (S4 d2 0x003).snd
def c15x32 : State := (S5 d0 20).fst
def c15x33 : SfuReq := (S5 d0 20).snd
def c15x34 : Int := (eS (M5 d0) 2)
def c15x38 : State := (S5 d3 3).fst
def c15x39 : SfuReq := (S5 d3 3).snd
def c15x40 : Int := (eS (M5 d3) 0)
def c15x41 : State := (S5 d4 3).fst
def c15x42 : SfuReq := (S5 d4 3).snd

theorem witness_GaussianMessages_1 :
    -- .1.2
    ((∀ (q : Word × Nat × Nat × Bool), q ∈ (Instr.gmadd gf, [(20480, 64, 320, false), (20800, 64, 320, false), (21120, 64, 320, true)], [20480, 20800, 21120], false).snd.fst → gaussGood S0 q.fst q.snd.fst q.snd.snd.fst q.snd.snd.snd) ∧ S0.sound = true ∧ gf.a.toNat < 28 ∧ gf.b.toNat < 28 ∧ gf.d.toNat < 28 ∧ S0.here.wait = Wait.ready ∧ (Instr.gmadd gf, [(20480, 64, 320, false), (20800, 64, 320, false), (21120, 64, 320, true)], [20480, 20800, 21120], false) ∈ gaussRequests S0 gf ∧ S0.admits (Instr.gmadd gf, [(20480, 64, 320, false), (20800, 64, 320, false), (21120, 64, 320, true)], [20480, 20800, 21120], false).fst = true) ∧
    -- .2.1.2.1.2
    (c15x0.Settled c15x0.curCid ∧ gaussGood c15x0 (c15x0.hereW gf.b) 64 320 false ∧ c15x0.admits (Instr.gmsend gf) = true ∧ c15x0.here.wait = Wait.ready ∧ c15x0.sound = true ∧ c15x0.here.guest = false ∧ BitVec.toNat (c15x0.hereW gf.a) = 21120 ∧ 21120 % 64 = 0 ∧ 21120 + 320 ≤ 393216 ∧ c15x0.scratchLocked c15x0.curCid 21120 320 true = false ∧ 1 ≤ BitVec.toNat (c15x0.spByte c15x0.curCid (BitVec.toNat (c15x0.hereW gf.b) + 1)) ∧ BitVec.toNat (c15x0.spByte c15x0.curCid (BitVec.toNat (c15x0.hereW gf.b) + 1)) ≤ 8 ∧ c15x0.hereCore.sp.wf = true ∧ c15x0.unwritten c15x0.curCid 21120 320 = true ∧ c15x0.unwatched (Home.scratch c15x0.curCid) 21120 320 = true) ∧
    -- .2.1.2.1.1
    (c15x4.Settled c15x4.curCid ∧ gaussGood c15x4 (c15x4.hereW gf.b) 64 320 false ∧ c15x4.admits (Instr.gmsend gf) = true ∧ c15x4.here.wait = Wait.ready ∧ c15x4.sound = true ∧ c15x4.here.guest = false ∧ BitVec.toNat (c15x4.hereW gf.a) = 21120 ∧ c15x4.scratchLocked c15x4.curCid 21120 320 true = false ∧ (BitVec.toNat (c15x4.spByte c15x4.curCid (BitVec.toNat (c15x4.hereW gf.b) + 1)) < 1 ∨ 8 < BitVec.toNat (c15x4.spByte c15x4.curCid (BitVec.toNat (c15x4.hereW gf.b) + 1)))) := by
  refine ⟨
    ⟨by delta gaussGood; decide +kernel, by decide +kernel⟩,
    ⟨settled_of (by decide +kernel), by delta gaussGood; decide +kernel, by decide +kernel⟩,
    ⟨settled_of (by decide +kernel), by delta gaussGood; decide +kernel, by decide +kernel⟩⟩

theorem witness_GaussianMessages_2 :
    -- .2.1.1
    (c15x5.Settled c15x5.curCid ∧ c15x5.admits (Instr.gmsend gf) = true ∧ c15x5.here.wait = Wait.ready ∧ c15x5.sound = true ∧ c15x5.here.guest = false ∧ BitVec.toNat (c15x5.hereW gf.a) % 64 ≠ 0) ∧
    -- .2.1.2.2
    (c15x6.Settled c15x6.curCid ∧ gaussGood c15x6 (c15x6.hereW gf.b) 64 320 false ∧ c15x6.admits (Instr.gmsend gf) = true ∧ c15x6.here.wait = Wait.ready ∧ c15x6.sound = true ∧ c15x6.here.guest = false ∧ BitVec.toNat (c15x6.hereW gf.a) = 2 ^ 55 + 2 * 2 ^ 19 + 21120 ∧ 2 < 2048 ∧ 2 ≠ c15x6.curCid ∧ 1 ≤ BitVec.toNat (c15x6.spByte c15x6.curCid (BitVec.toNat (c15x6.hereW gf.b) + 1)) ∧ BitVec.toNat (c15x6.spByte c15x6.curCid (BitVec.toNat (c15x6.hereW gf.b) + 1)) ≤ 8) := by
  refine ⟨
    ⟨settled_of (by decide +kernel), by decide +kernel⟩,
    ⟨settled_of (by decide +kernel), by delta gaussGood; decide +kernel, by decide +kernel⟩⟩

theorem witness_GaussianMessages_3 :
    -- .2.2.2.2
    (gaussGood c15x7 (c15x7.hereW gf.a) 64 (320 * (gf.aux8.toNat % 64 + 1)) true ∧ (∀ (j : Nat), 1 < j → j < gf.aux8.toNat % 64 + 1 → (fun (i : Nat) => if (decodeF f32 ((fun (i : Nat) => spWord c15x7.hereCore.sp (BitVec.toNat (c15x7.hereW gf.a) + 320 * i + 8)) i)).isNan = true then 2 ^ 31 else if (fun (i : Nat) => spWord c15x7.hereCore.sp (BitVec.toNat (c15x7.hereW gf.a) + 320 * i + 8)) i < 2 ^ 31 then (fun (i : Nat) => spWord c15x7.hereCore.sp (BitVec.toNat (c15x7.hereW gf.a) + 320 * i + 8)) i else 0) j ≤ (fun (i : Nat) => if (decodeF f32 ((fun (i : Nat) => spWord c15x7.hereCore.sp (BitVec.toNat (c15x7.hereW gf.a) + 320 * i + 8)) i)).isNan = true then 2 ^ 31 else if (fun (i : Nat) => spWord c15x7.hereCore.sp (BitVec.toNat (c15x7.hereW gf.a) + 320 * i + 8)) i < 2 ^ 31 then (fun (i : Nat) => spWord c15x7.hereCore.sp (BitVec.toNat (c15x7.hereW gf.a) + 320 * i + 8)) i else 0) 1) ∧ c15x7.admits (Instr.gmpoll gf) = true ∧ c15x7.here.wait = Wait.ready ∧ c15x7.sound = true ∧ 1 < gf.aux8.toNat % 64 + 1 ∧ (0 < (fun (i : Nat) => if (decodeF f32 ((fun (i : Nat) => spWord c15x7.hereCore.sp (BitVec.toNat (c15x7.hereW gf.a) + 320 * i + 8)) i)).isNan = true then 2 ^ 31 else if (fun (i : Nat) => spWord c15x7.hereCore.sp (BitVec.toNat (c15x7.hereW gf.a) + 320 * i + 8)) i < 2 ^ 31 then (fun (i : Nat) => spWord c15x7.hereCore.sp (BitVec.toNat (c15x7.hereW gf.a) + 320 * i + 8)) i else 0) 1) ∧ (∀ (j : Nat), j < 1 → (fun (i : Nat) => if (decodeF f32 ((fun (i : Nat) => spWord c15x7.hereCore.sp (BitVec.toNat (c15x7.hereW gf.a) + 320 * i + 8)) i)).isNan = true then 2 ^ 31 else if (fun (i : Nat) => spWord c15x7.hereCore.sp (BitVec.toNat (c15x7.hereW gf.a) + 320 * i + 8)) i < 2 ^ 31 then (fun (i : Nat) => spWord c15x7.hereCore.sp (BitVec.toNat (c15x7.hereW gf.a) + 320 * i + 8)) i else 0) j < (fun (i : Nat) => if (decodeF f32 ((fun (i : Nat) => spWord c15x7.hereCore.sp (BitVec.toNat (c15x7.hereW gf.a) + 320 * i + 8)) i)).isNan = true then 2 ^ 31 else if (fun (i : Nat) => spWord c15x7.hereCore.sp (BitVec.toNat (c15x7.hereW gf.a) + 320 * i + 8)) i < 2 ^ 31 then (fun (i : Nat) => spWord c15x7.hereCore.sp (BitVec.toNat (c15x7.hereW gf.a) + 320 * i + 8)) i else 0) 1) ∧ c15x7.hereCore.sp.wf = true ∧ c15x7.unwritten c15x7.curCid (BitVec.toNat (c15x7.hereW gf.a) + 320 * 1 + 8) 4 = true ∧ c15x7.unwatched (Home.scratch c15x7.curCid) (BitVec.toNat (c15x7.hereW gf.a) + 320 * 1 + 8) 4 = true) ∧
    -- .2.2.2.1
    (gaussGood c15x9 (c15x9.hereW gf.a) 64 (320 * (gf.aux8.toNat % 64 + 1)) true ∧ c15x9.admits (Instr.gmpoll gf) = true ∧ c15x9.here.wait = Wait.ready ∧ c15x9.sound = true ∧ (∀ (i : Nat), i < gf.aux8.toNat % 64 + 1 → (fun (i : Nat) => if (decodeF f32 ((fun (i : Nat) => spWord c15x9.hereCore.sp (BitVec.toNat (c15x9.hereW gf.a) + 320 * i + 8)) i)).isNan = true then 2 ^ 31 else if (fun (i : Nat) => spWord c15x9.hereCore.sp (BitVec.toNat (c15x9.hereW gf.a) + 320 * i + 8)) i < 2 ^ 31 then (fun (i : Nat) => spWord c15x9.hereCore.sp (BitVec.toNat (c15x9.hereW gf.a) + 320 * i + 8)) i else 0) i = 0)) ∧
    -- .2.2.1
    (S1.admits (Instr.gmpoll gf) = true ∧ S1.here.wait = Wait.ready ∧ S1.sound = true ∧ BitVec.toNat (S1.hereW gf.a) % 64 ≠ 0) ∧
    -- .1.1.1
    ((Instr.gmmean gf, [(20488, 64, 320, false), (21120, 16, 32, true)], [20488, 0, 21120], true) ∈ gaussRequests S1 gf ∧ S1.admits (Instr.gmmean gf, [(20488, 64, 320, false), (21120, 16, 32, true)], [20488, 0, 21120], true).fst = true ∧ blk 20488 64 320 false ∈ (Instr.gmmean gf, [(20488, 64, 320, false), (21120, 16, 32, true)], [20488, 0, 21120], true).snd.fst.head? ∧ BitVec.toNat (blk 20488 64 320 false).fst % (blk 20488 64 320 false).snd.fst ≠ 0) := by
  refine ⟨
    ⟨by delta gaussGood; decide +kernel, by intro j h1 h2; revert h1; revert h2; revert j; decide +kernel, by decide +kernel⟩,
    ⟨by delta gaussGood; decide +kernel, by decide +kernel⟩,
    by decide +kernel,
    by decide +kernel⟩

theorem witness_GaussianMessages_4 :
    -- .1.1.2.1
    (S2.sound = true ∧ S2.here.wait = Wait.ready ∧ (Instr.gmmean gf, [(393152, 64, 320, false), (21120, 16, 32, true)], [393152, 0, 21120], true) ∈ gaussRequests S2 gf ∧ S2.admits (Instr.gmmean gf, [(393152, 64, 320, false), (21120, 16, 32, true)], [393152, 0, 21120], true).fst = true ∧ blk 393152 64 320 false ∈ (Instr.gmmean gf, [(393152, 64, 320, false), (21120, 16, 32, true)], [393152, 0, 21120], true).snd.fst.head? ∧ BitVec.toNat (blk 393152 64 320 false).fst % (blk 393152 64 320 false).snd.fst = 0 ∧ (BitVec.toNat (blk 393152 64 320 false).fst < 20480 ∨ 393216 < BitVec.toNat (blk 393152 64 320 false).fst + (blk 393152 64 320 false).snd.snd.fst)) ∧
    -- .1.1.2.2
    (S3.sound = true ∧ S3.here.wait = Wait.ready ∧ (Instr.gmmean gf, [(20480, 64, 320, false), (21120, 16, 32, true)], [20480, 0, 21120], true) ∈ gaussRequests S3 gf ∧ S3.admits (Instr.gmmean gf, [(20480, 64, 320, false), (21120, 16, 32, true)], [20480, 0, 21120], true).fst = true ∧ blk 20480 64 320 false ∈ (Instr.gmmean gf, [(20480, 64, 320, false), (21120, 16, 32, true)], [20480, 0, 21120], true).snd.fst.head? ∧ BitVec.toNat (blk 20480 64 320 false).fst % (blk 20480 64 320 false).snd.fst = 0 ∧ 20480 ≤ BitVec.toNat (blk 20480 64 320 false).fst ∧ BitVec.toNat (blk 20480 64 320 false).fst + (blk 20480 64 320 false).snd.snd.fst ≤ 393216 ∧ S3.scratchLocked S3.curCid (BitVec.toNat (blk 20480 64 320 false).fst) (blk 20480 64 320 false).snd.snd.fst false = true) := by
  refine ⟨?_, ?_⟩ <;> decide +kernel

theorem witness_GaussianResults_1 :
    -- .1
    ((Instr.gmschur (gx 17 0), 16) ∈ [(Instr.gmadd (gx 17 0), 18), (Instr.gmaddJ (gx 17 0), 18), (Instr.gmsub (gx 17 0), 18), (Instr.gmsubJ (gx 17 0), 18), (Instr.gmdamp (gx 17 0), 18), (Instr.gmschur (gx 17 0), 8 + 2 * ((gx 17 0).aux8.toNat % 16 + 1) ^ 2), (Instr.gmmean (gx 17 0), 8 + 2 * ((gx 17 0).aux8.toNat % 8 + 1) ^ 2)] ∧ t1.fst.obj.b = 0 ∧ t1.snd ∈ (t1.fst.cluster t1.fst.obj.a).sfu ∧ t1.snd.served = false ∧ (∀ (q : SfuReq), q ∈ (t1.fst.cluster t1.fst.obj.a).sfu → q.served = false → q = t1.snd ∨ t1.snd.cycle < q.cycle ∨ t1.snd.cycle = q.cycle ∧ t1.snd.cid < q.cid) ∧ t1.snd.cycle < t1.fst.cycle ∧ (t1.fst.cluster t1.fst.obj.a).sfuFree ≤ t1.fst.cycle ∧ t1.snd.ins = (Instr.gmschur (gx 17 0), 16).fst) ∧
    -- .2.1
    (gaussReady c15x10 c15x11 21120 320 ∧ (c15x11.ins = if true = true then Instr.gmsub (gx 1 0) else Instr.gmadd (gx 1 0)) ∧ c15x11.addrs = [20480, 20800, 21120]) ∧
    -- .2.2.1
    (gaussReady c15x14 c15x15 22528 1088 ∧ (c15x15.ins = if true = true then Instr.gmsubJ (gx 1 6) else Instr.gmaddJ (gx 1 6)) ∧ c15x15.addrs = [20480, 21632, 22528]) ∧
    -- .2.2.2.1
    (gaussReady c15x18 c15x19 21120 320 ∧ c15x19.ins = Instr.gmdamp c15x20 ∧ c15x19.addrs = [20480, 20800, 21120]) := by
  refine ⟨
    ⟨by decide +kernel, by decide +kernel⟩,
    ⟨gaussReady_of (by decide +kernel) (by decide +kernel), by decide +kernel⟩,
    ⟨gaussReady_of (by decide +kernel) (by decide +kernel), by decide +kernel⟩,
    ⟨gaussReady_of (by decide +kernel) (by decide +kernel), by decide +kernel⟩⟩

theorem witness_GaussianResults_2 :
    -- .2.2.2.2.1.2.2
    (gaussReady c15x21 c15x22 22528 320 ∧ (0 < (gx 19 0).aux8.toNat % 16 + 1 - ((gx 19 0).aux8.toNat / 16 % 8 + 1) → isThreshold (fun (i j : Nat) => (fun (i j : Nat) => spWord (c15x21.core c15x22.cid).sp (20480 + 64 + 64 * i + 4 * j)) ((gx 19 0).aux8.toNat / 16 % 8 + 1 + i) ((gx 19 0).aux8.toNat / 16 % 8 + 1 + j)) ((gx 19 0).aux8.toNat % 16 + 1 - ((gx 19 0).aux8.toNat / 16 % 8 + 1)) (c15x22.inputs.a.toNat % 64) (mS (MS d0) 1) c15x23 (thS (MS d0) 1 20)) ∧ (isFactor (fun (i j : Nat) => (fun (i j : Nat) => spWord (c15x21.core c15x22.cid).sp (20480 + 64 + 64 * i + 4 * j)) ((gx 19 0).aux8.toNat / 16 % 8 + 1 + i) ((gx 19 0).aux8.toNat / 16 % 8 + 1 + j)) ((gx 19 0).aux8.toNat % 16 + 1 - ((gx 19 0).aux8.toNat / 16 % 8 + 1)) (thS (MS d0) 1 20) (LS d0 20) ((gx 19 0).aux8.toNat % 16 + 1 - ((gx 19 0).aux8.toNat / 16 % 8 + 1))) ∧ (∀ (c i : Nat), c < (gx 19 0).aux8.toNat / 16 % 8 + 1 → i < (gx 19 0).aux8.toNat % 16 + 1 - ((gx 19 0).aux8.toNat / 16 % 8 + 1) → WS d0 20 i c = divF f32 Mode.rne (lessProducts ((fun (i j : Nat) => spWord (c15x21.core c15x22.cid).sp (20480 + 64 + 64 * i + 4 * j)) ((gx 19 0).aux8.toNat / 16 % 8 + 1 + i) c) (LS d0 20 i) (fun (x : Nat) => WS d0 20 x c) (List.range i)) (LS d0 20 i i)) ∧ c15x22.ins = Instr.gmschur (gx 19 0) ∧ c15x22.addrs = [20480, 0, 22528] ∧ (gx 19 0).aux8.toNat / 16 % 8 + 1 ≤ (gx 19 0).aux8.toNat % 16 + 1 ∧ (∀ (j : Nat), j < (gx 19 0).aux8.toNat % 16 + 1 - ((gx 19 0).aux8.toNat / 16 % 8 + 1) → lowPivot (fun (i j : Nat) => (fun (i j : Nat) => spWord (c15x21.core c15x22.cid).sp (20480 + 64 + 64 * i + 4 * j)) ((gx 19 0).aux8.toNat / 16 % 8 + 1 + i) ((gx 19 0).aux8.toNat / 16 % 8 + 1 + j)) (LS d0 20) (thS (MS d0) 1 20) j = true → c15x22.inputs.a.toNat / 256 % 2 = 1) ∧ (∀ (i : Nat), i < (gx 19 0).aux8.toNat % 16 + 1 - ((gx 19 0).aux8.toNat / 16 % 8 + 1) → zS d0 20 i = divF f32 Mode.rne (lessProducts ((fun (i : Nat) => spWord (c15x21.core c15x22.cid).sp (20480 + 4 * i)) ((gx 19 0).aux8.toNat / 16 % 8 + 1 + i)) (LS d0 20 i) (zS d0 20) (List.range i)) (LS d0 20 i i))) ∧
    -- .2.2.2.2.1.2.1
    (gaussReady c15x27 c15x28 22528 320 ∧ (isThreshold (fun (i j : Nat) => (fun (i j : Nat) => spWord (c15x27.core c15x28.cid).sp (20480 + 64 + 64 * i + 4 * j)) ((gx 19 0).aux8.toNat / 16 % 8 + 1 + i) ((gx 19 0).aux8.toNat / 16 % 8 + 1 + j)) ((gx 19 0).aux8.toNat % 16 + 1 - ((gx 19 0).aux8.toNat / 16 % 8 + 1)) (c15x28.inputs.a.toNat % 64) (mS (MS d1) 0) c15x29 (thS (MS d1) 0 3)) ∧ (isFactor (fun (i j : Nat) => (fun (i j : Nat) => spWord (c15x27.core c15x28.cid).sp (20480 + 64 + 64 * i + 4 * j)) ((gx 19 0).aux8.toNat / 16 % 8 + 1 + i) ((gx 19 0).aux8.toNat / 16 % 8 + 1 + j)) ((gx 19 0).aux8.toNat % 16 + 1 - ((gx 19 0).aux8.toNat / 16 % 8 + 1)) (thS (MS d1) 0 3) (lk (factor (MS d1) 2 (thS (MS d1) 0 3))) 1) ∧ c15x28.ins = Instr.gmschur (gx 19 0) ∧ c15x28.addrs = [20480, 0, 22528] ∧ 1 < (gx 19 0).aux8.toNat % 16 + 1 - ((gx 19 0).aux8.toNat / 16 % 8 + 1) ∧ (∀ (i : Nat), i < 1 → lowPivot (fun (i j : Nat) => (fun (i j : Nat) => spWord (c15x27.core c15x28.cid).sp (20480 + 64 + 64 * i + 4 * j)) ((gx 19 0).aux8.toNat / 16 % 8 + 1 + i) ((gx 19 0).aux8.toNat / 16 % 8 + 1 + j)) (lk (factor (MS d1) 2 (thS (MS d1) 0 3))) (thS (MS d1) 0 3) i = true → c15x28.inputs.a.toNat / 256 % 2 = 1) ∧ (lowPivot (fun (i j : Nat) => (fun (i j : Nat) => spWord (c15x27.core c15x28.cid).sp (20480 + 64 + 64 * i + 4 * j)) ((gx 19 0).aux8.toNat / 16 % 8 + 1 + i) ((gx 19 0).aux8.toNat / 16 % 8 + 1 + j)) (lk (factor (MS d1) 2 (thS (MS d1) 0 3))) (thS (MS d1) 0 3) 1 = true) ∧ c15x28.inputs.a.toNat / 256 % 2 = 0) := by
  refine ⟨
    ⟨gaussReady_of (by decide +kernel) (by decide +kernel), by delta isThreshold; decide +kernel, isFactor_of (by decide +kernel), below2 (by decide +kernel), by decide +kernel⟩,
    ⟨gaussReady_of (by decide +kernel) (by decide +kernel), by delta isThreshold; decide +kernel, isFactor_of (by decide +kernel), by decide +kernel⟩⟩

theorem witness_GaussianResults_3 :
    -- .2.2.2.2.1.1
    (gaussReady c15x30 c15x31 22528 320 ∧ (noThreshold (fun (i j : Nat) => (fun (i j : Nat) => spWord (c15x30.core c15x31.cid).sp (20480 + 64 + 64 * i + 4 * j)) ((gx 19 0).aux8.toNat / 16 % 8 + 1 + i) ((gx 19 0).aux8.toNat / 16 % 8 + 1 + j)) ((gx 19 0).aux8.toNat % 16 + 1 - ((gx 19 0).aux8.toNat / 16 % 8 + 1))) ∧ c15x31.ins = Instr.gmschur (gx 19 0) ∧ c15x31.addrs = [20480, 0, 22528] ∧ 0 < (gx 19 0).aux8.toNat % 16 + 1 - ((gx 19 0).aux8.toNat / 16 % 8 + 1)) ∧
    -- .2.2.2.2.2.2.2
    (gaussReady c15x32 c15x33 22528 32 ∧ (isThreshold (fun (i j : Nat) => spWord (c15x32.core c15x33.cid).sp (20480 + 64 + 32 * i + 4 * j)) ((gx 2 0).aux8.toNat % 8 + 1) (c15x33.inputs.a.toNat % 64) (mS (M5 d0) 2) c15x34 (thS (M5 d0) 2 20)) ∧ (isFactor (fun (i j : Nat) => spWord (c15x32.core c15x33.cid).sp (20480 + 64 + 32 * i + 4 * j)) ((gx 2 0).aux8.toNat % 8 + 1) (thS (M5 d0) 2 20) (L5 d0 2 20) ((gx 2 0).aux8.toNat % 8 + 1)) ∧ c15x33.ins = Instr.gmmean (gx 2 0) ∧ c15x33.addrs = [20480, 0, 22528] ∧ (∀ (j : Nat), j < (gx 2 0).aux8.toNat % 8 + 1 → lowPivot (fun (i j : Nat) => spWord (c15x32.core c15x33.cid).sp (20480 + 64 + 32 * i + 4 * j)) (L5 d0 2 20) (thS (M5 d0) 2 20) j = true → c15x33.inputs.a.toNat / 256 % 2 = 1) ∧ (∀ (i : Nat), i < (gx 2 0).aux8.toNat % 8 + 1 → lk (y5 d0 2 20) 0 i = divF f32 Mode.rne (lessProducts (spWord (c15x32.core c15x33.cid).sp (20480 + 32 + 4 * i)) (L5 d0 2 20 i) (lk (y5 d0 2 20) 0) (List.range i)) (L5 d0 2 20 i i)) ∧ (∀ (i : Nat), i < (gx 2 0).aux8.toNat % 8 + 1 → lk (m5 d0 2 20) 0 i = divF f32 Mode.rne (lessProducts (lk (y5 d0 2 20) 0 i) (fun (x : Nat) => L5 d0 2 20 x i) (lk (m5 d0 2 20) 0) (rangeFrom (i + 1) ((gx 2 0).aux8.toNat % 8 + 1 - 1 - i))) (L5 d0 2 20 i i))) ∧
    -- .2.2.2.2.2.2.1
    (gaussReady c15x38 c15x39 22528 32 ∧ (isThreshold (fun (i j : Nat) => spWord (c15x38.core c15x39.cid).sp (20480 + 64 + 32 * i + 4 * j)) ((gx 2 0).aux8.toNat % 8 + 1) (c15x39.inputs.a.toNat % 64) (mS (M5 d3) 0) c15x40 (thS (M5 d3) 0 3)) ∧ (isFactor (fun (i j : Nat) => spWord (c15x38.core c15x39.cid).sp (20480 + 64 + 32 * i + 4 * j)) ((gx 2 0).aux8.toNat % 8 + 1) (thS (M5 d3) 0 3) (L5 d3 0 3) 1) ∧ c15x39.ins = Instr.gmmean (gx 2 0) ∧ c15x39.addrs = [20480, 0, 22528] ∧ 1 < (gx 2 0).aux8.toNat % 8 + 1 ∧ (∀ (i : Nat), i < 1 → lowPivot (fun (i j : Nat) => spWord (c15x38.core c15x39.cid).sp (20480 + 64 + 32 * i + 4 * j)) (L5 d3 0 3) (thS (M5 d3) 0 3) i = true → c15x39.inputs.a.toNat / 256 % 2 = 1) ∧ (lowPivot (fun (i j : Nat) => spWord (c15x38.core c15x39.cid).sp (20480 + 64 + 32 * i + 4 * j)) (L5 d3 0 3) (thS (M5 d3) 0 3) 1 = true) ∧ c15x39.inputs.a.toNat / 256 % 2 = 0) ∧
    -- .2.2.2.2.2.1
    (gaussReady c15x41 c15x42 22528 32 ∧ (noThreshold (fun (i j : Nat) => spWord (c15x41.core c15x42.cid).sp (20480 + 64 + 32 * i + 4 * j)) ((gx 2 0).aux8.toNat % 8 + 1)) ∧ c15x42.ins = Instr.gmmean (gx 2 0) ∧ c15x42.addrs = [20480, 0, 22528]) := by
  refine ⟨
    ⟨gaussReady_of (by decide +kernel) (by decide +kernel), by delta noThreshold; decide +kernel, by decide +kernel⟩,
    ⟨gaussReady_of (by decide +kernel) (by decide +kernel), by delta isThreshold; decide +kernel, isFactor_of (by decide +kernel), by decide +kernel⟩,
    ⟨gaussReady_of (by decide +kernel) (by decide +kernel), by delta isThreshold; decide +kernel, isFactor_of (by decide +kernel), by decide +kernel⟩,
    ⟨gaussReady_of (by decide +kernel) (by decide +kernel), by delta noThreshold; decide +kernel, by decide +kernel⟩⟩

end Sys2Proof.Tests.T15

namespace Sys2Proof.Tests.T16
open Sys2Proof.Machine Sys2Proof.Claims

def b0 : State := (small 0).modCore 1 fun k => { k with sp := by_ 0x6000 ((List.range 300).map fun i => i * 7 % 251) }
def S (f : SendRec → SendRec) (g : Transfer → Transfer) : Transfer := g { id := 5, cid := 1, slot := 0, serial := 7, gid := 1, region := 0x10000, receiver := 1, recvRegion := 0x10000, accepted := true, locked := true, kind := .send (f { src := 0x6000, dst := 0x8000, len := 0x5000, scratch := true, x := 3, counted := true }) }
def R (f : SendRec → SendRec) : SendRec := f { src := 0x6000, dst := 0x8000, len := 0x5000, scratch := true, x := 3, counted := true }
def wi (s : State) (p : Transfer) (o : Obj := { a := 5 }) : State := { s with transfers := [p], obj := o }
def kd (r : TransferKind) : Transfer := { id := 5, cid := 1, slot := 0, serial := 7, gid := 1, region := 0x10000, kind := r }
def gr : GatherRec := { home := 1, h := 2, claim := 4, mb := 3, base := 0x6000, stride := 32, rows := 4, rowBytes := 32, list := 0x7000, count := 3, swz := 1 }
def ac (p : Transfer) : State := (wi b0 p {a := 1}).modSlot 1 0 fun x => { x with wait := .accept }
def fl (s : State) := s.modCluster 0 fun c => { c with locks := List.replicate 32 {full := false, global := false, core := 2, region := 0, base := 0x5000, len := 16, hkind := 3, hidx := 20, holder := 20, since := 0} }
def lm : Msg := { id := 9, kind := .lockMsg 5, cid := 1, slot := 0, serial := 7, region := 0x10000, va := 0, loc := { home := .scratch 1, addr := 0x8000 }, size := 0, ins := .lockMessageArrival }
def lms : State := { wi b0 (S id id) { a := 9 } with net := [lm] }
def sp0 := S id fun t => { t with locked := false, packets := [{ n := 0, bytes := [1,2] }, {n := 1, landed := true}] }
def q1 := S id fun t => { t with tokens := [{k := 0, granted := true, used := true}, {k := 1}], prio := 3, prefixed := 0 }
def q2 := { (S id fun t => { t with tokens := [{k := 0}], prio := 3, cid := 2 }) with id := 6 }
def q3 := { (S id fun t => { t with tokens := [{k := 0}], prio := 2, cid := 0 }) with id := 7 }
def gt : State := { b0 with regions := [], transfers := [q3, q2, q1], dies := [(0, { tokmax := 2, requests := [7, 6, 5] })] }
def tk := S id fun t => { t with tokens := [{k := 0, granted := true, grants := 2}, {k := 1}], packets := [{n := 0, landed := true}], prefixed := 1, locked := true }
def tku := S id fun t => { t with tokens := [{k := 0, granted := true, grants := 2, used := true}, {k := 1}] }
def pk : Packet := {n := 1, bytes := (List.range 4096).map fun i => BitVec.ofNat 8 (i + 3)}
def L (f) (g : Transfer → Transfer := id) := S f fun t => g { t with packets := [pk] }
def dead (s : State) : State := { s with groups := [] }
def th (r : SendRec) : SendRec := { r with toHandle := true, scratch := false, dst := 16 }
def hd (len : Nat) (s : State) (st : HState := .filling) := s.modCore 1 fun c => { c with hs := [(3, {state := st, base := 0xA000, len := len, mb := 7})] }
def H (len : Nat) (st : HState := .filling) : Handle := {state := st, base := 0xA000, len := len, mb := 7}
def sh (r : SendRec) : SendRec := { r with srcHandle := some 3 }
def dn (r : SendRec) : SendRec := { r with done := some 8 }

def c16x0 : State := (ac (kd (.gather gr)))
def c16x1 : Transfer := (kd (.gather gr))
def c16x4 : State := (fl (ac (kd (.gather gr))))
def c16x5 : Transfer := (kd (.gather gr))
def c16x6 : State := (wi b0 sp0 { a := 5, ok := true })
def c16x7 : State := (wi (fl b0) sp0 { a := 5, ok := true })
def c16x9 : State := { gt with dies := [(0, { tokmax := 1, requests := [7, 6, 5] })] }
def c16x10 : State := (wi b0 tk {a := 5, b := 0, c := 2})
def c16x11 : Token := {k := 0, granted := true, grants := 2}
def c16x12 : State := (wi b0 tk {a := 5, b := 0, c := 2})
def c16x13 : Token := {k := 0, granted := true, grants := 2}
def c16x14 : State := (wi b0 tku {a := 5, b := 0, c := 2})
def c16x15 : Token := {k := 0, granted := true, grants := 2, used := true}
def c16x16 : State := (wi b0 (L id) {a := 5, b := 1, c := 255})
def c16x17 : State := (wi (dead b0) (L id) {a := 5, b := 1, ok := true})
def c16x18 : State := (wi b0 (L id) {a := 5, b := 1, ok := true})
def c16x20 : State := (wi (hd 0x8000 b0 .full) (L th) {a := 5, b := 1, ok := true})
def c16x21 : Handle := (H 0x8000 .full)
def c16x22 : State := (wi (hd 0x1000 b0) (L th) {a := 5, b := 1, ok := true})
def c16x23 : State := (wi (hd 0x8000 b0) (L th) {a := 5, b := 1, ok := true})
def c16x26 : State := { (b0.modCore 1 fun c => { c with hs := [(3, {state := .full, latch := some (77, 2, 0)})], chans := [(2, {inq := [{ word := 1 }]})] }) with obj := {a := 1, b := 3} }
def c16x27 : State := { (b0.modCore 1 fun c => { c with hs := [(3, {state := .full, latch := some (77, 2, 0)})], chans := [(2, {inq := ([1,2,3,4,5,6,7,8] : List Word).map fun w => { word := w }})] }) with obj := {a := 1, b := 3} }
def c16x28 : State := (wi (fl (b0.modCore 1 fun c => { c with hs := [(3, {state := .draining, base := 0x6000})] })) (L sh))
def c16x29 : State := (wi b0 (L dn))
def c16x30 : State := (wi b0 (L id))

theorem witness_SendSteps_1 :
    -- .1.2
    (c16x0.obj.b = 0 ∧ (List.filter (fun (q : Transfer) => (!q.accepted || q.relock) && q.cid == c16x0.obj.a && q.sender.isNone) c16x0.transfers = [c16x1]) ∧ (∀ (q : Transfer), q ∈ c16x0.transfers → q.id = c16x1.id → q = c16x1) ∧ c16x1.accepted = false ∧ State.TransferKind.tag c16x1.kind ≠ 0 ∧ c16x1.far = none ∧ c16x1.recvNode = none ∧ c16x0.sound = true ∧ c16x0.slotTaken c16x1 = false ∧ c16x0.ownerOf c16x1.cid c16x1.slot c16x1.serial = some (1, 0) ∧ (c16x0.slot 1 0).wait = Wait.accept ∧ ((c16x0.unitHolds c16x1.cid c16x1.kind).length < State.unitSize (State.TransferKind.tag c16x1.kind) ∧ (c16x0.transferLocks c16x1).length ≤ 32 - (c16x0.cluster (clusterOf c16x1.cid)).locks.length)) ∧
    -- .1.1
    (c16x4.obj.b = 0 ∧ (List.filter (fun (q : Transfer) => (!q.accepted || q.relock) && q.cid == c16x4.obj.a && q.sender.isNone) c16x4.transfers = [c16x5]) ∧ (∀ (q : Transfer), q ∈ c16x4.transfers → q.id = c16x5.id → q = c16x5) ∧ c16x5.accepted = false ∧ State.TransferKind.tag c16x5.kind ≠ 0 ∧ c16x5.far = none ∧ c16x5.recvNode = none ∧ c16x4.sound = true ∧ c16x4.slotTaken c16x5 = false ∧ c16x4.ownerOf c16x5.cid c16x5.slot c16x5.serial = some (1, 0) ∧ (c16x4.slot 1 0).wait = Wait.accept ∧ (¬((c16x4.unitHolds c16x5.cid c16x5.kind).length < State.unitSize (State.TransferKind.tag c16x5.kind) ∧ (c16x4.transferLocks c16x5).length ≤ 32 - (c16x4.cluster (clusterOf c16x5.cid)).locks.length))) ∧
    -- .2.1
    (stepMessage lms lm ∧ lm.kind = MsgKind.lockMsg 5 ∧ lms.obj.ok = false) ∧
    -- .2.2.1.2
    (stepTransfer c16x6 sp0 ∧ sp0.kind = TransferKind.send (R id) ∧ sp0.locked = false ∧ c16x6.obj.ok = true ∧ ((c16x6.livePitchUp sp0.receiver sp0.region = true ∧ ((R id).toHandle = true → (c16x6.handle sp0.receiver (R id).x).state ≠ HState.free)) ∧ (c16x6.cluster (clusterOf sp0.receiver)).locks.length < 32 ∨ ¬(c16x6.livePitchUp sp0.receiver sp0.region = true ∧ ((R id).toHandle = true → (c16x6.handle sp0.receiver (R id).x).state ≠ HState.free)))) := by
  refine ⟨
    by decide +kernel,
    by decide +kernel,
    ⟨stepMessage_of 0 (by decide +kernel), by decide +kernel⟩,
    ⟨by delta stepTransfer; decide +kernel, by decide +kernel⟩⟩

theorem witness_SendSteps_2 :
    -- .2.2.1.1
    (stepTransfer c16x7 sp0 ∧ c16x7.obj.ok = true ∧ (c16x7.livePitchUp sp0.receiver sp0.region = true ∧ ((R id).toHandle = true → (c16x7.handle sp0.receiver (R id).x).state ≠ HState.free)) ∧ 32 ≤ (c16x7.cluster (clusterOf sp0.receiver)).locks.length) ∧
    -- .2.2.2.1
    (stepTransfer (wi b0 sp0) sp0 ∧ (∀ (g : Group), (wi b0 sp0).group? sp0.gid = some g → g.saved = none) ∧ sp0.orphaned = false ∧ ((wi b0 sp0).die sp0.gate).requests.contains sp0.id = false) ∧
    -- .2.2.2.2.1.2
    ((∀ (n : Nat), gt.effMinshare n = 0) ∧ gt.tokensOut gt.obj.a + 1 = (gt.die gt.obj.a).tokmax ∧ q1 ∈ gt.liveRequests gt.obj.a ∧ q1.gate = gt.obj.a ∧ q1.sender = none ∧ q1.cid < 4096 ∧ (∀ (q : Transfer), q ∈ gt.liveRequests gt.obj.a → q.prio < q1.prio ∨ q.prio = q1.prio ∧ (gt.senderKey q1 < gt.senderKey q ∨ q = q1)) ∧ (∀ (q : Transfer), q ∈ gt.transfers → q.id = q1.id → q = q1) ∧ tfind (gt.die gt.obj.a).served q1.prio = none ∧ (List.find? (fun (x : Token) => !x.granted) q1.tokens = some { k := 1 : Token }) ∧ (∀ (x : Token), x ∈ q1.tokens → x.k = { k := 1 : Token }.k → x = { k := 1 : Token }) ∧ q1.kind = TransferKind.send (R id) ∧ q1.prefixed + 4 * { k := 1 : Token }.k < packetCount (R id).len ∧ (∀ (x : Packet), x ∈ q1.packets → x.n ≠ q1.prefixed + 4 * { k := 1 : Token }.k)) ∧
    -- .2.2.2.2.1.1
    (c16x9.die c16x9.obj.a).tokmax ≤ c16x9.tokensOut c16x9.obj.a ∧
    -- .2.2.2.2.2.1.2.1
    (stepTransfer c16x10 tk ∧ tk.kind = TransferKind.send (R id) ∧ (List.find? (fun (x : Token) => x.k == c16x10.obj.b && x.granted && x.grants == c16x10.obj.c) tk.tokens = some c16x11) ∧ c16x11.used = false ∧ tk.dying = false ∧ (∀ (x : Token), x ∈ tk.tokens → x.k = c16x11.k → x = c16x11)) := by
  refine ⟨
    ⟨by delta stepTransfer; decide +kernel, by decide +kernel⟩,
    ⟨by delta stepTransfer; decide +kernel, every_some (by decide +kernel), by decide +kernel⟩,
    ⟨fun _ => rfl, by decide +kernel⟩,
    by decide +kernel,
    ⟨by delta stepTransfer; decide +kernel, by decide +kernel⟩⟩

theorem witness_SendSteps_3 :
    -- .2.2.2.2.2.1.2.2
    (stepTransfer c16x12 tk ∧ (List.find? (fun (x : Token) => x.k == c16x12.obj.b && x.granted && x.grants == c16x12.obj.c) tk.tokens = some c16x13) ∧ c16x13.used = false ∧ tk.orphaned = false ∧ c16x12.sound = true ∧ (R id).src.toNat + (R id).len ≤ 393216 ∧ 0 < (R id).len ∧ (R id).len % 16 = 0) ∧
    -- .2.2.2.2.2.1.1
    (stepTransfer c16x14 tku ∧ tku.kind = TransferKind.send (R id) ∧ (List.find? (fun (x : Token) => x.k == c16x14.obj.b && x.granted && x.grants == c16x14.obj.c) tku.tokens = some c16x15) ∧ c16x15.used = true) ∧
    -- .2.2.2.2.2.2.1
    (4096 % 16 = 0 ∧ 64 % 16 = 0) ∧
    -- .2.2.2.2.2.2.2.1.1
    (stepTransfer c16x16 (L id) ∧ allRun c16x16 ∧ (L id).kind = TransferKind.send (R id) ∧ (List.find? (fun (x : Packet) => x.n == c16x16.obj.b && !x.landed) (L id).packets = some pk) ∧ c16x16.sound = true ∧ (L id).receiver < 2048 ∧ (c16x16.packetUnits (L id) pk.n)[c16x16.obj.c]? = some (8176, 8176) ∧ 4096 * pk.n ≤ 8176 ∧ pk.bytes.length = Nat.min 4096 ((R id).len - 4096 * pk.n) ∧ 8176 + 16 ≤ 4096 * pk.n + Nat.min 4096 ((R id).len - 4096 * pk.n) ∧ decide ((c16x16.packetUnits (L id) pk.n).length ≤ c16x16.obj.c + 1) = true ∧ c16x16.obj.ok = false ∧ (¬((L id).packets.length = packetCount (R id).len ∧ ∀ (y : Packet), y ∈ (L id).packets → y.landed = true ∨ y.n = pk.n))) := by
  refine ⟨
    ⟨by delta stepTransfer; decide +kernel, by decide +kernel⟩,
    ⟨by delta stepTransfer; decide +kernel, by decide +kernel⟩,
    by decide +kernel,
    ⟨by delta stepTransfer; decide +kernel, allRun_of (by decide +kernel), by decide +kernel⟩⟩

theorem witness_SendSteps_4 :
    -- .2.2.2.2.2.2.2.1.2.1
    (stepTransfer c16x17 (L id) ∧ allRun c16x17 ∧ (∀ (h : Nat), (R id).srcHandle = some h → (L id).readDone = true) ∧ (List.find? (fun (x : Packet) => x.n == c16x17.obj.b && !x.landed) (L id).packets = some pk) ∧ c16x17.sound = true ∧ (c16x17.packetUnits (L id) pk.n)[c16x17.obj.c]? = some (4096, 4096) ∧ 4096 * pk.n ≤ 4096 ∧ 4096 + 16 ≤ 4096 * pk.n + Nat.min 4096 ((R id).len - 4096 * pk.n) ∧ c16x17.obj.ok = true ∧ ((R id).scratch = true ∨ (R id).toHandle = true) ∧ c16x17.livePitchUp (L id).receiver (L id).region = false ∧ c16x17.ownerOf (L id).cid (L id).slot (L id).serial = some ((L id).cid, (L id).slot) ∧ (c16x17.slot (L id).cid (L id).slot).wait = Wait.ready ∧ c16x17.node < 1024 ∧ (R id).done = none ∧ (L id).sender = none) ∧
    -- .2.2.2.2.2.2.2.1.2.2.1
    (stepTransfer c16x18 (L id) ∧ allRun c16x18 ∧ c16x18.Settled (L id).receiver ∧ (List.find? (fun (x : Packet) => x.n == c16x18.obj.b && !x.landed) (L id).packets = some pk) ∧ c16x18.sound = true ∧ (c16x18.packetUnits (L id) pk.n)[c16x18.obj.c]? = some (4096, 4096) ∧ c16x18.obj.ok = true ∧ (R id).scratch = true ∧ (R id).toHandle = false ∧ c16x18.livePitchUp (L id).receiver (L id).region = true ∧ landable c16x18 (L id).receiver ((R id).dst + 4096) 16 = true) := by
  refine ⟨
    ⟨by delta stepTransfer; decide +kernel, allRun_of (by decide +kernel), every_some (by decide +kernel), by decide +kernel⟩,
    ⟨by delta stepTransfer; decide +kernel, allRun_of (by decide +kernel), settled_of (by decide +kernel), by decide +kernel⟩⟩

theorem witness_SendSteps_5 :
    -- .2.2.2.2.2.2.2.1.2.2.2.1
    stepTransfer c16x20 (L th) ∧ allRun c16x20 ∧ c16x20.Settled (L th).receiver ∧ (L th).kind = TransferKind.send (R th) ∧ (List.find? (fun (x : Packet) => x.n == c16x20.obj.b && !x.landed) (L th).packets = some pk) ∧ c16x20.sound = true ∧ (L th).receiver < 2048 ∧ (c16x20.packetUnits (L th) pk.n)[c16x20.obj.c]? = some (4112, 4096) ∧ pk.bytes.length = Nat.min 4096 ((R th).len - 4096 * pk.n) ∧ 4096 + 16 ≤ 4096 * pk.n + Nat.min 4096 ((R th).len - 4096 * pk.n) ∧ c16x20.obj.ok = true ∧ (R th).toHandle = true ∧ c16x20.livePitchUp (L th).receiver (L th).region = true ∧ c16x21 = c16x20.handle (L th).receiver (R th).x ∧ c16x21.norm = none ∧ c16x21.chan = none ∧ c16x21.state ≠ HState.filling ∧ (L th).orphaned = false ∧ (R th).done = none ∧ (R th).srcHandle = none := by
  exact ⟨by delta stepTransfer; decide +kernel, allRun_of (by decide +kernel), settled_of (by decide +kernel), by decide +kernel⟩

theorem witness_SendSteps_6 :
    -- .2.2.2.2.2.2.2.1.2.2.2.2.1
    (stepTransfer c16x22 (L th) ∧ allRun c16x22 ∧ c16x22.Settled (L th).receiver ∧ (∀ (g : Nat), (R th).srcHandle = some g → (L th).readDone = true) ∧ (List.find? (fun (x : Packet) => x.n == c16x22.obj.b && !x.landed) (L th).packets = some pk) ∧ c16x22.sound = true ∧ (c16x22.packetUnits (L th) pk.n)[c16x22.obj.c]? = some (4112, 4096) ∧ c16x22.obj.ok = true ∧ c16x22.livePitchUp (L th).receiver (L th).region = true ∧ H 4096 = c16x22.handle (L th).receiver (R th).x ∧ (H 4096).norm = none ∧ (H 4096).chan = none ∧ (H 4096).state = HState.filling ∧ (H 4096).len < (R th).dst + 4096 * pk.n + Nat.min 4096 ((R th).len - 4096 * pk.n) ∧ (R th).counted = true ∧ (L th).recvHere = true) ∧
    -- .2.2.2.2.2.2.2.1.2.2.2.2.2
    (stepTransfer c16x23 (L th) ∧ allRun c16x23 ∧ c16x23.Settled (L th).receiver ∧ (List.find? (fun (x : Packet) => x.n == c16x23.obj.b && !x.landed) (L th).packets = some pk) ∧ c16x23.sound = true ∧ (c16x23.packetUnits (L th) pk.n)[c16x23.obj.c]? = some (4112, 4096) ∧ c16x23.obj.ok = true ∧ c16x23.livePitchUp (L th).receiver (L th).region = true ∧ H 32768 = c16x23.handle (L th).receiver (R th).x ∧ (H 32768).norm = none ∧ (H 32768).chan = none ∧ (H 32768).state = HState.filling ∧ (R th).dst + 4096 * pk.n + Nat.min 4096 ((R th).len - 4096 * pk.n) ≤ (H 32768).len ∧ landable c16x23 (L th).receiver ((H 32768).base + 4112) 16 = true) := by
  refine ⟨
    ⟨by delta stepTransfer; decide +kernel, allRun_of (by decide +kernel), settled_of (by decide +kernel), every_some (by decide +kernel), by decide +kernel⟩,
    ⟨by delta stepTransfer; decide +kernel, allRun_of (by decide +kernel), settled_of (by decide +kernel), by decide +kernel⟩⟩

theorem witness_SendSteps_7 :
    -- .2.2.2.2.2.2.2.2.1.2
    (c16x26.Settled c16x26.obj.a ∧ (c16x26.handle c16x26.obj.a c16x26.obj.b).latch = some (77, 2, 0) ∧ (c16x26.chan c16x26.obj.a 2).inq.length < 8) ∧
    -- .2.2.2.2.2.2.2.2.1.1
    ((c16x27.handle c16x27.obj.a c16x27.obj.b).latch = some (77, 2, 0) ∧ 8 ≤ (c16x27.chan c16x27.obj.a 2).inq.length) ∧
    -- .2.2.2.2.2.2.2.2.2.1
    (stepTransfer c16x28 (L sh) ∧ allRun c16x28 ∧ c16x28.Settled (L sh).cid ∧ (L sh).kind = TransferKind.send (R sh) ∧ (L sh).readDone = false ∧ (L sh).here = true ∧ (L sh).orphaned = false ∧ (∃ (x : Packet), x ∈ (L sh).packets ∧ x.landed = false)) ∧
    -- .2.2.2.2.2.2.2.2.2.2.1
    (stepTransfer c16x29 (L dn) ∧ allRun c16x29 ∧ c16x29.Settled (L dn).cid ∧ (∀ (g : Group), c16x29.group? (L dn).gid = some g → g.saved = none) ∧ (L dn).kind = TransferKind.send (R dn) ∧ (R dn).done = some 8 ∧ (L dn).abandoned = false ∧ (c16x29.group? (L dn).gid).isSome = true ∧ (c16x29.core (L dn).cid).gid = (L dn).gid) := by
  refine ⟨
    ⟨settled_of (by decide +kernel), by decide +kernel⟩,
    by decide +kernel,
    ⟨by delta stepTransfer; decide +kernel, allRun_of (by decide +kernel), settled_of (by decide +kernel), by decide +kernel⟩,
    ⟨by delta stepTransfer; decide +kernel, allRun_of (by decide +kernel), settled_of (by decide +kernel), every_some (by decide +kernel), by decide +kernel⟩⟩

theorem witness_SendSteps_8 :
    -- .2.2.2.2.2.2.2.2.2.2.2
    stepTransfer c16x30 (L id) ∧ c16x30.Settled (L id).receiver ∧ allRun c16x30 ∧ (R id).counted = true ∧ (L id).recvHere = true ∧ (R id).srcHandle = none ∧ (R id).swz = 0 ∧ c16x30.sound = true ∧ landable c16x30 (L id).receiver (R id).dst (R id).len = true ∧ c16x30.livePitchUp (L id).receiver (L id).region = true ∧ c16x30.effEvbase (L id).region = 0 := by
  exact ⟨by delta stepTransfer; decide +kernel, settled_of (by decide +kernel), allRun_of (by decide +kernel), by decide +kernel⟩

end Sys2Proof.Tests.T16

namespace Sys2Proof.Tests.T22
open Sys2Proof.Machine Sys2Proof.Claims

def b0 : State := (small 0).modCore 1 fun k => { k with sp := by_ 0x6000 ((List.range 300).map fun i => i * 7 % 251) }
def wi (s : State) (p : Transfer) (o : Obj := { a := 5 }) : State := { s with transfers := [p], obj := o }
def kd (r : TransferKind) : Transfer := { id := 5, cid := 1, slot := 0, serial := 7, gid := 1, region := 0x10000, kind := r }
def gr : GatherRec := { home := 1, h := 2, claim := 4, mb := 3, base := 0x6000, stride := 32, rows := 4, rowBytes := 32, list := 0x7000, count := 3, swz := 1 }
def vr : VdecRec := { dec := 1, rdv := none, outfmt := 2, frames := 2, bs := 0x6000, bslen := 33, x := 0, y := 0, w := 4, h := 4, errmb := 9, targets := [(1, 2), (1, 4)] }
def dead (s : State) : State := { s with groups := [] }
def gm (ix : List Nat) (ps : List Packet := []) : Transfer := { kd (.gather gr) with accepted := true, indices := ix, packets := ps }
def gh (s : State) (l := 0x1000) := s.modCore 1 fun c => { c with hs := [(2, {state := .filling, base := 0xA000, len := l, mb := 7, claim := 4})] }
def gl : State := wi ((gh b0).modCore 1 fun c => { c with sp := c.sp ++ by_ 0x7000 [1,0,0,0,3,0,0,0,0xff,0xff,0xff,0xff] }) (gm []) { a := 1, b := 5 }
def row (off : Nat) : List Byte := (List.range 32).map fun k => b0.spByte 1 (off + k)
def d0 : List Packet := [{n := 0, landed := true}, {n := 1, landed := true}]
def gmd := { (gm [0,1,3]) with discarded := true }
def pr : PlanRec := { home := 1, etype := 9, stream := false, rdv := none, slot := 0, n := 2, rank := 1, elems := 8, src := 0x6000, dst := 0x8000, next := 2, planid := 77, mb := 6 }
def pp : Packet := { n := 0, bytes := [1,2,3,4,5,6,7,8,9,10,11,12,13,14,15,16,17,18,19,20] }
def pt (r : PlanRec) (g : Transfer → Transfer := id) : Transfer := g { kd (.rscat r) with accepted := true }
def rg (l : List Transfer) (o : Obj) : State := { b0 with transfers := l, obj := o, cores := b0.cores ++ [(2, {gid := 1, on := true})], groups := b0.groups.map fun p => (p.fst, { p.snd with pitch := [1,2] }) }
def fl32 (k n : Nat) : List Byte := (List.range n).flatMap fun i => leBytes 4 (0x3f800000 + 0x345678 * i * k)
def p2 (r : PlanRec) := pt r fun t => { t with readDone := true, input := fl32 1 r.elems }
def ck (r : PlanRec) (k : Nat) : ChunkRec := { plan := 9, core := 1, planid := 77, etype := 9, n := r.n, rank := 1, elems := r.elems, k := k, len := 4 * (r.elems / r.n) }
def ut (r : PlanRec) (k : Nat) : Transfer := { kd (.chunk (ck r k)) with id := 6, cid := 2, accepted := true, locked := true, receiver := 1, readDone := true, input := fl32 3 (r.elems / r.n), packets := [{ n := 0, landed := true }] }
def p5 := pt pr fun t => { t with packets := [pp] }
def p6 := { (pt { pr with rank := 0, next := 1 }) with id := 6, cid := 2 }
def vt : Transfer := { kd (.vdec vr) with accepted := true }
def un (k : Nat) : List Byte := (List.range (if k = 32 then 1 else 16)).map fun i => b0.spByte 1 (0x6000 + k + i)
def dc (s : State) : State := { s with dies := [(0, {decoders := [(1, [5, 8])]})] }
def v3 : VdecRec := { vr with targets := [(3,2),(3,4)] }
def vt3 : Transfer := { vt with kind := .vdec v3 }
def vlk (s : State) : State := { (s.modCluster 0 fun c => { c with locks := [{full := true, global := false, core := 1, region := 0, base := 0xA000, len := 32, hkind := 3, hidx := 20, holder := 20, since := 0}] }) with cycle := 5 }
def fb (n : Nat) : List Byte := (List.range n).map fun i => BitVec.ofNat 8 (i + 3)
def vf (n : Nat) := { vt with packets := [{ n := 0, bytes := fb n }] }
def gmm : Msg := { id := 4, kind := .gmsend, cid := 1, slot := 0, serial := 7, region := 0x10000, va := 0, loc := {home := .scratch 2, addr := 0x5280}, size := 320, bytes := leBytes 1 2 ++ leBytes 4 9 ++ (List.range 6).flatMap fun i => leBytes 4 (0x3f800000 + 0x123456 * i), ins := .storeAck }
def recd (off n tag damp : Nat) : List Host.Cell := by_ off ([tag, n, damp % 256, damp / 256, 7,1,0,0] ++ List.replicate 24 0 ++ (List.range 72).flatMap fun i => [0,0,(i*3) % 256, 0x3f])
def gml (n tag damp : Nat) : State := { ((rg [] {a := 4}).modCore 2 fun c => { c with sp := recd 0x5280 n tag damp }) with net := [gmm] }

def c22x0 : State := (wi (gh b0) (gm [0, 1, 3] d0) {a := 5, b := 2})
def c22x1 : Transfer := (gm [0,1,3] d0)
def c22x8 : State := (wi (gh b0) (gm [0, 1, 3] d0))
def c22x9 : Transfer := (gm [0,1,3] d0)
def c22x10 : State := (wi (gh b0) gmd)
def c22x11 : State := (rg [pt pr] {a := 5, c := 1})
def c22x12 : State := (rg [p2 pr] {a := 5})
def c22x13 : State := (rg [p2 pr, ut pr 1] {a := 5})
def c22x15 : State := (rg [p5] {a := 5, c := 3})
def c22x17 : State := (rg [pt pr, p6] {a := 5, c := 2})
def c22x18 : State := (dc (wi b0 vt {a := 0, b := 1}))
def c22x19 : State := (dc (wi b0 {vt with locked := true} {a := 0, b := 1}))
def c22x20 : Transfer := {vt with locked := true}
def c22x21 : State := (wi (b0.modCore 1 fun c => { c with hs := [(2, {state := .full})] }) vt)
def c22x22 : State := (wi (gh b0 16) vt)
def c22x23 : State := (vlk (wi (gh b0) vt))
def c22x24 : State := (wi (gh b0) vt)
def c22x25 : State := (wi (gh b0) (vf 64) { a := 5, c := 1 })
def c22x28 : State := (dc (wi b0 vt))
def c22x29 : State := (gml 2 5 0x4000)
def c22x31 : State := (dead (gml 3 5 0x4000))

theorem witness_UnitSteps_1 :
    -- .1
    (gl.transfer? gl.obj.b = some (gm []) ∧ (∀ (q : Transfer), q ∈ gl.transfers → q.id = (gm []).id → q = gm []) ∧ (gm []).kind = TransferKind.gather gr ∧ gl.sound = true ∧ gl.obj.b ≠ 0) ∧
    -- .2.1
    (stepTransfer c22x0 c22x1 ∧ c22x1.kind = TransferKind.gather gr ∧ c22x0.sound = true ∧ (c22x0.claimHolds c22x1 gr && (c22x0.handle c22x1.cid gr.h).state == HState.filling) = true ∧ (c22x0.handle c22x1.cid gr.h).norm = none ∧ 16 * c22x0.obj.c < gr.rowBytes ∧ landable c22x0 c22x1.cid ((c22x0.handle c22x1.cid gr.h).base + c22x0.obj.b * gr.rowBytes + 16 * c22x0.obj.c) 16 = true ∧ gr.rowBytes % 16 = 0 ∧ c22x1.indices.getD c22x0.obj.b 0 < 2 ^ 32 ∧ (row 24672).length = gr.rowBytes ∧ (c22x0.obj.c = 0 → (∀ (y : Packet), y ∈ c22x1.packets → y.n ≠ c22x0.obj.b) ∧ row 24672 = List.map (fun (k : Nat) => if c22x1.indices.getD c22x0.obj.b 0 < gr.rows ∧ c22x1.indices.getD c22x0.obj.b 0 ≠ 4294967295 then c22x0.spByte c22x1.cid (24672 + k) else 0) (List.range gr.rowBytes) ∧ (c22x1.indices.getD c22x0.obj.b 0 < gr.rows ∧ c22x1.indices.getD c22x0.obj.b 0 ≠ 4294967295 → (gr.base + BitVec.ofNat 64 (c22x1.indices.getD c22x0.obj.b 0) * gr.stride).toNat = 24672 ∧ 24672 % 16 = 0 ∧ 24672 + gr.rowBytes ≤ 393216 ∧ c22x0.scratchLocked c22x1.cid 24672 gr.rowBytes false = false)) ∧ (0 < c22x0.obj.c → List.find? (fun (y : Packet) => y.n == c22x0.obj.b) c22x1.packets = some { n := c22x0.obj.b, bytes := row 24672 : Packet })) ∧
    -- .2.2.1.1
    (stepTransfer c22x8 c22x9 ∧ c22x8.Settled c22x9.cid ∧ allRun c22x8 ∧ c22x9.kind = TransferKind.gather gr ∧ (c22x8.core c22x9.cid).gid = c22x9.gid ∧ (c22x8.handle c22x9.cid gr.h).claim = gr.claim ∧ (c22x8.handle c22x9.cid gr.h).norm = none ∧ (c22x8.handle c22x9.cid gr.h).chan = none ∧ c22x9.discarded = false ∧ (c22x8.handle c22x9.cid gr.h).state = HState.filling) := by
  refine ⟨
    by decide +kernel,
    ⟨by delta stepTransfer; decide +kernel, by decide +kernel⟩,
    ⟨by delta stepTransfer; decide +kernel, settled_of (by decide +kernel), allRun_of (by decide +kernel), by decide +kernel⟩⟩

theorem witness_UnitSteps_2 :
    -- .2.2.1.2
    (stepTransfer c22x10 gmd ∧ c22x10.Settled gmd.cid ∧ allRun c22x10 ∧ gmd.kind = TransferKind.gather gr ∧ (c22x10.core gmd.cid).gid = gmd.gid ∧ (c22x10.handle gmd.cid gr.h).claim = gr.claim ∧ (c22x10.handle gmd.cid gr.h).norm = none ∧ (c22x10.handle gmd.cid gr.h).chan = none ∧ gmd.discarded = true ∧ (c22x10.handle gmd.cid gr.h).state ≠ HState.free) ∧
    -- .2.2.2.1
    (stepTransfer c22x11 (pt pr) ∧ (pt pr).kind = TransferKind.rscat pr ∧ c22x11.obj.c = 1 ∧ c22x11.sound = true ∧ pr.etype = 9 ∧ 0 < pr.n ∧ pr.src.toNat + 4 * pr.elems ≤ 393216 ∧ c22x11.scratchLocked (pt pr).cid pr.src.toNat (4 * pr.elems) false = false ∧ pr.nextNode = c22x11.node ∧ c22x11.serial ≠ (pt pr).id) ∧
    -- .2.2.2.2.1.1
    (c22x12.transfer? (p2 pr).id = some (p2 pr) ∧ (∀ (q : Transfer), q ∈ c22x12.transfers → q.id = (p2 pr).id → q = p2 pr) ∧ (p2 pr).kind = TransferKind.rscat pr ∧ (p2 pr).packets = [] ∧ (p2 pr).readDone = true ∧ c22x12.obj.c = 0 ∧ c22x12.obj.a = (p2 pr).id ∧ pr.nextNode = c22x12.node ∧ c22x12.serial ≠ (p2 pr).id ∧ (List.find? (fun (q : Transfer) => match q.kind with | TransferKind.chunk c => c.core == (p2 pr).cid && c.planid == pr.planid && c.rank == pr.rank && c.k == (p2 pr).step + 1 && q.allLanded | x => false) c22x12.transfers = none)) := by
  refine ⟨
    ⟨by delta stepTransfer; decide +kernel, settled_of (by decide +kernel), allRun_of (by decide +kernel), by decide +kernel⟩,
    ⟨by delta stepTransfer; decide +kernel, by decide +kernel⟩,
    by decide +kernel⟩

theorem witness_UnitSteps_3 :
    -- .2.2.2.2.1.2
    (c22x13.transfer? (p2 pr).id = some (p2 pr) ∧ (∀ (q : Transfer), q ∈ c22x13.transfers → q.id = (p2 pr).id → q = p2 pr) ∧ c22x13.obj.c = 0 ∧ c22x13.obj.a = (p2 pr).id ∧ pr.nextNode = c22x13.node ∧ c22x13.serial ≠ (p2 pr).id ∧ (List.find? (fun (q : Transfer) => match q.kind with | TransferKind.chunk c => c.core == (p2 pr).cid && c.planid == pr.planid && c.rank == pr.rank && c.k == (p2 pr).step + 1 && q.allLanded | x => false) c22x13.transfers = some (ut pr 1)) ∧ (ut pr 1).kind = TransferKind.chunk (ck pr 1) ∧ (ck pr 1).n = pr.n ∧ (ck pr 1).etype = pr.etype ∧ (ck pr 1).elems = pr.elems ∧ (∀ (q : Transfer), q ∈ c22x13.transfers → q.id = (ut pr 1).id → q = ut pr 1) ∧ c22x13.serial ≠ (ut pr 1).id ∧ (ut pr 1).sender = none) ∧
    -- .2.2.2.2.2.1
    (stepTransfer c22x15 p5 ∧ c22x15.Settled p5.cid ∧ allRun c22x15 ∧ p5.kind = TransferKind.rscat pr ∧ c22x15.obj.c = 3 ∧ p5.packets = [pp] ∧ (c22x15.core p5.cid).gid = p5.gid ∧ pr.rdv = none ∧ c22x15.sound = true ∧ pr.dst.toNat + pp.bytes.length ≤ 393216 ∧ (State.unitPieces pr.dst pp.bytes.length)[c22x15.obj.b]? = some (0, 16) ∧ c22x15.scratchLocked p5.cid pr.dst.toNat pp.bytes.length true = false ∧ landable c22x15 p5.cid pr.dst.toNat pp.bytes.length = true) := by
  refine ⟨
    by decide +kernel,
    ⟨by delta stepTransfer; decide +kernel, settled_of (by decide +kernel), allRun_of (by decide +kernel), by decide +kernel⟩⟩

theorem witness_UnitSteps_4 :
    -- .2.2.2.2.2.2.1
    (stepTransfer c22x17 (pt pr) ∧ c22x17.Settled (pt pr).cid ∧ allRun c22x17 ∧ (∀ (g : Group), c22x17.group? (pt pr).gid = some g → g.saved = none) ∧ c22x17.obj.c = 2 ∧ (pt pr).packets = [] ∧ (c22x17.core (pt pr).cid).gid = (pt pr).gid ∧ c22x17.sound = true ∧ (c22x17.group? (pt pr).gid).isSome = true ∧ pr.stream = false ∧ pr.dst.toNat + pr.elems / pr.n * State.planSize pr ≤ 393216 ∧ landable c22x17 (pt pr).cid pr.dst.toNat (pr.elems / pr.n * State.planSize pr) = true) ∧
    -- .2.2.2.2.2.2.2.1.2
    (tget (c22x18.die c22x18.obj.a).decoders c22x18.obj.b [] = [vt.id, 8] ∧ c22x18.transfer? vt.id = some vt ∧ (∀ (q : Transfer), q ∈ c22x18.transfers → q.id = vt.id → q = vt) ∧ vt.kind = TransferKind.vdec vr ∧ vt.locked = false ∧ c22x18.sound = true ∧ (∀ (q : Nat × Nat), q ∈ State.unitPieces vr.bs vr.bslen → ∃ (l : Loc), c22x18.unitLoc vt.cid vt.cid vt.region (vr.bs + BitVec.ofNat 64 q.fst) q.snd false = some l ∧ l.tier = false ∧ c22x18.readLoc l q.snd = un q.fst)) ∧
    -- .2.2.2.2.2.2.2.1.1
    (tget (c22x19.die c22x19.obj.a).decoders c22x19.obj.b [] = [c22x20.id, 8] ∧ c22x19.transfer? c22x20.id = some c22x20 ∧ (∀ (q : Transfer), q ∈ c22x19.transfers → q.id = c22x20.id → q = c22x20) ∧ c22x20.kind = TransferKind.vdec vr ∧ c22x20.locked = true) := by
  refine ⟨
    ⟨by delta stepTransfer; decide +kernel, settled_of (by decide +kernel), allRun_of (by decide +kernel), every_some (by decide +kernel), by decide +kernel⟩,
    by decide +kernel,
    by decide +kernel⟩

theorem witness_UnitSteps_5 :
    -- .2.2.2.2.2.2.2.2.1.1
    (stepTransfer (wi b0 vt3) vt3 ∧ (∀ (g : Group), (wi b0 vt3).group? vt3.gid = some g → g.saved = none) ∧ (wi b0 vt3).Settled vt3.cid ∧ vt3.kind = TransferKind.vdec v3 ∧ v3.targets.getD (wi b0 vt3).obj.b (0, 0) = (3, 2) ∧ ((wi b0 vt3).core vt3.cid).gid = vt3.gid ∧ ((wi b0 vt3).group? vt3.gid).isSome = true ∧ (wi b0 vt3).obj.c = 0 ∧ (wi b0 vt3).sound = true ∧ (wi b0 vt3).livePitchUp 3 vt3.region = false) ∧
    -- .2.2.2.2.2.2.2.2.1.2.1
    (stepTransfer c22x21 vt ∧ (∀ (g : Group), c22x21.group? vt.gid = some g → g.saved = none) ∧ c22x21.Settled vt.cid ∧ c22x21.Settled 1 ∧ vr.targets.getD c22x21.obj.b (0, 0) = (1, 2) ∧ (c22x21.core vt.cid).gid = vt.gid ∧ (c22x21.group? vt.gid).isSome = true ∧ c22x21.obj.c = 0 ∧ c22x21.sound = true ∧ c22x21.livePitchUp 1 vt.region = true ∧ (c22x21.handle 1 2).state ≠ HState.filling) := by
  refine ⟨
    ⟨by delta stepTransfer; decide +kernel, every_some (by decide +kernel), settled_of (by decide +kernel), by decide +kernel⟩,
    ⟨by delta stepTransfer; decide +kernel, every_some (by decide +kernel), settled_of (by decide +kernel), settled_of (by decide +kernel), by decide +kernel⟩⟩

theorem witness_UnitSteps_6 :
    -- .2.2.2.2.2.2.2.2.1.2.2.1
    (stepTransfer c22x22 vt ∧ (∀ (g : Group), c22x22.group? vt.gid = some g → g.saved = none) ∧ c22x22.Settled vt.cid ∧ c22x22.Settled 1 ∧ vr.targets.getD c22x22.obj.b (0, 0) = (1, 2) ∧ (c22x22.core vt.cid).gid = vt.gid ∧ (c22x22.group? vt.gid).isSome = true ∧ c22x22.obj.c = 0 ∧ c22x22.sound = true ∧ c22x22.livePitchUp 1 vt.region = true ∧ (c22x22.handle 1 2).state = HState.filling ∧ (c22x22.handle 1 2).len < frameLen vr (Config.av1Frame vt.input vt.indices c22x22.obj.b).depth ∧ (c22x22.handle 1 2).chan = none) ∧
    -- .2.2.2.2.2.2.2.2.1.2.2.2.1
    (stepTransfer c22x23 vt ∧ (∀ (g : Group), c22x23.group? vt.gid = some g → g.saved = none) ∧ vr.targets.getD c22x23.obj.b (0, 0) = (1, 2) ∧ (c22x23.core vt.cid).gid = vt.gid ∧ (c22x23.group? vt.gid).isSome = true ∧ c22x23.obj.c = 0 ∧ c22x23.sound = true ∧ c22x23.livePitchUp 1 vt.region = true ∧ (c22x23.handle 1 2).state = HState.filling ∧ frameLen vr (Config.av1Frame vt.input vt.indices c22x23.obj.b).depth ≤ (c22x23.handle 1 2).len ∧ 16 < frameLen vr (Config.av1Frame vt.input vt.indices c22x23.obj.b).depth ∧ (c22x23.handle 1 2).norm = none ∧ c22x23.scratchLocked 1 (c22x23.handle 1 2).base 16 true = true) := by
  refine ⟨
    ⟨by delta stepTransfer; decide +kernel, every_some (by decide +kernel), settled_of (by decide +kernel), settled_of (by decide +kernel), by decide +kernel⟩,
    ⟨by delta stepTransfer; decide +kernel, every_some (by decide +kernel), by decide +kernel⟩⟩

theorem witness_UnitSteps_7 :
    -- .2.2.2.2.2.2.2.2.1.2.2.2.2
    (stepTransfer c22x24 vt ∧ (∀ (g : Group), c22x24.group? vt.gid = some g → g.saved = none) ∧ vr.targets.getD c22x24.obj.b (0, 0) = (1, 2) ∧ (c22x24.core vt.cid).gid = vt.gid ∧ (c22x24.group? vt.gid).isSome = true ∧ c22x24.obj.c = 0 ∧ c22x24.sound = true ∧ c22x24.livePitchUp 1 vt.region = true ∧ (c22x24.handle 1 2).state = HState.filling ∧ frameLen vr (Config.av1Frame vt.input vt.indices c22x24.obj.b).depth ≤ (c22x24.handle 1 2).len ∧ 16 < frameLen vr (Config.av1Frame vt.input vt.indices c22x24.obj.b).depth ∧ (c22x24.handle 1 2).norm = none ∧ c22x24.scratchLocked 1 (c22x24.handle 1 2).base 16 true = false ∧ landable c22x24 1 (c22x24.handle 1 2).base 16 = true) ∧
    -- .2.2.2.2.2.2.2.2.2.1
    (stepTransfer c22x25 (vf 64) ∧ c22x25.Settled 1 ∧ (vf 64).kind = TransferKind.vdec vr ∧ vr.targets.getD c22x25.obj.b (0, 0) = (1, 2) ∧ c22x25.sound = true ∧ 0 < c22x25.obj.c ∧ (vf 64).packets = [{ n := c22x25.obj.b, bytes := fb 64 : Packet }] ∧ 16 * c22x25.obj.c < (fb 64).length ∧ (fb 64).length ≤ (c22x25.handle 1 2).len ∧ c22x25.livePitchUp 1 (vf 64).region = true ∧ (c22x25.handle 1 2).state = HState.filling ∧ (c22x25.handle 1 2).norm = none ∧ (c22x25.handle 1 2).chan = none ∧ (c22x25.handle 1 2).swz = 0 ∧ c22x25.scratchLocked 1 ((c22x25.handle 1 2).base + 16 * c22x25.obj.c) 16 true = false ∧ landable c22x25 1 ((c22x25.handle 1 2).base + 16 * c22x25.obj.c) 16 = true) := by
  refine ⟨
    ⟨by delta stepTransfer; decide +kernel, every_some (by decide +kernel), by decide +kernel⟩,
    ⟨by delta stepTransfer; decide +kernel, settled_of (by decide +kernel), by decide +kernel⟩⟩

theorem witness_UnitSteps_8 :
    -- .2.2.2.2.2.2.2.2.2.2.1
    (stepTransfer c22x28 vt ∧ allRun c22x28 ∧ vr.rdv = none) ∧
    -- .2.2.2.2.2.2.2.2.2.2.2.2
    (stepMessage c22x29 gmm ∧ c22x29.Settled 2 ∧ gmm.kind = MsgKind.gmsend ∧ gmm.loc.home = Home.scratch 2 ∧ 2 ≠ gmm.cid ∧ gmm.bytes.length = 5 + 4 * (2 + 2 * 2) ∧ leNat (List.take 1 gmm.bytes) = 2 ∧ 1 ≤ 2 ∧ 2 ≤ 8 ∧ c22x29.sound = true ∧ c22x29.livePitch 2 gmm.region = true ∧ c22x29.scratchLocked 2 gmm.loc.addr 320 true = false ∧ landable c22x29 2 gmm.loc.addr 320 = true) ∧
    -- .2.2.2.2.2.2.2.2.2.2.2.1
    (stepMessage c22x31 gmm ∧ c22x31.sound = true ∧ c22x31.livePitch 2 gmm.region = false ∧ c22x31.ownerOf gmm.cid gmm.slot gmm.serial = some (gmm.cid, gmm.slot) ∧ (c22x31.slot gmm.cid gmm.slot).wait = Wait.ready ∧ c22x31.node < 1024) := by
  refine ⟨
    ⟨by delta stepTransfer; decide +kernel, allRun_of (by decide +kernel), by decide +kernel⟩,
    ⟨stepMessage_of 0 (by decide +kernel), settled_of (by decide +kernel), by decide +kernel⟩,
    ⟨stepMessage_of 0 (by decide +kernel), by decide +kernel⟩⟩

end Sys2Proof.Tests.T22

namespace Sys2Proof.Tests.T17
open Sys2Proof.Machine Sys2Proof.Claims

def o (o : Obj) (s : State := small 0) : State := { s with obj := o }
def pat (l t c) := o {a := 0x5000, v := 0x777} { small 0 with lasting := l, transient := t, correctable := c, dies := [(0, {ring := List.replicate 64 [1,2], lacnt := 3})] }
def gt (off : Int) (c) (ok := true) := o {off := off + 1, c := c, ok := ok} {small 0 with gtc := 500, gtcRem := 4000, gtcOff := off, node := 5, unreachable := [0]}
def fl (n : Nat) : Flit := { seq := n, packet := 4, half := false, bytes := [] }
def lk (l : Link) (ok : Bool) (b := 0) (c := 5) := o {a := 2, ok := ok, b := b, c := c} {small 0 with links := [(1, {down := true}), (2, l)], node := 40}
def fp : FabricPacket := { id := 4, node := 9, kind := .access 5, region := 1, sends := 3 }
def fm : Msg := { id := 5, kind := .store, cid := 1, slot := 0, serial := 7, region := 0x10000, va := 0, loc := {home := .node 9, addr := 0x5280}, size := 8, bytes := [], ins := .storeAck }
def fs (p : FabricPacket) (ok : Bool) : State := o {a := 4, ok := ok} {small 0 with fabric := [{fp with id := 3}, p], net := [fm]}
def cx : Slot := { live := true, serial := 9, homeNode := 0, home := 1, homeSlot := 0 }
def hc1 : State := (small 0).modSlot 1 1 fun x => { x with reserved := true, serial := 9, home := 1, homeSlot := 1, region := 0x10000, gid := 1 }
def cp (x : Slot) : FabricPacket := {fp with kind := .context x, cid := 1, slot := 0}
def ip (k : PacketKind) (f : FabricPacket → FabricPacket := id) : FabricPacket := f { id := 4, node := 9, kind := k, region := 1, addr := 0x5008, sends := 1, cid := 3, seq := 6, came := true }
def fi (p : FabricPacket) (w := 6) (a := 4) : State := o {a := a} {small 0 with fabric := [{fp with id := 3}, p], fabIn := [(9 * 4096 + 3, w)], mem := by_ 0x5000 ((List.range 40).map fun k => k + 1)}
def sb : List (Byte × Bool) := [(5,true),(6,false),(7,true)]
def rw (a v : Nat) := o {a := 0xF000000000 + a, v := BitVec.ofNat 64 v}

def c17x0 : State := (o {a := 1} { small 0 with bootStage := 0})
def c17x2 : State := (o {bytes := [1,2]} { small 0 with chain := [[9], [1,2],[3]], attLog := [[5,6]]})
def c17x3 : State := (o {} {small 0 with cxlDown := [3]})
def c17x14 : State := (pat [(1, 0x5000)] [] [(1, 0x5000)])
def c17x18 : State := (o {ok := true})
def c17x19 : State := (gt 7 3 false)
def c17x20 : State := (o {v := 0x5001})
def c17x21 : State := (o {v := 0x5000})
def c17x23 : State := (o {v := 77} {small 0 with gtc := 99, resync := 0x4001, node := 5})
def c17x25 : State := (lk {retries := 5} false)
def c17x28 : State := (lk {retries := 7, want := 9} true)
def c17x29 : State := (lk {retries := 7, buffer := [fl 4, fl 5, fl 6, fl 7], next := 8} true 1)
def c17x32 : State := (lk {retries := 7, buffer := [fl 4, fl 5]} true 2)
def c17x34 : State := (lk {retries := 7, buffer := [fl 4]} true 0)
def c17x35 : State := (lk {retries := 7, buffer := [fl 4, fl 5]} true 0)
def c17x36 : State := (lk {retries := 8, buffer := [fl 4, fl 5]} true 0)
def c17x37 : State := (lk {failed0 := true, half := true} true 1)
def c17x41 : State := (fs fp false)
def c17x45 : State := (fs (cp cx) true)
def c17x47 : State := (fs (cp {cx with homeNode := 7}) false)
def c17x48 : FabricPacket := (cp {cx with homeNode := 7})
def c17x49 : Slot := {cx with homeNode := 7}
def c17x50 : State := ({fs (cp {cx with home := 1, homeSlot := 1}) false with cores := hc1.cores})
def c17x51 : FabricPacket := (cp {cx with homeSlot := 1})
def c17x52 : Slot := {cx with homeSlot := 1}
def c17x53 : State := (fi (ip (.store sb)) 7)
def c17x54 : FabricPacket := (ip (.store sb))
def c17x55 : State := (fi (ip (.store sb)) 5)
def c17x56 : FabricPacket := (ip (.store sb))
def c17x57 : State := (fi (ip (.store sb) fun q => {q with region := 99}))
def c17x58 : FabricPacket := (ip (.store sb) fun q => {q with region := 99})
def c17x61 : State := (fi (ip (.store sb)))
def c17x62 : FabricPacket := (ip (.store sb))
def c17x63 : State := (fi (ip (.amo 0 5 6)))
def c17x64 : FabricPacket := (ip (.amo 0 5 6))
def c17x83 : State := {rw 1 5 with obj := {a := 3, v := 5}, mcast := [(3, {staged := 5, nodes := 6, version := 5})]}
def c17x84 : State := {rw 1 5 with obj := {a := 3, v := 5}, mcast := [(3, {staged := 5, nodes := 6, version := 5, pending := true})]}

theorem witness_ModuleSteps :
    -- .1
    (c17x0.obj.a = c17x0.bootStage + 1 ∧ c17x0.obj.a ≤ 3 ∧ c17x0.bootFail = 0) ∧
    -- .2.1
    (c17x2.bootStage ≠ 0 ∧ 1 ≤ c17x2.obj.bytes.length ∧ c17x2.obj.bytes.length ≤ 64) ∧
    -- .2.2.1.1
    c17x3.lasting = [] ∧
    -- .2.2.2.2.1
    c17x14.obj.ok = false ∧
    -- .2.2.2.2.2.1
    c17x18.obj.ok = true ∧
    -- .2.2.2.2.2.2.2.1.1
    c17x19.obj.ok = false ∧
    -- .2.2.2.2.2.2.2.1.2
    (gt 5 3).obj.ok = true ∧
    -- .2.2.2.2.2.2.2.2.1.2
    (c17x20.resyncStat ≠ 1 ∧ c17x20.obj.v.toNat % 4096 ≠ 0) ∧
    -- .2.2.2.2.2.2.2.2.1.1
    (c17x21.resyncStat = 1 ∨ c17x21.obj.v.toNat % 4096 = 0) ∧
    -- .2.2.2.2.2.2.2.2.2
    (frameBase c17x23.resync + 4096 * (c17x23.resync.toNat % 4096) ≤ hbmTop ∧ (c17x23.die 0).art = [] ∧ c17x23.sound = true ∧ c17x23.mem.wf = true) := by
  refine ⟨?_, ?_, ?_, ?_, ?_, ?_, ?_, ?_, ?_, ?_⟩ <;> decide +kernel

theorem witness_LinkSteps_1 :
    -- .1.1
    ((∀ (q : Transfer), q ∈ c17x25.transfers → q.sender = none) ∧ c17x25.obj.ok = false) ∧
    -- .1.2.1
    ((∀ (q : Transfer), q ∈ c17x28.transfers → q.sender = none) ∧ c17x28.obj.ok = true ∧ c17x28.obj.b = 0) ∧
    -- .1.2.2.1
    ((∀ (q : Transfer), q ∈ c17x29.transfers → q.sender = none) ∧ c17x29.obj.ok = true ∧ c17x29.obj.b = 1) ∧
    -- .1.2.2.2.1
    ((∀ (q : Transfer), q ∈ c17x32.transfers → q.sender = none) ∧ c17x32.obj.ok = true ∧ 2 ≤ c17x32.obj.b) ∧
    -- .1.2.2.2.2.1
    ((∀ (q : Transfer), q ∈ c17x34.transfers → q.sender = none) ∧ (∀ (f : Flit), f ∈ (tget c17x34.links c17x34.obj.a { : Link }).buffer → f.seq ≠ c17x34.obj.c)) ∧
    -- .1.2.2.2.2.2.1
    ((∀ (q : Transfer), q ∈ c17x35.transfers → q.sender = none) ∧ (∃ (f : Flit), f ∈ (tget c17x35.links c17x35.obj.a { : Link }).buffer ∧ f.seq = c17x35.obj.c) ∧ (tget c17x35.links c17x35.obj.a { : Link }).down = false ∧ (tget c17x35.links c17x35.obj.a { : Link }).retries < 8) ∧
    -- .1.2.2.2.2.2.2
    ((∀ (q : Transfer), q ∈ c17x36.transfers → q.sender = none) ∧ (∃ (f : Flit), f ∈ (tget c17x36.links c17x36.obj.a { : Link }).buffer ∧ f.seq = c17x36.obj.c) ∧ (tget c17x36.links c17x36.obj.a { : Link }).down = false ∧ 8 ≤ (tget c17x36.links c17x36.obj.a { : Link }).retries) ∧
    -- .2.1
    (∀ (q : Transfer), q ∈ c17x37.transfers → q.sender = none) ∧
    -- .2.2.2.1
    ((List.find? (fun (q : FabricPacket) => q.id == (fs fp true).obj.a) (fs fp true).fabric = some fp) ∧ (∀ (q : FabricPacket), q ∈ (fs fp true).fabric → q.id = fp.id → q = fp) ∧ fp.came = false ∧ fp.sends < 8 ∧ (fs fp true).refusesAll fp.node = false) := by
  refine ⟨?_, ?_, ?_, ?_, ?_, ?_, ?_, ?_, ?_⟩ <;> decide +kernel

theorem witness_LinkSteps_2 :
    -- .2.2.2.2.1.1
    (fp.kind = PacketKind.access 5 ∧ (fs fp true).msg? 5 = some fm ∧ (∀ (x : Msg), x ∈ (fs fp true).net → x.id = fm.id → x = fm) ∧ fm.kind = MsgKind.store ∧ fp.node < 1024 ∧ (fs fp true).obj.ok = true) ∧
    -- .2.2.2.2.1.2
    ((List.find? (fun (q : FabricPacket) => q.id == c17x41.obj.a) c17x41.fabric = some fp) ∧ c17x41.msg? 5 = some fm ∧ (∀ (x : Msg), x ∈ c17x41.net → x.id = fm.id → x = fm) ∧ (Instr.fabricPacketDelivery = Instr.fabricPacketDelivery ∧ c17x41.obj.ok = false ∨ Instr.fabricPacketDelivery = Instr.e2eTimeout ∧ (8 ≤ fp.sends ∨ c17x41.refusesAll fp.node = true)) ∧ c17x41.ownerOf fm.cid fm.slot fm.serial = some (fm.cid, fm.slot) ∧ (c17x41.slot fm.cid fm.slot).wait = Wait.ready) ∧
    -- .2.2.2.2.2.1.1
    ((List.find? (fun (q : FabricPacket) => q.id == c17x45.obj.a) c17x45.fabric = some (cp cx)) ∧ (cp cx).came = false ∧ (cp cx).kind = PacketKind.context cx ∧ (c17x45.obj.ok = true ∨ cx.homeNode ≠ c17x45.node ∧ (cp cx).node = cx.homeNode ∨ cx.homeNode = c17x45.node ∧ c17x45.awayFrom (c17x45.slot cx.home cx.homeSlot) = false)) ∧
    -- .2.2.2.2.2.1.2.1
    ((List.find? (fun (q : FabricPacket) => q.id == c17x47.obj.a) c17x47.fabric = some c17x48) ∧ c17x48.came = false ∧ c17x48.kind = PacketKind.context c17x49 ∧ c17x47.obj.ok = false ∧ c17x49.homeNode ≠ c17x47.node ∧ c17x48.node ≠ c17x49.homeNode ∧ c17x47.refusesAll c17x49.homeNode = false) ∧
    -- .2.2.2.2.2.1.2.2
    ((List.find? (fun (q : FabricPacket) => q.id == c17x50.obj.a) c17x50.fabric = some c17x51) ∧ c17x51.came = false ∧ c17x51.kind = PacketKind.context c17x52 ∧ c17x50.obj.ok = false ∧ c17x52.homeNode = c17x50.node ∧ c17x50.awayFrom (c17x50.slot c17x52.home c17x52.homeSlot) = true ∧ landable c17x50 c17x52.home (1024 * c17x52.homeSlot) 640 = true) := by
  refine ⟨?_, ?_, ?_, ?_, ?_⟩ <;> decide +kernel

theorem witness_LinkSteps_3 :
    -- .2.2.2.2.2.2.1.1.1
    ((List.find? (fun (q : FabricPacket) => q.id == c17x53.obj.a) c17x53.fabric = some c17x54) ∧ (∀ (q : FabricPacket), q ∈ c17x53.fabric → q.id = c17x54.id → q = c17x54) ∧ c17x54.came = true ∧ (∀ (q : FabricPacket), q ∈ c17x53.fabric → q.came = true → q = c17x54) ∧ c17x54.kind = PacketKind.store sb ∧ c17x54.seq < tget c17x53.fabIn (c17x54.node * 4096 + c17x54.cid) 0) ∧
    -- .2.2.2.2.2.2.1.1.2.1
    ((List.find? (fun (q : FabricPacket) => q.id == c17x55.obj.a) c17x55.fabric = some c17x56) ∧ (∀ (q : FabricPacket), q ∈ c17x55.fabric → q.id = c17x56.id → q = c17x56) ∧ c17x56.came = true ∧ (∀ (q : FabricPacket), q ∈ c17x55.fabric → q.came = true → q = c17x56) ∧ c17x56.kind = PacketKind.store sb ∧ tget c17x55.fabIn (c17x56.node * 4096 + c17x56.cid) 0 < c17x56.seq) ∧
    -- .2.2.2.2.2.2.1.1.2.2.1
    ((List.find? (fun (q : FabricPacket) => q.id == c17x57.obj.a) c17x57.fabric = some c17x58) ∧ (∀ (q : FabricPacket), q ∈ c17x57.fabric → q.id = c17x58.id → q = c17x58) ∧ c17x58.came = true ∧ (∀ (q : FabricPacket), q ∈ c17x57.fabric → q.came = true → q = c17x58) ∧ c17x58.kind = PacketKind.store sb ∧ c17x58.seq = tget c17x57.fabIn (c17x58.node * 4096 + c17x58.cid) 0 ∧ (c17x57.regionById c17x58.region = none ∨ hbmTop ≤ c17x58.addr)) ∧
    -- .2.2.2.2.2.2.1.1.2.2.2
    ((List.find? (fun (q : FabricPacket) => q.id == c17x61.obj.a) c17x61.fabric = some c17x62) ∧ (∀ (q : FabricPacket), q ∈ c17x61.fabric → q.id = c17x62.id → q = c17x62) ∧ c17x62.came = true ∧ (∀ (q : FabricPacket), q ∈ c17x61.fabric → q.came = true → q = c17x62) ∧ c17x62.kind = PacketKind.store sb ∧ c17x62.seq = tget c17x61.fabIn (c17x62.node * 4096 + c17x62.cid) 0 ∧ c17x61.regionById c17x62.region ≠ none ∧ c17x62.addr < hbmTop ∧ c17x61.sound = true ∧ c17x61.mem.wf = true ∧ c17x61.unwatched (c17x61.hbmLoc c17x62.addr).home (c17x61.hbmLoc c17x62.addr).addr sb.length = true) := by
  refine ⟨?_, ?_, ?_, ?_⟩ <;> decide +kernel

theorem witness_LinkSteps_4 :
    -- .2.2.2.2.2.2.1.2
    ((List.find? (fun (q : FabricPacket) => q.id == c17x63.obj.a) c17x63.fabric = some c17x64) ∧ (∀ (q : FabricPacket), q ∈ c17x63.fabric → q.id = c17x64.id → q = c17x64) ∧ c17x64.came = true ∧ (∀ (q : FabricPacket), q ∈ c17x63.fabric → q.came = true → q = c17x64) ∧ c17x64.kind = PacketKind.amo 0 5 6 ∧ c17x64.seq = tget c17x63.fabIn (c17x64.node * 4096 + c17x64.cid) 0 ∧ c17x63.regionById c17x64.region ≠ none ∧ c17x64.addr < hbmTop ∧ c17x63.sound = true ∧ c17x63.mem.wf = true ∧ c17x63.unwatched (c17x63.hbmLoc c17x64.addr).home (c17x63.hbmLoc c17x64.addr).addr 8 = true) ∧
    -- .2.2.2.2.2.2.2.2.1
    c17x83.obj.a < 24 ∧
    -- .2.2.2.2.2.2.2.2.2
    c17x84.obj.a < 24 := by
  refine ⟨?_, ?_, ?_⟩ <;> decide +kernel

end Sys2Proof.Tests.T17

namespace Sys2Proof.Tests.T18
open Sys2Proof.Machine Sys2Proof.Claims

def o (o : Obj) (s : State := small 0) : State := { s with obj := o }
def pt (e1 e2 e3 : Nat) (va : Nat) (s : State := small 0) : State :=
  let s := { s with mem := [], regions := [(0x10000, {regid := 1, ptroot := 0x40000})] }
  let w := fun (s : State) (t lvl e : Nat) => { s with mem := s.mem.write (s.hbmLoc (t + 8 * vaIndex va lvl)).addr (leBytes 8 e) }
  w (w (w s 0x40000 1 e1) 0x60000 2 e2) 0x80000 3 e3
def VA := 0x123456789abcde
def P (e1 e2 e3) := pt e1 e2 e3 VA
def ox (f : Slot → Slot) (s : State) : State := { s.modSlot 1 0 f with obj := {a := 1, b := 0, v := 7} }
def ms : Miss := { id := 3, region := 0x10000, page := VA / 65536, started := true, who := [{a := 1, b := 0, v := 7}] }
def mo (s : State) (off : Int := 1) (x : Slot → Slot := fun x => { x with wait := .walk (BitVec.ofNat 64 VA) }) : State := { s.modSlot 1 0 x with obj := {a := 0, b := 3, off := off}, dies := [(0, { misses := [{ms with id := 2, who := []}, ms] })] }
def wk := fun (x : Slot) => { x with wait := .walk (BitVec.ofNat 64 VA) }
def qm : Miss := { ms with id := 9, started := false }
def ov (l : List Miss) (o : List Miss) : State := { small 0 with dies := [(2, {misses := l, overflow := o})], obj := {a := 2} }
def wf := fun (x : Slot) => { x with wait := .fetch, pc := BitVec.ofNat 64 VA }
def ar (v : Nat) (e : ArtEntry := {base := 0x100000, size := 0x100000, choff := 1000000000 - 0x80000}) := o {a := 5, v := BitVec.ofNat 64 v} { small 0 with art := [(5, e)] }
def ad (c d : Nat) (v : Nat) : State := { ar v with obj := {a := 5, b := d + 1, c := c, v := BitVec.ofNat 64 v}, dies := [(2, {art := [(5, {base := 0x100000, size := 0x100000, choff := 1000000000 - 0x80000})]}), (3, {art := [(5, {ctrl := 0x80000000})]})] }
def es : List TlbEntry := [⟨0x10000, 0x10000, 65536, 0xa0000, true, true, 0⟩, ⟨0x10000, 0x20000, 65536, 0xa0000, true, true, 0⟩,⟨0x10000, 0x20000000, 65536, 0xa0000, true, true, 0⟩, ⟨0x10000, 0, 0x20000000, 0xa0000, true, true, 0⟩,⟨0x20000, 0x10000, 65536, 0xa0000, true, true, 0⟩]
def iv (b : Bool) : State := { ((small 0).modCore 1 fun c => {c with tlb := es, itlb := es}) with invStat := b, invAddr := 0x1FFFF, dies := [(0, {tlb := es})], obj := {a := 1} }
def mm : Msg := { id := 5, kind := .store, cid := 1, slot := 0, serial := 7, region := 0x10000, va := 0, loc := {home := .slice 9, addr := 0x5280}, size := 8, bytes := [], ins := .storeAck }
def po (x : Obj) (s : State := small 0) (p : Port := {gid := 4, region := some 0x10000}) : State := { s with obj := x, ports := [(3, p)] }
def rcb (l : List (Nat × Nat)) (at_ : Nat := 0x20000) (s : State := po {a := 3, v := 0x20000}) : State := l.reverse.foldl (fun (s : State) (a, v) => s.writeHbm (at_ + a) [BitVec.ofNat 8 v]) s
def good : List (Nat × Nat) := [(2,1),(8,5),(12,0xff),(13,0xff),(14,0x80),(15,0xff),(18,4),(26,8),(33,0x10),(36,2),(38,0xff),(40,0xff),(41,0xff),(42,1)]
def good2 := [(15,1)] ++ good
def A0 := 0x100000
def base (x : Obj) : State := { (pt 0x60001 0x80001 0xa000f A0) with ports := [(3, {gid := 4, region := some 0x10000})], obj := x, groups := [], nextGid := 5 }
def rec_ (r h : List (Nat × Nat)) (x : Obj := {a := 3, v := 0x100000}) : State := rcb h 0xa0100 (rcb r 0xa0000 (base x))
def R0 : List (Nat × Nat) := [(1,1),(2,0x10)]
def H0 : List (Nat × Nat) := [(8,1),(10,1),(26,0x10)]
def H (k : Nat) := H0 ++ [(12,k)]
def gp (r := 0x10000) (st : GState := .running) : Group := { gid := 1, region := r, header := {nsafe := 5}, mode := {det := true}, pitch := [1], state := st }
def gs (v : Nat) (g : Group) : State := { po {a := 3, v := BitVec.ofNat 64 v} with groups := [(1, g)], queue := [1], regions := [(0x10000, {regid := 1, bivn := 2, bivouac := 0x80000, framesz := 0x10000})] }

def c18x0 : State := (P 0x60001 0x80001 0xa000f)
def c18x6 : State := (P 0x60001 0x20000027 0)
def c18x8 : State := (P 0x60001 0x20000026 0)
def c18x9 : State := (P 0x60003 0x20000026 0)
def c18x11 : State := (mo (P 0x60001 0x80001 0xa000e))
def c18x12 : Word := (BitVec.ofNat 64 VA)
def c18x13 : State := (mo (P 0x60001 0x80001 0xa000e))
def c18x14 : Word := (BitVec.ofNat 64 VA)
def c18x15 : State := (mo (P 0x60001 0x80001 0xa000f))
def c18x16 : Word := (BitVec.ofNat 64 VA)
def c18x17 : TlbEntry := ⟨0x10000, VA/65536*65536, 65536, 0xa0000, true, true, 0⟩
def c18x23 : State := { ox wk (small 0) with obj := {a := 1, b := 0, v := 8} }
def c18x24 : State := { ox wk (small 0) with obj := {a := 1, b := 0, v := 8} }
def c18x25 : State := (ov (List.replicate 4096 {ms with started := false}) [qm])
def c18x26 : State := (ov [ms] [qm])
def c18x28 : State := (ox wf (P 0x60001 0x80001 0xa000f))
def c18x30 : State := (ar 0x80C10002)
def c18x37 : State := {iv true with net := [mm], obj := {c := 5}}
def c18x38 : State := {iv true with net := [mm], obj := {c := 6}}
def c18x39 : State := (po {a := 1024})
def c18x41 : State := { po {a := 3} with bootStage := 2}
def c18x42 : State := (po {a := 3} (small 0) {gid := 4})
def c18x43 : Region := (((rcb good2).newRegion 0x20000).getD {})
def c18x44 : State := (rcb ([(250,1)] ++ good2))
def c18x50 : State := (rec_ R0 (H 1))
def c18x51 : State := (rec_ (R0 ++ [(16,1)]) H0)
def c18x52 : State := (rec_ R0 (H0 ++ [(72,1)]))
def c18x54 : State := (rec_ (R0 ++ [(20,1)]) (H0))
def c18x58 : State := (gs 1 (gp 5))
def c18x59 : State := (gs 1 (gp 5))
def c18x60 : State := (gs 1 (gp 0x10000 .queued))
def c18x61 : Group := (gp 0x10000 .queued)
def c18x62 : State := (gs 0xFFFFFFFF gp)
/-- The launch record that a port names, and the header that the record names. -/
def recBytes (s : State) : List Byte := s.regionBytes 0x10000 s.obj.v 64
def hdrBytes (s : State) : List Byte := s.regionBytes 0x10000 (BitVec.ofNat 64 (fieldOf (recBytes s) 0 8)) 256
def hdrOf (s : State) : Header := parseHeader (BitVec.ofNat 64 (fieldOf (recBytes s) 0 8)) (hdrBytes s)


theorem witness_TranslationSteps_1 :
    -- .1.2.2.2
    (c18x0.effPtroot 65536 ≠ 0 ∧ c18x0.sound = true ∧ c18x0.effPtroot 65536 < hbmTop ∧ entryGood (c18x0.pte (c18x0.effPtroot 65536) 1 VA 0) ∧ c18x0.pte (c18x0.effPtroot 65536) 1 VA 0 / 2 % 2 = 0 ∧ entryFrame (c18x0.pte (c18x0.effPtroot 65536) 1 VA 0) < hbmTop ∧ entryGood (c18x0.pte (entryFrame (c18x0.pte (c18x0.effPtroot 65536) 1 VA 0)) 2 VA 0) ∧ c18x0.pte (entryFrame (c18x0.pte (c18x0.effPtroot 65536) 1 VA 0)) 2 VA 0 / 2 % 2 = 0) ∧
    -- .1.2.2.1
    (c18x6.effPtroot 65536 ≠ 0 ∧ c18x6.sound = true ∧ c18x6.effPtroot 65536 < hbmTop ∧ entryGood (c18x6.pte (c18x6.effPtroot 65536) 1 VA 0) ∧ c18x6.pte (c18x6.effPtroot 65536) 1 VA 0 / 2 % 2 = 0 ∧ entryFrame (c18x6.pte (c18x6.effPtroot 65536) 1 VA 0) < hbmTop ∧ entryGood (c18x6.pte (entryFrame (c18x6.pte (c18x6.effPtroot 65536) 1 VA 0)) 2 VA 0) ∧ c18x6.pte (entryFrame (c18x6.pte (c18x6.effPtroot 65536) 1 VA 0)) 2 VA 0 / 2 % 2 = 1) ∧
    -- .1.2.1
    (c18x8.effPtroot 65536 ≠ 0 ∧ c18x8.sound = true ∧ c18x8.effPtroot 65536 < hbmTop ∧ entryGood (c18x8.pte (c18x8.effPtroot 65536) 1 VA 0) ∧ c18x8.pte (c18x8.effPtroot 65536) 1 VA 0 / 2 % 2 = 0 ∧ entryFrame (c18x8.pte (c18x8.effPtroot 65536) 1 VA 0) < hbmTop ∧ (¬entryGood (c18x8.pte (entryFrame (c18x8.pte (c18x8.effPtroot 65536) 1 VA 0)) 2 VA 0))) ∧
    -- .1.1
    (c18x9.effPtroot 65536 ≠ 0 ∧ c18x9.sound = true ∧ (hbmTop ≤ c18x9.effPtroot 65536 ∨ ¬entryGood (c18x9.pte (c18x9.effPtroot 65536) 1 VA 0) ∨ c18x9.pte (c18x9.effPtroot 65536) 1 VA 0 / 2 % 2 = 1 ∨ hbmTop ≤ entryFrame (c18x9.pte (c18x9.effPtroot 65536) 1 VA 0))) ∧
    -- .2.1.1
    (c18x11.sound = true ∧ (c18x11.slot 1 0).wait = Wait.walk c18x12 ∧ (c18x11.obj = { a := 1, v := BitVec.ofNat 64 (c18x11.slot 1 0).serial : Obj } ∨ c18x11.obj = { a := dieOf 1, b := ms.id, off := 1 : Obj } ∧ ms ∈ (c18x11.die (dieOf 1)).misses ∧ ms.started = true ∧ ms.who = [{ a := 1, v := BitVec.ofNat 64 (c18x11.slot 1 0).serial : Obj }] ∧ ∀ (n : Miss), n ∈ (c18x11.die (dieOf 1)).misses → n = ms ∨ n.id ≠ ms.id ∧ n.started = true) ∧ c18x11.obj.off = 1) := by
  refine ⟨?_, ?_, ?_, ?_, ?_⟩ <;> decide +kernel

theorem witness_TranslationSteps_2 :
    -- .2.1.2.1
    (c18x13.sound = true ∧ (c18x13.slot 1 0).wait = Wait.walk c18x14 ∧ (c18x13.obj = { a := 1, v := BitVec.ofNat 64 (c18x13.slot 1 0).serial : Obj } ∨ c18x13.obj = { a := dieOf 1, b := ms.id, off := 1 : Obj } ∧ ms ∈ (c18x13.die (dieOf 1)).misses ∧ ms.started = true ∧ ms.who = [{ a := 1, v := BitVec.ofNat 64 (c18x13.slot 1 0).serial : Obj }] ∧ ∀ (n : Miss), n ∈ (c18x13.die (dieOf 1)).misses → n = ms ∨ n.id ≠ ms.id ∧ n.started = true) ∧ (((tlbLookup (c18x13.die (dieOf 1)).tlb (c18x13.slot 1 0).region (BitVec.toNat c18x14)).orElse fun (x : Unit) => c18x13.walk (c18x13.slot 1 0).region (BitVec.toNat c18x14) (dieOf 1)) = none)) ∧
    -- .2.1.2.2
    (c18x15.sound = true ∧ (c18x15.slot 1 0).wait = Wait.walk c18x16 ∧ (c18x15.obj = { a := 1, v := BitVec.ofNat 64 (c18x15.slot 1 0).serial : Obj } ∨ c18x15.obj = { a := dieOf 1, b := ms.id, off := 1 : Obj } ∧ ms ∈ (c18x15.die (dieOf 1)).misses ∧ ms.started = true ∧ ms.who = [{ a := 1, v := BitVec.ofNat 64 (c18x15.slot 1 0).serial : Obj }] ∧ ∀ (n : Miss), n ∈ (c18x15.die (dieOf 1)).misses → n = ms ∨ n.id ≠ ms.id ∧ n.started = true) ∧ (((tlbLookup (c18x15.die (dieOf 1)).tlb (c18x15.slot 1 0).region (BitVec.toNat c18x16)).orElse fun (x : Unit) => c18x15.walk (c18x15.slot 1 0).region (BitVec.toNat c18x16) (dieOf 1)) = some c18x17)) ∧
    -- .2.2.1.1
    (c18x23.obj.ok = false ∧ c18x23.obj.c = 0 ∧ c18x23.obj.off = 0 ∧ c18x23.obj.v ≠ BitVec.ofNat 64 (c18x23.slot c18x23.obj.a c18x23.obj.b).serial) ∧
    -- .2.2.1.2
    (c18x24.obj.ok = false ∧ c18x24.obj.c = 0 ∧ c18x24.obj.off = 0 ∧ c18x24.obj.v ≠ BitVec.ofNat 64 (c18x24.slot c18x24.obj.a c18x24.obj.b).serial) ∧
    -- .2.2.2.1.1
    ((ov [ms] []).die (ov [ms] []).obj.a).overflow = [] ∧
    -- .2.2.2.1.2.1
    ((c18x25.die c18x25.obj.a).overflow = [qm] ∧ (4096 ≤ (List.filter (fun (n : Miss) => !n.started) (c18x25.die c18x25.obj.a).misses).length)) ∧
    -- .2.2.2.1.2.2
    ((c18x26.die c18x26.obj.a).overflow = [qm] ∧ ((List.filter (fun (n : Miss) => !n.started) (c18x26.die c18x26.obj.a).misses).length = 0) ∧ qm.started = false ∧ (∀ (n : Miss), n ∈ (c18x26.die c18x26.obj.a).misses → n.id ≠ qm.id)) ∧
    -- .2.2.2.2.1
    (stepContext c18x28 1 0 ∧ (c18x28.slot 1 0).wait = Wait.fetch ∧ ((c18x28.slot 1 0).mode.det = true → c18x28.missingWord 1 (c18x28.slot 1 0) = some 0)) ∧
    -- .2.2.2.2.2.1.1
    (c18x30.obj.a < 64 ∧ c18x30.obj.b = 0) := by
  refine ⟨
    by decide +kernel,
    by decide +kernel,
    by decide +kernel,
    by decide +kernel,
    by decide +kernel,
    by decide +kernel,
    by decide +kernel,
    ⟨by delta stepContext; decide +kernel, by decide +kernel⟩,
    by decide +kernel⟩

theorem witness_TranslationSteps_3 :
    -- .2.2.2.2.2.1.2
    ((ad 0 2 5).obj.a < 64 ∧ (ad 0 2 5).obj.b = 2 + 1 ∧ (ad 0 2 5).obj.c ∈ [0, 8, 16, 24]) ∧
    -- .2.2.2.2.2.2.1.2
    (Instr.invalidatePage ∈ [Instr.invalidatePage, Instr.invalidateRange, Instr.invalidateRegion, Instr.invalidateAll] ∧ (iv false).invStat = false) ∧
    -- .2.2.2.2.2.2.1.1
    (Instr.invalidateAll ∈ [Instr.invalidatePage, Instr.invalidateRange, Instr.invalidateRegion, Instr.invalidateAll] ∧ (iv true).invStat = true) ∧
    -- .2.2.2.2.2.2.2.1
    ((∀ (m : Msg), m ∈ c18x37.net → m.id < c18x37.obj.c → m.performed = true) ∧ (∀ (p : Nat × Cluster), p ∈ c18x37.clusters → ∀ (e : Entry), e ∈ p.snd.queue → e.id < c18x37.obj.c → e.started = true ∨ e.units = []) ∧ (∀ (p : Nat × Core), p ∈ c18x37.cores → ∀ (q : Nat × Slot), q ∈ p.snd.slots → q.snd.wait = Wait.ready)) ∧
    -- .2.2.2.2.2.2.2.2
    (∃ (m : Msg), m ∈ c18x38.net ∧ m.id < c18x38.obj.c ∧ m.performed = false ∧ ∀ (c : Nat), m.loc.home ≠ Home.scratch c) := by
  refine ⟨
    by decide +kernel,
    by decide +kernel,
    by decide +kernel,
    by decide +kernel,
    ⟨_, .head _, by decide +kernel, by decide +kernel, fun _ => Home.noConfusion⟩⟩

theorem witness_LaunchPorts_1 :
    -- .1.1
    ((¬portOpen c18x39) ∧ Instr.portRcb ∈ [Instr.portRcb, Instr.portLaunch, Instr.portPreempt, Instr.portKill]) ∧
    -- .1.2.1
    (portOpen c18x41 ∧ Instr.portKill ∈ [Instr.portRcb, Instr.portLaunch, Instr.portPreempt, Instr.portKill] ∧ c18x41.bootStage = 2) ∧
    -- .1.2.2
    (portOpen c18x42 ∧ Instr.portPreempt ∈ [Instr.portRcb, Instr.portLaunch, Instr.portPreempt, Instr.portKill] ∧ Instr.portPreempt ≠ Instr.portRcb ∧ (c18x42.port c18x42.obj.a).region = none) ∧
    -- .2.1.2
    (portOpen (rcb good2) ∧ 3 ≤ (rcb good2).bootStage ∧ (rcb good2).newRegion (rcb good2).obj.v.toNat = some c18x43) ∧
    -- .2.1.1
    (portOpen c18x44 ∧ 3 ≤ c18x44.bootStage ∧ (c18x44.obj.v.toNat % 512 ≠ 0 ∨ hbmTop < c18x44.obj.v.toNat + 512 ∨ fieldOf (c18x44.readHbm c18x44.obj.v.toNat 512) 8 4 = 0 ∨ 63 < fieldOf (c18x44.readHbm c18x44.obj.v.toNat 512) 12 1 ∧ fieldOf (c18x44.readHbm c18x44.obj.v.toNat 512) 12 1 ≠ 255 ∨ 63 < fieldOf (c18x44.readHbm c18x44.obj.v.toNat 512) 13 1 ∧ fieldOf (c18x44.readHbm c18x44.obj.v.toNat 512) 13 1 ≠ 255 ∨ 2 < fieldOf (c18x44.readHbm c18x44.obj.v.toNat 512) 15 1 ∨ fieldOf (c18x44.readHbm c18x44.obj.v.toNat 512) 24 8 % 4096 ≠ 0 ∨ fieldOf (c18x44.readHbm c18x44.obj.v.toNat 512) 32 4 % 4096 ≠ 0 ∨ fieldOf (c18x44.readHbm c18x44.obj.v.toNat 512) 42 2 = 0 ∨ fieldOf (c18x44.readHbm c18x44.obj.v.toNat 512) 240 272 ≠ 0 ∨ fieldOf (c18x44.readHbm c18x44.obj.v.toNat 512) 0 8 ≠ 0 ∧ ((tfind c18x44.regions (fieldOf (c18x44.readHbm c18x44.obj.v.toNat 512) 0 8)).isNone = true ∨ c18x44.isAncestor c18x44.obj.v.toNat (fieldOf (c18x44.readHbm c18x44.obj.v.toNat 512) 0 8) = true))) := by
  refine ⟨
    ⟨by delta portOpen; decide +kernel, by decide +kernel⟩,
    ⟨by delta portOpen; decide +kernel, by decide +kernel⟩,
    ⟨by delta portOpen; decide +kernel, by decide +kernel⟩,
    ⟨by delta portOpen; decide +kernel, by decide +kernel⟩,
    ⟨by delta portOpen; decide +kernel, by decide +kernel⟩⟩

theorem witness_LaunchPorts_2 :
    -- .2.2.1.2.2.2.2
    portOpen (rec_ R0 H0) ∧ 3 ≤ (rec_ R0 H0).bootStage ∧ ((rec_ R0 H0).port (rec_ R0 H0).obj.a).region = some 65536 ∧ (rec_ R0 H0).effEvbase 65536 = 0 ∧ (rec_ R0 H0).sound = true ∧ (rec_ R0 H0).obj.v.toNat % 64 = 0 ∧ ((rec_ R0 H0).deviceRead 65536 (rec_ R0 H0).obj.v.toNat 64).fst = true ∧ (launchFault (recBytes (rec_ R0 H0))).isNone = true ∧ fieldOf (recBytes (rec_ R0 H0)) 20 4 = 0 ∧ (BitVec.ofNat 64 (fieldOf (recBytes (rec_ R0 H0)) 0 8)).toNat % 256 = 0 ∧ (BitVec.ofNat 64 (fieldOf (recBytes (rec_ R0 H0)) 8 8) = 0 ∨ (rec_ R0 H0).regionPlace 65536 (BitVec.ofNat 64 (fieldOf (recBytes (rec_ R0 H0)) 8 8)) = some 65536) ∧ ((rec_ R0 H0).deviceRead 65536 (BitVec.ofNat 64 (fieldOf (recBytes (rec_ R0 H0)) 24 8)).toNat (64 * fieldOf (recBytes (rec_ R0 H0)) 32 1)).fst = true ∧ ((rec_ R0 H0).deviceRead 65536 (BitVec.ofNat 64 (fieldOf (recBytes (rec_ R0 H0)) 0 8)).toNat 256).fst = true ∧ ((rec_ R0 H0).headerValid 65536 (hdrOf (rec_ R0 H0)) (hdrBytes (rec_ R0 H0))).fst = true ∧ shapeCores (fieldOf (recBytes (rec_ R0 H0)) 16 1) (fieldOf (recBytes (rec_ R0 H0)) 17 1) (fieldOf (recBytes (rec_ R0 H0)) 18 1) = (hdrOf (rec_ R0 H0)).cores ∧ ((hdrOf (rec_ R0 H0)).detreq = 0 ∨ ((hdrOf (rec_ R0 H0)).detreq = 1 ↔ ((rec_ R0 H0).effModeb 65536).getLsbD 0 = true)) ∧ (rec_ R0 H0).groups = [] ∧ (rec_ R0 H0).nextGid ≠ 0 ∧ (rec_ R0 H0).nextGid < 2 ^ 32 := by
  exact ⟨by delta portOpen; decide +kernel, by decide +kernel⟩

theorem witness_LaunchPorts_3 :
    -- .2.2.1.2.2.2.1
    (portOpen c18x50 ∧ 3 ≤ c18x50.bootStage ∧ (c18x50.port c18x50.obj.a).region = some 65536 ∧ c18x50.effEvbase 65536 = 0 ∧ c18x50.sound = true ∧ c18x50.obj.v.toNat % 64 = 0 ∧ (c18x50.deviceRead 65536 c18x50.obj.v.toNat 64).fst = true ∧ (launchFault (recBytes c18x50)).isNone = true ∧ fieldOf (recBytes c18x50) 20 4 = 0 ∧ (BitVec.ofNat 64 (fieldOf (recBytes c18x50) 0 8)).toNat % 256 = 0 ∧ (BitVec.ofNat 64 (fieldOf (recBytes c18x50) 8 8) = 0 ∨ c18x50.regionPlace 65536 (BitVec.ofNat 64 (fieldOf (recBytes c18x50) 8 8)) = some 65536) ∧ (c18x50.deviceRead 65536 (BitVec.ofNat 64 (fieldOf (recBytes c18x50) 24 8)).toNat (64 * fieldOf (recBytes c18x50) 32 1)).fst = true ∧ (c18x50.deviceRead 65536 (BitVec.ofNat 64 (fieldOf (recBytes c18x50) 0 8)).toNat 256).fst = true ∧ (c18x50.headerValid 65536 (hdrOf c18x50) (hdrBytes c18x50)).fst = true ∧ shapeCores (fieldOf (recBytes c18x50) 16 1) (fieldOf (recBytes c18x50) 17 1) (fieldOf (recBytes c18x50) 18 1) = (hdrOf c18x50).cores ∧ (hdrOf c18x50).detreq ≠ 0 ∧ ((hdrOf c18x50).detreq = 1 ↔ (c18x50.effModeb 65536).getLsbD 0 = false)) ∧
    -- .2.2.1.2.2.1
    (portOpen c18x51 ∧ 3 ≤ c18x51.bootStage ∧ (c18x51.port c18x51.obj.a).region = some 65536 ∧ c18x51.effEvbase 65536 = 0 ∧ c18x51.sound = true ∧ c18x51.obj.v.toNat % 64 = 0 ∧ (c18x51.deviceRead 65536 c18x51.obj.v.toNat 64).fst = true ∧ (launchFault (recBytes c18x51)).isNone = true ∧ fieldOf (recBytes c18x51) 20 4 = 0 ∧ (BitVec.ofNat 64 (fieldOf (recBytes c18x51) 0 8)).toNat % 256 = 0 ∧ (BitVec.ofNat 64 (fieldOf (recBytes c18x51) 8 8) = 0 ∨ c18x51.regionPlace 65536 (BitVec.ofNat 64 (fieldOf (recBytes c18x51) 8 8)) = some 65536) ∧ (c18x51.deviceRead 65536 (BitVec.ofNat 64 (fieldOf (recBytes c18x51) 24 8)).toNat (64 * fieldOf (recBytes c18x51) 32 1)).fst = true ∧ (c18x51.deviceRead 65536 (BitVec.ofNat 64 (fieldOf (recBytes c18x51) 0 8)).toNat 256).fst = true ∧ (c18x51.headerValid 65536 (hdrOf c18x51) (hdrBytes c18x51)).fst = true ∧ shapeCores (fieldOf (recBytes c18x51) 16 1) (fieldOf (recBytes c18x51) 17 1) (fieldOf (recBytes c18x51) 18 1) ≠ (hdrOf c18x51).cores) := by
  refine ⟨
    ⟨by delta portOpen; decide +kernel, by decide +kernel⟩,
    ⟨by delta portOpen; decide +kernel, by decide +kernel⟩⟩

theorem witness_LaunchPorts_4 :
    -- .2.2.1.2.1
    (portOpen c18x52 ∧ 3 ≤ c18x52.bootStage ∧ (c18x52.port c18x52.obj.a).region = some 65536 ∧ c18x52.effEvbase 65536 = 0 ∧ c18x52.sound = true ∧ c18x52.obj.v.toNat % 64 = 0 ∧ (c18x52.deviceRead 65536 c18x52.obj.v.toNat 64).fst = true ∧ (launchFault (recBytes c18x52)).isNone = true ∧ fieldOf (recBytes c18x52) 20 4 = 0 ∧ (BitVec.ofNat 64 (fieldOf (recBytes c18x52) 0 8)).toNat % 256 = 0 ∧ (BitVec.ofNat 64 (fieldOf (recBytes c18x52) 8 8) = 0 ∨ c18x52.regionPlace 65536 (BitVec.ofNat 64 (fieldOf (recBytes c18x52) 8 8)) = some 65536) ∧ (c18x52.deviceRead 65536 (BitVec.ofNat 64 (fieldOf (recBytes c18x52) 24 8)).toNat (64 * fieldOf (recBytes c18x52) 32 1)).fst = true ∧ ((c18x52.deviceRead 65536 (BitVec.ofNat 64 (fieldOf (recBytes c18x52) 0 8)).toNat 256).fst = false ∨ (c18x52.headerValid 65536 (hdrOf c18x52) (hdrBytes c18x52)).fst = false)) ∧
    -- .2.2.1.1
    (portOpen c18x54 ∧ 3 ≤ c18x54.bootStage ∧ (c18x54.port c18x54.obj.a).region = some 65536 ∧ c18x54.effEvbase 65536 = 0 ∧ c18x54.sound = true ∧ (c18x54.obj.v.toNat % 64 ≠ 0 ∨ (c18x54.deviceRead 65536 c18x54.obj.v.toNat 64).fst = false ∨ (launchFault (recBytes c18x54)).isSome = true ∨ fieldOf (recBytes c18x54) 20 4 ≠ 0 ∨ (BitVec.ofNat 64 (fieldOf (recBytes c18x54) 0 8)).toNat % 256 ≠ 0 ∨ BitVec.ofNat 64 (fieldOf (recBytes c18x54) 8 8) ≠ 0 ∧ c18x54.regionPlace 65536 (BitVec.ofNat 64 (fieldOf (recBytes c18x54) 8 8)) ≠ some 65536 ∨ (c18x54.deviceRead 65536 (BitVec.ofNat 64 (fieldOf (recBytes c18x54) 24 8)).toNat (64 * fieldOf (recBytes c18x54) 32 1)).fst = false)) ∧
    -- .2.2.2.1.1
    (portOpen c18x58 ∧ 3 ≤ c18x58.bootStage ∧ (c18x58.port c18x58.obj.a).region = some 65536 ∧ c18x58.obj.v.toNat % 2 ^ 32 = 1 ∧ c18x58.group? 1 = some (gp 5) ∧ (gp 5).gid = 1 ∧ ((gp 5).region ≠ 65536 ∨ c18x58.preemptible (gp 5) 0 = false)) := by
  refine ⟨
    ⟨by delta portOpen; decide +kernel, by decide +kernel⟩,
    ⟨by delta portOpen; decide +kernel, by decide +kernel⟩,
    ⟨by delta portOpen; decide +kernel, by decide +kernel⟩⟩

theorem witness_LaunchPorts_5 :
    -- .2.2.2.1.2
    (portOpen (gs 1 gp) ∧ 3 ≤ (gs 1 gp).bootStage ∧ ((gs 1 gp).port (gs 1 gp).obj.a).region = some 65536 ∧ (gs 1 gp).obj.v.toNat % 2 ^ 32 = 1 ∧ (gs 1 gp).group? 1 = some gp ∧ gp.gid = 1 ∧ gp.region = 65536 ∧ gp.state = GState.running ∧ gp.preempt = false ∧ (gs 1 gp).preemptible gp 0 = true) ∧
    -- .2.2.2.2.1.1
    (portOpen c18x59 ∧ 3 ≤ c18x59.bootStage ∧ (c18x59.port c18x59.obj.a).region = some 65536 ∧ c18x59.obj.v.toNat % 2 ^ 32 = 1 ∧ 1 ≠ 4294967295 ∧ c18x59.group? 1 = some (gp 5) ∧ (gp 5).region ≠ 65536) ∧
    -- .2.2.2.2.1.2.2
    (portOpen c18x60 ∧ 3 ≤ c18x60.bootStage ∧ (c18x60.port c18x60.obj.a).region = some 65536 ∧ c18x60.obj.v.toNat % 2 ^ 32 = 1 ∧ c18x60.group? 1 = some c18x61 ∧ c18x61.gid = 1 ∧ c18x61.region = 65536 ∧ c18x61.state = GState.queued) ∧
    -- .2.2.2.2.2.1
    (portOpen c18x62 ∧ 3 ≤ c18x62.bootStage ∧ (c18x62.port c18x62.obj.a).region = some 65536 ∧ c18x62.obj.v.toNat % 2 ^ 32 = 4294967295) := by
  refine ⟨
    ⟨by delta portOpen; decide +kernel, by decide +kernel⟩,
    ⟨by delta portOpen; decide +kernel, by decide +kernel⟩,
    ⟨by delta portOpen; decide +kernel, by decide +kernel⟩,
    ⟨by delta portOpen; decide +kernel, by decide +kernel⟩⟩

end Sys2Proof.Tests.T18

namespace Sys2Proof.Tests.T19
open Sys2Proof.Machine Sys2Proof.Claims

def sl (f : Slot → Slot) (o : Obj := {a := 1, b := 0}) (s : State := small 0) : State := { s.modSlot 1 0 f with obj := o }
def dp := fun (x : Slot) => { x with wait := .depart 9 0x777 }
def dg := fun (x : Slot) => { x with wait := .depart 9 0x777, guest := true, homeNode := 7, frame := [(3, 4)] }
def gx : Slot := { live := true, serial := 3, homeNode := 7, homeSlot := 2, home := 0x55, guest := true, frame := [(3,4)], pc := 0x123400, gid := 9, mode := {gov := true}, perr := 5 }
def gp (f : FabricPacket → FabricPacket := id) (x : Slot := gx) : FabricPacket := f { id := 4, node := 7, kind := .context x, region := 1, addr := 0x5000, cid := 1, slot := 0, came := true }
def gs (p : FabricPacket) (s : State := small 0) : State := { s with obj := {a := 4}, fabric := [{gp with id := 3, came := false}, p], serial := 20 }
def nd : State := let s := small 0; {s with groups := s.groups.map fun (k, g) => (k, {g with mode := {}, header := {contexts := 3}, pitch := [208]}), cores := [(208, {gid := 1, on := true, rank := 0})] }
def full (n := 256) : State := { nd with cores := (List.range n).map fun c => (c, {gid := 1, on := true}), groups := nd.groups.map fun (k, g) => (k, {g with header := {contexts := 16}}) }
def gh := fun (x : Slot) => { x with wait := .goHome none, guest := true, homeNode := 7, home := 0x55, homeSlot := 3, frame := [(3, 4)] }
def hx : Slot := { gx with homeNode := 0, home := 1, homeSlot := 0, wait := .goHome none }
def gr (st : GState) (f : Group → Group := id) : Group := f { gid := 1, region := 0x10000, header := {nsafe := 5, entry := 0x10000}, mode := {det := true}, pitch := [1], state := st }
def sg (st : GState) (f : Group → Group := id) (s : State := small 0) (o : Obj := {a := 1}) : State := { s with groups := [(1, gr st f)], obj := o }
def q1 (f : Group → Group := id) : Group := gr .queued fun g => f {g with shape := 1, die := 0, pitch := []}
def qs (g : Group) : State := { small 0 with groups := [(1, g)], queue := [1], cores := [(0, {excluded := true}), (2, {on := true, nextCycle := 77}), (3, {tlb := [⟨1,2,3,4,true,true,0⟩], vlim := 5}), (7, {gid := 3, on := true})] }
def pt (e1 e2 e3 : Nat) (va : Nat) (s : State := small 0) : State :=
  let s := { s with mem := [], regions := [(0x10000, {regid := 1, ptroot := 0x40000})] }
  let w := fun (s : State) (t lvl e : Nat) => { s with mem := s.mem.write (s.hbmLoc (t + 8 * vaIndex va lvl)).addr (leBytes 8 e) }
  w (w (w s 0x40000 1 e1) 0x60000 2 e2) 0x80000 3 e3
def hd : Header := {nsafe := 5, safetab := 0x100010, savesz := 640, cores := 1}
def f1 := fun (g : Group) => {g with header := hd, frame := some 0x104000}
def s2 (st : GState) (f : Slot → Slot := id) (e3 := 0xa000f) : State := let s := pt 0x60001 0x80001 e3 0x100000; let s := s.writeHbm 0xa0030 [0x34,0x12,0,0,0,0,0,0]; sg st f1 (s.modSlot 1 0 fun x => f { x with stopped := some (some 2)})
def pp (d c) := {sg .stopping (fun g => {g with preempt := true, deadline := d}) with obj := {a := 1, c := c}}
def pq (d) := gr .stopping (fun g => {g with preempt := true, deadline := d})
def sv : Saved := { accs := [(0, [(3, (7, 8))])], mbs := [(0, [(4, {count := 5})])], hs := [(0, [(6, {state := .full})])], rdv := [(3, {})], bytes := List.replicate 4096 0, slots := [(0, [(0, {pc := 0x100040, phases := [(3, 9)]})])] }
def f2 (v : Saved) := fun (g : Group) => {g with header := {nsafe := 5, cores := 0}, frame := some 0x104000, saved := some v}
def rs (f : Slot → Slot := id) (e3 := 0xa000f) (v : Saved := sv) : State := sg .restoring (f2 v) ((pt 0x60001 0x80001 e3 0x100000).modSlot 1 0 fun x => f { x with stopped := some (some 2), wait := .walk 5})
def rg (v : Saved := sv) := gr .restoring (f2 v)
def rd (s : State) (g : Group) : List Byte × State := okOf (s.readFrame g.region (g.frame.getD 0) (4096 + 4096 * g.header.cores)) ([], s)
def rx (s : State) (g : Group) : TrapInfo := errOf (s.readFrame g.region (g.frame.getD 0) (4096 + 4096 * g.header.cores)) { cause := .illegal, tval := 0 }
def sw : Saved := { sv with bytes := [] }

def c19x0 : State := (sl fun x => {dp x with live := false})
def c19x2 : State := {sl dp with unreachable := [9]}
def c19x3 : State := (gs gp {small 0 with regions := []})
def c19x6 : State := (sl fun x => {gh x with live := false})
def c19x7 : State := (gs (gp id hx))
def c19x8 : State := (gs (gp id hx) (sl fun x => {x with live := false, reserved := true, wait := .away}))
def c19x9 : State := (sg .running)
def c19x10 : Group := (gr .running)
def c19x11 : State := {sg .releasing with groups := (sg .releasing).groups ++ [(2, gr .running)]}
def c19x12 : Group := (gr .releasing)
def c19x13 : State := (qs (q1 fun g => {g with header := {features := 0xFFFF}}))
def c19x14 : Group := (q1 fun g => {g with header := {features := 0xFFFF}})
def c19x15 : State := (qs (q1 fun g => {g with header := {cores := 4000}, budgets := [(5, 3999)]}))
def c19x16 : Group := (q1 fun g => {g with header := {cores := 4000}, budgets := [(5, 3999)]})
def c19x17 : Group := {q1 with die := 7, shape := 0}
def c19x18 : State := (sg .stopping)
def c19x19 : Group := (gr .stopping)
def c19x20 : State := (s2 .stopping)
def c19x21 : Group := (gr .stopping f1)
def c19x22 : Group := (gr .saving f1)
def c19x23 : State := (s2 .saving fun x => {x with routine := some .save})
def c19x24 : Group := (gr .saving f1)
def c19x25 : Group := (gr .saving f1)
def c19x28 : State := (rs fun x => {x with routine := some .restore})
def c19x29 : State := (rs id 0xa000e)
def c19x30 : TrapInfo := (rx (rs id 0xa000e) rg)
def c19x31 : State := (rs id 0xa000f sw)
def c19x32 : State := (rd (rs id 0xa000f sw) (rg sw)).snd
def c19x33 : State := (rd rs rg).snd

theorem witness_GuestSteps_1 :
    -- .1.1
    (c19x0.obj.a = 1 ∧ c19x0.obj.b = 0 ∧ (c19x0.slot 1 0).wait = Wait.depart 9 1911 ∧ ((c19x0.slot 1 0).live = false ∨ c19x0.quiet 1 0 = false)) ∧
    -- .1.2.2.2.1
    (c19x2.obj.a = 1 ∧ c19x2.obj.b = 0 ∧ (c19x2.slot 1 0).wait = Wait.depart 9 1911 ∧ (c19x2.slot 1 0).live = true ∧ c19x2.quiet 1 0 = true ∧ (c19x2.slot 1 0).guest = false ∧ (c19x2.slot 1 0).home = 1 ∧ (c19x2.slot 1 0).idx = 0) ∧
    -- .1.2.1
    ((sl dp).obj.a = 1 ∧ (sl dp).obj.b = 0 ∧ ((sl dp).slot 1 0).wait = Wait.depart 9 1911 ∧ ((sl dp).slot 1 0).guest = false) ∧
    -- .1.2.2.1
    ((sl dg).obj.a = 1 ∧ (sl dg).obj.b = 0 ∧ ((sl dg).slot 1 0).wait = Wait.depart 9 1911 ∧ ((sl dg).slot 1 0).guest = true) ∧
    -- .1.2.2.2.2
    ((∀ (j : Nat), j ≠ 0 → ((sl dg).slot 1 j).wait = Wait.ready) ∧ ((sl dg).slot 1 0).live = true ∧ (sl dg).quiet 1 0 = true ∧ (sl dg).refusesAll 9 = false ∧ ((sl dg).die (dieOf 1)).guests = []) ∧
    -- .2.1.1
    (stepPacket c19x3 gp gx ∧ FirstToCome c19x3 gp ∧ (∀ (d : Nat), ¬gp.id ∈ (c19x3.die d).guests) ∧ gx.homeNode ≠ c19x3.node ∧ (∀ (q : Nat × Die), q ∈ c19x3.dies → ¬gp.id ∈ q.snd.guests) ∧ (c19x3.regionById gp.region = none ∨ hbmTop ≤ gp.addr)) := by
  refine ⟨
    by decide +kernel,
    by decide +kernel,
    by decide +kernel,
    by decide +kernel,
    ⟨others_ready (by decide +kernel), by decide +kernel⟩,
    ⟨by delta stepPacket; decide +kernel, by delta FirstToCome; decide +kernel, no_guest (by decide +kernel), by decide +kernel⟩⟩

theorem witness_GuestSteps_2 :
    -- .2.1.2.2
    (stepPacket (gs gp nd) gp gx ∧ FirstToCome (gs gp nd) gp ∧ (∀ (d : Nat), ¬gp.id ∈ ((gs gp nd).die d).guests) ∧ gx.homeNode ≠ (gs gp nd).node ∧ (∀ (q : Nat × Die), q ∈ (gs gp nd).dies → ¬gp.id ∈ q.snd.guests) ∧ (gs gp nd).regionById gp.region = some 65536 ∧ gp.addr < hbmTop ∧ ((gs gp nd).hbmLoc gp.addr).home = Home.slice 80 ∧ ((gs gp nd).die (State.preferredCore 80 / 256)).guests = [] ∧ (gs gp nd).guestSlot (State.preferredCore 80) = some 3) ∧
    -- .2.1.2.1
    (stepPacket (gs gp full) gp gx ∧ FirstToCome (gs gp full) gp ∧ (∀ (d : Nat), ¬gp.id ∈ ((gs gp full).die d).guests) ∧ gx.homeNode ≠ (gs gp full).node ∧ (∀ (q : Nat × Die), q ∈ (gs gp full).dies → ¬gp.id ∈ q.snd.guests) ∧ (gs gp full).regionById gp.region = some 65536 ∧ ((gs gp full).hbmLoc gp.addr).home = Home.slice 80 ∧ ((gs gp full).die (State.preferredCore 80 / 256)).guests = [] ∧ (gs gp full).guestCore (State.preferredCore 80) = none) ∧
    -- .2.2.1.1
    (c19x6.obj.a = 1 ∧ c19x6.obj.b = 0 ∧ (c19x6.slot 1 0).wait = Wait.goHome none ∧ ((c19x6.slot 1 0).live = false ∨ (c19x6.slot 1 0).guest = false ∨ c19x6.quiet 1 0 = false)) ∧
    -- .2.2.1.2
    ((∀ (j : Nat), j ≠ 0 → ((sl gh).slot 1 j).wait = Wait.ready) ∧ (sl gh).obj.a = 1 ∧ (sl gh).obj.b = 0 ∧ ((sl gh).slot 1 0).wait = Wait.goHome none ∧ ((sl gh).slot 1 0).live = true ∧ ((sl gh).slot 1 0).guest = true ∧ (sl gh).quiet 1 0 = true ∧ (sl gh).refusesAll ((sl gh).slot 1 0).homeNode = false ∧ ((sl gh).die (dieOf 1)).guests = []) := by
  refine ⟨
    ⟨by delta stepPacket; decide +kernel, by delta FirstToCome; decide +kernel, no_guest (by decide +kernel), by decide +kernel⟩,
    ⟨by delta stepPacket; decide +kernel, by delta FirstToCome; decide +kernel, no_guest (by decide +kernel), by decide +kernel⟩,
    by decide +kernel,
    ⟨others_ready (by decide +kernel), by decide +kernel⟩⟩

theorem witness_GuestSteps_3 :
    -- .2.2.2.1
    (stepPacket c19x7 (gp id hx) hx ∧ FirstToCome c19x7 (gp id hx) ∧ hx.homeNode = c19x7.node ∧ c19x7.awayFrom (c19x7.slot hx.home hx.homeSlot) = false) ∧
    -- .2.2.2.2
    (stepPacket c19x8 (gp id hx) hx ∧ FirstToCome c19x8 (gp id hx) ∧ hx.homeNode = c19x8.node ∧ c19x8.awayFrom (c19x8.slot hx.home hx.homeSlot) = true ∧ hx.wait = Wait.goHome none ∧ landable c19x8 hx.home (1024 * hx.homeSlot) 640 = true) := by
  refine ⟨
    ⟨by delta stepPacket; decide +kernel, by delta FirstToCome; decide +kernel, by decide +kernel⟩,
    ⟨by delta stepPacket; decide +kernel, by delta FirstToCome; decide +kernel, by decide +kernel⟩⟩

theorem witness_ScheduleSteps :
    -- .1.1
    (stepGroup c19x9 c19x10 ∧ (c19x10.state ≠ GState.ending ∨ c19x9.unitsBusy c19x10 = true)) ∧
    -- .1.2
    (stepGroup (sg GState.ending) (gr GState.ending) ∧ (gr GState.ending).state = GState.ending ∧ (sg GState.ending).unitsBusy (gr GState.ending) = false ∧ (∀ (c : Nat), c ∈ (gr GState.ending).pitch → ((sg GState.ending).core c).chans = [] ∧ ∀ (q : Nat × Slot), q ∈ ((sg GState.ending).core c).slots → q.snd.guest = false)) ∧
    -- .2.1
    (stepGroup c19x11 c19x12 ∧ c19x12.state = GState.releasing ∧ c19x11.queue = []) ∧
    -- .2.2.1.2.2
    ((qs q1).queue = [q1.gid] ∧ (qs q1).groups = [(q1.gid, q1)] ∧ q1.state = GState.queued ∧ (qs q1).budgetAllows q1 = true ∧ ((State.findPitch q1 fun (p : List Nat) => (qs q1).fits (qs q1).coreFree q1 p && ((qs q1).barredCores q1 p).isEmpty) = some [2, 3]) ∧ (∀ (c : Nat), c ∈ [2, 3] → ∀ (q : Nat × Slot), q ∈ ((qs q1).core c).slots → q.snd.guest = false) ∧ [2, 3].Nodup) ∧
    -- .2.2.1.2.1
    (c19x13.queue = [c19x14.gid] ∧ c19x13.groups = [(c19x14.gid, c19x14)] ∧ c19x14.state = GState.queued ∧ c19x13.budgetAllows c19x14 = true ∧ State.findPitch c19x14 (c19x13.fits c19x13.coreFree c19x14) = none) ∧
    -- .2.2.1.1
    (c19x15.queue = [c19x16.gid] ∧ c19x15.groups = [(c19x16.gid, c19x16)] ∧ c19x16.state = GState.queued ∧ c19x15.budgetAllows c19x16 = false) ∧
    -- .2.2.2
    (c19x17.die = 7 ∧ 7 < 8 ∧ c19x17.shape = 0 ∧ 255 < 256) := by
  refine ⟨
    ⟨by delta stepGroup; decide +kernel, by decide +kernel⟩,
    ⟨by delta stepGroup; decide +kernel, by decide +kernel⟩,
    ⟨by delta stepGroup; decide +kernel, by decide +kernel⟩,
    by decide +kernel,
    by decide +kernel,
    by decide +kernel,
    by decide +kernel⟩

theorem witness_PreemptionSteps_1 :
    -- .1.1
    (stepGroup c19x18 c19x19 ∧ c19x19.state = GState.stopping ∧ c19x18.hasStopped c19x19 = false) ∧
    -- .1.2
    (stepGroup c19x20 c19x21 ∧ c19x21.state = GState.stopping ∧ c19x20.hasStopped c19x21 = true ∧ (c19x20.liveSlots c19x21.gid).Nodup ∧ (∀ (p : Nat × Nat), p ∈ c19x20.liveSlots c19x21.gid → (c19x20.slot p.fst p.snd).wait = Wait.ready)) ∧
    -- .2.1.2
    (stepGroup (s2 GState.saving) c19x22 ∧ c19x22.state = GState.saving ∧ (s2 GState.saving).routinesEnded c19x22 = true) ∧
    -- .2.1.1
    (stepGroup c19x23 c19x24 ∧ c19x24.state = GState.saving ∧ c19x23.routinesEnded c19x24 = false) ∧
    -- .2.2.1
    (stepGroup (s2 GState.saving) c19x25 ∧ c19x25.state = GState.saving ∧ (s2 GState.saving).routinesEnded c19x25 = true ∧ (∀ (c : Nat), c ∈ c19x25.pitch → ((s2 GState.saving).core c).chans = [] ∧ ∀ (q : Nat × Slot), q ∈ ((s2 GState.saving).core c).slots → q.snd.guest = false)) ∧
    -- .2.2.2.1.1
    (stepGroup (pp 5 6) (pq 5) ∧ ((pq 5).preempt = false ∨ (pq 5).deadline ≠ (pp 5 6).obj.c)) ∧
    -- .2.2.2.1.2
    (stepGroup (pp 5 5) (pq 5) ∧ (pq 5).preempt = true ∧ (pq 5).deadline = (pp 5 5).obj.c ∧ (pq 5).state ∈ [GState.stopping, GState.saving, GState.restoring, GState.handOff, GState.scrubbing] ∧ (pp 5 5).effFdom (pq 5).region ≠ 2) ∧
    -- .2.2.2.2.1
    (stepGroup c19x28 rg ∧ rg.state = GState.restoring ∧ rg.saved = some sv ∧ rg.preempt = false ∧ (((c19x28.liveSlots rg.gid).all fun (p : Nat × Nat) => (c19x28.slot p.fst p.snd).routine.isNone && c19x28.atRest p) = false ∨ c19x28.unitsBusy rg = true)) := by
  refine ⟨
    ⟨by delta stepGroup; decide +kernel, by decide +kernel⟩,
    ⟨by delta stepGroup; decide +kernel, by decide +kernel⟩,
    ⟨by delta stepGroup; decide +kernel, by decide +kernel⟩,
    ⟨by delta stepGroup; decide +kernel, by decide +kernel⟩,
    ⟨by delta stepGroup; decide +kernel, by decide +kernel⟩,
    ⟨by delta stepGroup; decide +kernel, by decide +kernel⟩,
    ⟨by delta stepGroup; decide +kernel, by decide +kernel⟩,
    ⟨by delta stepGroup; decide +kernel, by decide +kernel⟩⟩

theorem witness_PreemptionSteps_2 :
    -- .2.2.2.2.2.1
    (stepGroup c19x29 rg ∧ c19x29.readFrame rg.region (rg.frame.getD 0) (4096 + 4096 * rg.header.cores) = Except.error c19x30 ∧ (((c19x29.liveSlots rg.gid).all fun (p : Nat × Nat) => (c19x29.slot p.fst p.snd).routine.isNone && c19x29.atRest p) = true) ∧ c19x29.unitsBusy rg = false) ∧
    -- .2.2.2.2.2.2.1
    (stepGroup c19x31 (rg sw) ∧ c19x31.readFrame (rg sw).region ((rg sw).frame.getD 0) (4096 + 4096 * (rg sw).header.cores) = Except.ok ((rd (rs id 655375 sw) (rg sw)).fst, c19x32) ∧ (rg sw).state = GState.restoring ∧ (rg sw).saved = some sw ∧ (rg sw).preempt = false ∧ (((c19x31.liveSlots (rg sw).gid).all fun (p : Nat × Nat) => (c19x31.slot p.fst p.snd).routine.isNone && c19x31.atRest p) = true) ∧ c19x31.unitsBusy (rg sw) = false ∧ (rd (rs id 655375 sw) (rg sw)).fst ≠ sw.bytes ∧ c19x31.sound = true ∧ sw.told = []) ∧
    -- .2.2.2.2.2.2.2
    (stepGroup rs rg ∧ rs.readFrame rg.region (rg.frame.getD 0) (4096 + 4096 * rg.header.cores) = Except.ok (sv.bytes, c19x33) ∧ (((rs.liveSlots rg.gid).all fun (p : Nat × Nat) => (rs.slot p.fst p.snd).routine.isNone && rs.atRest p) = true) ∧ rs.unitsBusy rg = false ∧ rs.sound = true ∧ sv.told = [] ∧ rg.pitch.Nodup) := by
  refine ⟨
    ⟨by delta stepGroup; decide +kernel, error_of (d := { cause := .illegal, tval := 0 }) (by decide +kernel), by decide +kernel⟩,
    ⟨by delta stepGroup; decide +kernel, ok_pair (d := ([], rs id 655375 sw)) (by decide +kernel), by decide +kernel⟩,
    ⟨by delta stepGroup; decide +kernel, ok_of (d := ([], rs)) (by decide +kernel), by decide +kernel⟩⟩

end Sys2Proof.Tests.T19
end

namespace Sys2Proof.Machine.State

/-! ### The patrol's agenda (R282) -/

/-- The next round of the patrol over the whole module, 2^36 ticks on: its object says so, and names no storage place. -/
def nextRound (s : State) : Event :=
  { due := .gtc (s.gtc.toNat + 2 ^ 36), rank := 0, ins := .patrolScrub, obj := { ok := true } }

variable (s : State)

/-- The patrol of one ECC word leaves the agenda and the GTC, whether it meets a lasting, a transient, a correctable or no error. -/
theorem patrolWord_agenda_gtc (a : Nat) : (s.patrolWord a).agenda = s.agenda ∧ (s.patrolWord a).gtc = s.gtc := by
  unfold patrolWord
  dsimp only
  split
  next lasting => exact ⟨rfl, rfl⟩
  next =>
    split
    next transient => exact ⟨rfl, rfl⟩
    next =>
      split
      next correctable => exact ⟨rfl, rfl⟩
      next => exact ⟨rfl, rfl⟩

theorem foldl_patrolWord_agenda_gtc (as : List Nat) :
    (as.foldl patrolWord s).agenda = s.agenda ∧ (as.foldl patrolWord s).gtc = s.gtc := by
  induction as generalizing s with
  | nil => exact ⟨rfl, rfl⟩
  | cons a as ih =>
    obtain ⟨agenda, gtc⟩ := s.patrolWord_agenda_gtc a
    obtain ⟨agenda', gtc'⟩ := ih (s.patrolWord a)
    exact ⟨agenda'.trans agenda, gtc'.trans gtc⟩

/-- A round over the whole module adds the next round to the agenda and nothing else, whatever errors it meets and whatever
else its own object holds. -/
theorem patrol_agenda (round : s.obj.ok = true) : s.patrol.agenda = s.agenda ++ [s.nextRound] := by
  unfold patrol
  obtain ⟨agenda, gtc⟩ :=
    s.foldl_patrolWord_agenda_gtc (((s.lasting ++ s.transient ++ s.correctable).filter fun k => k.1 == 1).map (·.2)).eraseDups
  rw [if_neg (by simp [round])]
  simp only [schedule, nextRound, agenda, gtc]

end Sys2Proof.Machine.State

namespace Sys2Proof.Claims
open Sys2Proof.Machine

theorem exec_patrolScrub (s : State) : exec .patrolScrub s = .next s.patrol := rfl

/-- Refutes O54, in its clause on a round of the patrol over the whole module: it asks for the next round under the object of
the round that runs, but the model puts the object `{ ok := true }` on the agenda. The two differ after a round whose object
also names a storage place, which a round over the module does not use. -/
theorem not_moduleSteps : ¬ Obligations.ModuleSteps := by
  unfold Obligations.ModuleSteps
  rintro ⟨-, -, -, -, -, round, -⟩
  obtain ⟨t, step, -, -, ⟨x, mem, -, ins, obj⟩, -⟩ := round { State.reset with obj := { a := 1, ok := true } } rfl
  rw [exec_patrolScrub, Host.Outcome.next.injEq] at step
  rw [← step, State.patrol_agenda _ rfl] at mem
  rcases List.mem_append.mp mem with boot | next
  · rw [List.mem_singleton.mp boot] at ins
    exact Instr.noConfusion ins
  · rw [List.mem_singleton.mp next] at obj
    exact absurd obj (by decide)

end Sys2Proof.Claims

namespace Sys2Proof.Machine

/-! ### Tables: which entries a table has after an update -/

section Tables
variable {α : Type}

@[simp] theorem tfind_tdel (t : Tab α) (k j : Nat) : tfind (tdel t k) j = if k = j then none else tfind t j := by
  induction t with
  | nil => simp [tdel, tfind]
  | cons p r ih =>
    obtain ⟨k', v⟩ := p
    unfold tdel
    split
    next deleted =>
      subst deleted
      rw [ih]
      by_cases here : k' = j <;> simp [tfind, here]
    next stays =>
      by_cases here : k' = j
      · subst here
        simp [tfind, Ne.symm stays]
      · simp [tfind, here, ih]

theorem mem_tset {t : Tab α} {k : Nat} {v : α} {q : Nat × α} (h : q ∈ tset t k v) : q = (k, v) ∨ q ∈ t := by
  induction t with
  | nil => exact .inl (List.mem_singleton.mp h)
  | cons p r ih =>
    obtain ⟨k', v'⟩ := p
    unfold tset at h
    split at h
    next => exact List.mem_cons.mp h
    next =>
      split at h
      next => exact (List.mem_cons.mp h).imp_right (List.mem_cons_of_mem _)
      next =>
        rcases List.mem_cons.mp h with rfl | h
        · exact .inr List.mem_cons_self
        · exact (ih h).imp_right (List.mem_cons_of_mem _)

/-- What holds of every entry and of the start value holds of whatever is read. -/
theorem tget_of_all {P : α → Prop} (t : Tab α) (k : Nat) (d : α) (all : ∀ q ∈ t, P q.2) (start : P d) : P (tget t k d) := by
  induction t with
  | nil => exact start
  | cons p r ih =>
    unfold tget
    split
    next => exact all _ List.mem_cons_self
    next => exact ih fun q h => all q (List.mem_cons_of_mem _ h)

end Tables

/-! ### What a step leaves of the module, and of a core -/

/-- No guest is on a core. -/
def Core.NoGuests (c : Core) : Prop := ∀ q ∈ c.slots, q.2.guest = false

theorem Core.NoGuests.filter_guest {c : Core} (home : c.NoGuests) : c.slots.filter (fun q => q.2.guest) = [] :=
  List.filter_eq_nil_iff.mpr fun q h => by simp [home q h]

/-- All of a core but what the end of a wait changes: its contexts, its results to come, its turn, and its L1. -/
def Core.offWaits (c : Core) : Core := { c with slots := [], pend := [], turn := 0, nextCycle := 0, idleAt := none, l1 := [] }

/-- Some waits of the contexts of a core may have ended, and nothing else of it is another: no guest has come to it, and no context. -/
structure Core.EndsWaits (x y : Core) : Prop where
  offWaits : y.offWaits = x.offWaits
  noGuests : x.NoGuests → y.NoGuests
  empty : x.slots = [] → y.slots = []

theorem Core.EndsWaits.refl (x : Core) : x.EndsWaits x := ⟨rfl, id, id⟩

theorem Core.EndsWaits.trans {x y z : Core} (h : x.EndsWaits y) (h' : y.EndsWaits z) : x.EndsWaits z :=
  ⟨h'.offWaits.trans h.offWaits, h'.noGuests ∘ h.noGuests, h'.empty ∘ h.empty⟩

section
variable {x y : Core} (h : x.EndsWaits y)
include h
theorem Core.EndsWaits.on : y.on = x.on := (congrArg Core.on h.offWaits :)
theorem Core.EndsWaits.gid : y.gid = x.gid := (congrArg Core.gid h.offWaits :)
theorem Core.EndsWaits.scrubUntil : y.scrubUntil = x.scrubUntil := (congrArg Core.scrubUntil h.offWaits :)
theorem Core.EndsWaits.sp : y.sp = x.sp := (congrArg Core.sp h.offWaits :)
theorem Core.EndsWaits.mbs : y.mbs = x.mbs := (congrArg Core.mbs h.offWaits :)
theorem Core.EndsWaits.hs : y.hs = x.hs := (congrArg Core.hs h.offWaits :)
theorem Core.EndsWaits.streams : y.streams = x.streams := (congrArg Core.streams h.offWaits :)
theorem Core.EndsWaits.chans : y.chans = x.chans := (congrArg Core.chans h.offWaits :)
end

namespace State

/-- Memory, the cycle, the groups and the queue are as they were. -/
structure KeepsModule (s t : State) : Prop where
  mem : t.mem = s.mem
  cycle : t.cycle = s.cycle
  groups : t.groups = s.groups
  queue : t.queue = s.queue

/-- Memory, the cycle, the groups, the queue and every core are as they were. -/
structure KeepsSite (s t : State) : Prop extends KeepsModule s t where
  cores : t.cores = s.cores

/-- Memory, the cycle, the groups and the queue are as they were; on every core only waits of contexts may have ended. -/
structure EndsWaits (s t : State) : Prop extends KeepsModule s t where
  core : ∀ c, (s.core c).EndsWaits (t.core c)

theorem KeepsModule.refl (s : State) : KeepsModule s s := ⟨rfl, rfl, rfl, rfl⟩
theorem KeepsModule.trans {s t u : State} (h : KeepsModule s t) (h' : KeepsModule t u) : KeepsModule s u :=
  ⟨h'.mem.trans h.mem, h'.cycle.trans h.cycle, h'.groups.trans h.groups, h'.queue.trans h.queue⟩

theorem KeepsSite.refl (s : State) : KeepsSite s s := ⟨.refl s, rfl⟩
theorem KeepsSite.trans {s t u : State} (h : KeepsSite s t) (h' : KeepsSite t u) : KeepsSite s u :=
  ⟨h.toKeepsModule.trans h'.toKeepsModule, h'.cores.trans h.cores⟩
theorem KeepsSite.core {s t : State} (h : KeepsSite s t) (c : Nat) : t.core c = s.core c := by rw [State.core, h.cores, State.core]

theorem EndsWaits.refl (s : State) : EndsWaits s s := ⟨.refl s, fun c => .refl (s.core c)⟩
theorem EndsWaits.trans {s t u : State} (h : EndsWaits s t) (h' : EndsWaits t u) : EndsWaits s u :=
  ⟨h.toKeepsModule.trans h'.toKeepsModule, fun c => (h.core c).trans (h'.core c)⟩
theorem KeepsSite.endsWaits {s t : State} (h : KeepsSite s t) : EndsWaits s t :=
  ⟨h.toKeepsModule, fun c => by rw [h.core c]; exact .refl _⟩

section Folds
variable {β : Type} {op : State → β → State}

theorem foldl_keepsModule (each : ∀ s b, KeepsModule s (op s b)) (bs : List β) (s : State) : KeepsModule s (bs.foldl op s) :=
  List.foldlRecOn bs op (motive := KeepsModule s) (.refl s) fun t h b _ => h.trans (each t b)

theorem foldl_keepsSite (each : ∀ s b, KeepsSite s (op s b)) (bs : List β) (s : State) : KeepsSite s (bs.foldl op s) :=
  List.foldlRecOn bs op (motive := KeepsSite s) (.refl s) fun t h b _ => h.trans (each t b)

theorem foldl_endsWaits (each : ∀ s b, EndsWaits s (op s b)) (bs : List β) (s : State) : EndsWaits s (bs.foldl op s) :=
  List.foldlRecOn bs op (motive := EndsWaits s) (.refl s) fun t h b _ => h.trans (each t b)

end Folds

variable (s : State)

theorem schedule_keepsSite (due : Due) (rank : Nat) (ins : Instr) (obj : Obj) : KeepsSite s (s.schedule due rank ins obj) :=
  ⟨⟨rfl, rfl, rfl, rfl⟩, rfl⟩

theorem unclocked_keepsSite (rank : Nat) (ins : Instr) (obj : Obj) : KeepsSite s (s.unclocked rank ins obj) :=
  ⟨⟨rfl, rfl, rfl, rfl⟩, rfl⟩

theorem fresh_keepsSite : KeepsSite s s.fresh.2 := ⟨⟨rfl, rfl, rfl, rfl⟩, rfl⟩

theorem withNet_keepsSite (net : List Msg) : KeepsSite s { s with net := net } := ⟨⟨rfl, rfl, rfl, rfl⟩, rfl⟩

theorem withErrors_keepsSite (lasting transient correctable : List (Nat × Nat)) :
    KeepsSite s { s with lasting := lasting, transient := transient, correctable := correctable } := ⟨⟨rfl, rfl, rfl, rfl⟩, rfl⟩

theorem kickGuests_keepsSite (d : Nat) : KeepsSite s (s.kickGuests d) := by
  unfold kickGuests
  split
  next => exact schedule_keepsSite s ..
  next => exact .refl s

theorem modCore_keepsModule (c : Nat) (f : Core → Core) : KeepsModule s (s.modCore c f) := ⟨rfl, rfl, rfl, rfl⟩

/-! ### A WAITV that reads its word again (R246) -/

theorem modCore_endsWaits (c : Nat) (f : Core → Core) (h : (s.core c).EndsWaits (f (s.core c))) : EndsWaits s (s.modCore c f) := by
  refine ⟨s.modCore_keepsModule c f, fun d => ?_⟩
  rw [core_modCore]
  split
  next e => exact e ▸ h
  next => exact .refl _

theorem slot_noGuests {s : State} {c : Nat} (home : (s.core c).NoGuests) (i : Nat) : (s.slot c i).guest = false :=
  tget_of_all (P := fun x : Slot => x.guest = false) _ i _ home rfl

/-- A slot changed, in a core that has contexts. -/
theorem modSlot_endsWaits (c i : Nat) (f : Slot → Slot) (guest : ∀ x, (f x).guest = x.guest) (occupied : (s.core c).slots ≠ []) :
    EndsWaits s (s.modSlot c i f) := by
  refine s.modCore_endsWaits c (fun k => { k with slots := tset k.slots i (f (s.slot c i)) }) ⟨rfl, fun home q h => ?_, fun e => absurd e occupied⟩
  rcases mem_tset h with rfl | h
  · exact (guest _).trans (slot_noGuests home i)
  · exact home q h

theorem reopenTurn_endsWaits (c i : Nat) : EndsWaits s (s.reopenTurn c i) := by
  unfold reopenTurn
  dsimp only
  split
  next => exact s.modCore_endsWaits c (fun k => { k with turn := k.turn - 1, nextCycle := s.cycle, idleAt := none }) ⟨rfl, id, id⟩
  next => exact .refl s

theorem wake_endsWaits (c i : Nat) (occupied : (s.core c).slots ≠ []) : EndsWaits s (s.wake c i) :=
  (s.modSlot_endsWaits c i (fun x => { x with wait := .ready, own := true, ins := none }) (fun _ => rfl) occupied).trans
    (reopenTurn_endsWaits _ c i)

theorem l1Drop_endsWaits (c pa : Nat) : EndsWaits s (s.l1Drop c pa) :=
  (s.modCore_endsWaits c (fun k => { k with l1 := k.l1.filter fun l => l.pa != lineOf pa }) ⟨rfl, id, id⟩).trans
    (KeepsSite.endsWaits ⟨⟨rfl, rfl, rfl, rfl⟩, rfl⟩)

theorem endWatch_endsWaits (c i : Nat) (m : Msg) (v : Word) (occupied : (s.core c).slots ≠ []) : EndsWaits s (s.endWatch c i m v) := by
  have woken : EndsWaits s ((s.dropMsg m.id).wake c i) := (s.withNet_keepsSite _).endsWaits.trans (wake_endsWaits _ c i occupied)
  unfold endWatch
  dsimp only
  refine EndsWaits.trans ?_ (schedule_keepsSite _ ..).endsWaits
  refine EndsWaits.trans ?_ (modCore_endsWaits _ c _ ⟨rfl, id, id⟩)
  split
  next => exact woken.trans (l1Drop_endsWaits _ c _)
  next => exact woken

/-- A context that waits for a watch is in a slot of its core. -/
theorem occupied_of_watch {s : State} {c i id : Nat} (h : (s.slot c i).wait = .watch id) : (s.core c).slots ≠ [] := by
  intro e
  rw [slot, e] at h
  exact Wait.noConfusion h

theorem rereadWatch_endsWaits (m : Msg) : EndsWaits s (s.rereadWatch m) := by
  unfold rereadWatch
  split
  next gone => exact (s.withNet_keepsSite _).endsWaits
  next c i owner =>
    dsimp only
    split
    next same => exact .refl s
    next =>
      split
      next waits => exact s.endWatch_endsWaits c i m _ (occupied_of_watch waits)
      next => exact (s.withNet_keepsSite _).endsWaits

/-! ### The release of a pitch (R191, R231) -/

/-- Memory, the cycle, the groups and the queue are as they were; on other cores only waits may have ended, and the core that is
scrubbed keeps its channels and gets no guest. -/
structure ScrubsCore (c : Nat) (s t : State) : Prop extends KeepsModule s t where
  others : ∀ d, d ≠ c → (s.core d).EndsWaits (t.core d)
  chans : (t.core c).chans = (s.core c).chans
  noGuests : (s.core c).NoGuests → (t.core c).NoGuests

theorem ScrubsCore.trans {c : Nat} {s t u : State} (h : ScrubsCore c s t) (h' : ScrubsCore c t u) : ScrubsCore c s u :=
  ⟨h.toKeepsModule.trans h'.toKeepsModule, fun d e => (h.others d e).trans (h'.others d e), h'.chans.trans h.chans, h'.noGuests ∘ h.noGuests⟩

theorem EndsWaits.scrubsCore {s t : State} (h : EndsWaits s t) (c : Nat) : ScrubsCore c s t :=
  ⟨h.toKeepsModule, fun d _ => h.core d, (h.core c).chans, (h.core c).noGuests⟩

theorem modCore_scrubsCore (c : Nat) (f : Core → Core) (chans : (f (s.core c)).chans = (s.core c).chans)
    (noGuests : (s.core c).NoGuests → (f (s.core c)).NoGuests) : ScrubsCore c s (s.modCore c f) := by
  refine ⟨s.modCore_keepsModule c f, fun d other => ?_, ?_, ?_⟩
  · rw [core_modCore, if_neg (Ne.symm other)]
    exact .refl _
  · rwa [core_modCore, if_pos rfl]
  · rwa [core_modCore, if_pos rfl]

theorem unbindAll_scrubsCore (c : Nat) (unbound : (s.core c).chans = []) : ScrubsCore c s (s.unbindAll c) := by
  unfold unbindAll
  rw [unbound]
  dsimp only
  refine ScrubsCore.trans ?_ (modCore_scrubsCore _ c _ rfl fun home => home)
  exact (withNet_keepsSite _ _).endsWaits.scrubsCore c

theorem scrubScratch_scrubsCore (k : Keep) (c : Nat) : ScrubsCore c s (s.scrubScratch k c) := by
  unfold scrubScratch
  dsimp only
  refine ScrubsCore.trans ?_ ((foldl_endsWaits rereadWatch_endsWaits _ _).scrubsCore c)
  refine ScrubsCore.trans ?_ ((withErrors_keepsSite _ _ _ _).endsWaits.scrubsCore c)
  refine List.foldlRecOn _ _ (motive := ScrubsCore c s) ?_ fun t h i _ => h.trans ?_
  · exact s.modCore_scrubsCore c _ rfl fun home => home
  · exact t.modCore_scrubsCore c _ rfl fun home => home

end State
end Sys2Proof.Machine

namespace Sys2Proof.Claims
open Sys2Proof.Machine

theorem releaseCore_spec (s : State) (c : Nat) (unbound : (s.core c).chans = []) (home : (s.core c).NoGuests) :
    State.ScrubsCore c s (s.releaseCore c) ∧ Released s (s.releaseCore c) c := by
  have scrubs : ∀ k, State.ScrubsCore c s ((s.unbindAll c).scrubScratch k c) := fun k =>
    (s.unbindAll_scrubsCore c unbound).trans (State.scrubScratch_scrubsCore _ k c)
  have noGuest : ∀ k, (((s.unbindAll c).scrubScratch k c).core c).slots.filter (fun q => q.2.guest) = [] := fun k =>
    ((scrubs k).noGuests home).filter_guest
  have cycle : ∀ k, ((s.unbindAll c).scrubScratch k c).cycle = s.cycle := fun k => (scrubs k).cycle
  constructor
  · unfold State.releaseCore
    dsimp only
    refine (scrubs _).trans (State.modCore_scrubsCore _ c _ rfl fun home q h => ?_)
    obtain ⟨there, -⟩ := List.mem_filter.mp h
    exact home q there
  · simp [Released, State.releaseCore, noGuest, cycle]

/-- A core that was released stays so while waits elsewhere end. -/
theorem Released.endsWaits {s t u : State} {c : Nat} (h : Released s t c) (h' : (t.core c).EndsWaits (u.core c)) : Released s u c := by
  obtain ⟨gid, on, sp, slots, mbs, hs, streams, scrub⟩ := h
  exact ⟨h'.gid.trans gid, h'.on.trans on, h'.sp.trans sp, h'.empty slots, h'.mbs.trans mbs, h'.hs.trans hs,
    h'.streams.trans streams, h'.scrubUntil.trans scrub⟩

theorem Released.of_cycle {s s' t : State} {c : Nat} (h : Released s' t c) (e : s'.cycle = s.cycle) : Released s t c := by
  unfold Released at h
  rwa [e] at h

/-- The cores of a pitch leave it one by one. -/
theorem foldl_releaseCore_spec (pitch : List Nat) (s : State) (idle : ∀ c ∈ pitch, (s.core c).chans = [] ∧ (s.core c).NoGuests) :
    let t := pitch.foldl State.releaseCore s
    State.KeepsModule s t ∧ (∀ c ∈ pitch, Released s t c) ∧ ∀ c, c ∉ pitch → (s.core c).EndsWaits (t.core c) := by
  induction pitch generalizing s with
  | nil => exact ⟨.refl s, fun c h => absurd h List.not_mem_nil, fun c _ => .refl _⟩
  | cons d ds ih =>
    obtain ⟨unbound, home⟩ := idle d List.mem_cons_self
    obtain ⟨scrubs, released⟩ := releaseCore_spec s d unbound home
    have idle' : ∀ c ∈ ds, ((s.releaseCore d).core c).chans = [] ∧ ((s.releaseCore d).core c).NoGuests := by
      intro c h
      obtain ⟨unbound, home⟩ := idle c (List.mem_cons_of_mem d h)
      by_cases e : c = d
      · subst e
        exact ⟨scrubs.chans.trans unbound, scrubs.noGuests home⟩
      · have ends := scrubs.others c e
        exact ⟨ends.chans.trans unbound, ends.noGuests home⟩
    obtain ⟨keeps, left, others⟩ := ih (s.releaseCore d) idle'
    refine ⟨scrubs.toKeepsModule.trans keeps, fun c h => ?_, fun c h => ?_⟩
    · by_cases later : c ∈ ds
      · exact (left c later).of_cycle scrubs.cycle
      · rcases List.mem_cons.mp h with rfl | h
        · exact released.endsWaits (others c later)
        · exact absurd h later
    · obtain ⟨notD, notDs⟩ := not_or.mp (mt List.mem_cons.mpr h)
      exact (scrubs.others c notD).trans (others c notDs)

end Sys2Proof.Claims

namespace Sys2Proof.Machine

/-! ### What the start of a group reads and writes away from the cores (R124, R249, R307) -/

namespace State
variable (s : State)

theorem logError_keepsSite (k : Nat × Nat) (pa source kind : Nat) : KeepsSite s (s.logError k pa source kind) := ⟨⟨rfl, rfl, rfl, rfl⟩, rfl⟩

theorem eccRead_keepsSite (l : Loc) (size source : Nat) : KeepsSite s (s.eccRead l size source).2 := by
  unfold eccRead
  refine List.foldlRecOn _ _ (motive := fun (acc : Bool × State) => KeepsSite s acc.2) (.refl s) fun acc h k _ => h.trans ?_
  split
  next lasting => exact logError_keepsSite ..
  next =>
    split
    next transient => exact ⟨⟨rfl, rfl, rfl, rfl⟩, rfl⟩
    next =>
      split
      next correctable => exact logError_keepsSite ..
      next => exact .refl _

theorem useL2_keepsSite (l : Loc) : KeepsSite s (s.useL2 l) := by
  unfold useL2
  split
  next => exact ⟨⟨rfl, rfl, rfl, rfl⟩, rfl⟩
  next => exact .refl s

theorem fetchWord_keepsSite (c region : Nat) (a : Word) : KeepsSite s (s.fetchWord c region a).2 := by
  unfold fetchWord
  split
  next malformed => exact .refl s
  next scratch => exact .refl s
  next peer => exact .refl s
  next va global =>
    split
    next fault => exact .refl s
    next l place =>
      split
      next lasting => exact s.eccRead_keepsSite l 4 c
      next => exact (s.eccRead_keepsSite l 4 c).trans (useL2_keepsSite _ l)

theorem loadCode_keepsSite (g : Group) : KeepsSite s (s.loadCode g).2 := by
  unfold loadCode
  split
  next => exact .refl s
  next det =>
    refine List.foldlRecOn _ _ (motive := fun (acc : List CodeWord × State) => KeepsSite s acc.2) (.refl s) fun acc h k _ => h.trans ?_
    have fetch := acc.2.fetchWord_keepsSite (g.pitch.headD 0) g.region (BitVec.ofNat 64 ((codeRange g.header).1 + 4 * k))
    split
    next w t e => rwa [e] at fetch
    next c t e => rwa [e] at fetch

theorem engineMend_keepsSite (a n : Nat) : KeepsSite s (s.engineMend a n) := by
  unfold engineMend
  split
  next sound => exact .refl s
  next => exact withErrors_keepsSite ..

theorem modCluster_keepsSite (k : Nat) (f : Cluster → Cluster) : KeepsSite s (s.modCluster k f) := ⟨⟨rfl, rfl, rfl, rfl⟩, rfl⟩

theorem resetAcc_keepsSite (cl a : Nat) : KeepsSite s (s.resetAcc cl a) :=
  (s.modCluster_keepsSite cl _).trans (engineMend_keepsSite ..)

theorem resetEngine_keepsSite (cl n : Nat) : KeepsSite s (s.resetEngine cl n) :=
  ((s.modCluster_keepsSite cl _).trans (engineMend_keepsSite ..)).trans (engineMend_keepsSite ..)

theorem scrubShare_keepsSite (pitch : List Nat) (features : Word) (keepAcc : Nat → Bool) : KeepsSite s (s.scrubShare pitch features keepAcc) := by
  unfold scrubShare
  refine foldl_keepsSite (fun t cl => ?_) _ s
  dsimp only
  generalize e : List.foldl _ t (List.range 16) = u
  have accs : KeepsSite t u := by
    rw [← e]
    refine foldl_keepsSite (fun t i => ?_) _ t
    split
    next a own =>
      split
      next keep => exact .refl t
      next => exact t.resetAcc_keepsSite cl a
    next => exact .refl t
  split
  next => exact accs
  next owns =>
    refine accs.trans (foldl_keepsSite (fun t e => ?_) _ _)
    split
    next n own => exact t.resetEngine_keepsSite cl n
    next => exact .refl t

theorem firstRefresh_keepsSite (g : Group) (c : Nat) : KeepsSite s (firstRefresh g s c) := by
  unfold firstRefresh
  split
  next det => exact .refl s
  next => exact schedule_keepsSite s ..

/-! ### The cores of a pitch, each changed by itself -/

section
variable {op : State → Nat → State} (others : ∀ s c d, c ≠ d → (op s c).core d = s.core d)
include others

theorem foldl_core_other (cs : List Nat) (s : State) (d : Nat) (h : d ∉ cs) : (cs.foldl op s).core d = s.core d := by
  induction cs generalizing s with
  | nil => rfl
  | cons c cs ih =>
    obtain ⟨ne, h⟩ := not_or.mp (mt List.mem_cons.mpr h)
    exact (ih (op s c) h).trans (others s c d (Ne.symm ne))

/-- What the change of a core establishes holds of every core of the list in the end. -/
theorem foldl_core_own {P Q : Core → Prop} (d : Nat) (own : ∀ s, P (s.core d) → Q ((op s d).core d)) (cs : List Nat) (s : State)
    (nodup : cs.Nodup) (h : d ∈ cs) (start : P (s.core d)) : Q ((cs.foldl op s).core d) := by
  induction cs generalizing s with
  | nil => exact absurd h List.not_mem_nil
  | cons c cs ih =>
    obtain ⟨once, nodup⟩ := List.nodup_cons.mp nodup
    by_cases e : d = c
    · subst e
      exact foldl_core_other others cs (op s d) d once ▸ own s start
    · refine ih (op s c) nodup ((List.mem_cons.mp h).resolve_left e) ?_
      rwa [others s c d (Ne.symm e)]

end

theorem cycle_lt_firstCycle (pitch : List Nat) : s.cycle < s.firstCycle pitch := by
  unfold firstCycle
  refine List.foldlRecOn _ _ (motive := (s.cycle < ·)) (Nat.lt_succ_self _) fun n h c _ => ?_
  split
  next on => exact Nat.lt_of_lt_of_le h (Nat.le_max_left ..)
  next => exact h

end State

/-! ### The start of a group (R12, R13, R231, R249) -/

/-- Context 0 of a core of a pitch as a group starts it. -/
def Group.control (g : Group) (c serial : Nat) : Slot :=
  { live := true, serial := serial, home := c, idx := 0, gid := g.gid, region := g.region, mode := g.mode, pc := g.header.entry }

/-- A core without guests whose TLB and objects are empty (R231, R270). -/
def Core.Clean (k : Core) : Prop := k.NoGuests ∧ k.mbs = [] ∧ k.hs = [] ∧ k.tlb = []

/-- A clean core on which a group starts with turn 0 in a cycle, its control context alone there. -/
def Core.AtStart (g : Group) (c first : Nat) (k : Core) : Prop :=
  k.on = true ∧ k.gid = g.gid ∧ k.rank = g.pitch.idxOf c ∧ k.turn = 0 ∧ k.nextCycle = first ∧ k.vlim = 0x7F800000 ∧ k.issued = 0
    ∧ k.bankstall = 0 ∧ k.mbs = [] ∧ k.hs = [] ∧ k.tlb = [] ∧ ∃ serial, k.slots = [(0, g.control c serial)]

namespace State
variable (s : State)

theorem cleanCore_core_other (c d : Nat) (h : c ≠ d) : (s.cleanCore c).core d = s.core d := by
  rw [cleanCore, core_modCore, if_neg h]

theorem cleanCore_clean (c : Nat) (home : (s.core c).NoGuests) : ((s.cleanCore c).core c).Clean := by
  rw [cleanCore, core_modCore, if_pos rfl]
  exact ⟨home, rfl, rfl, rfl⟩

theorem copyImage_core_other (g : Group) (keep : Nat → Bool) (c d : Nat) (h : c ≠ d) : (s.copyImage g keep c).core d = s.core d := by
  simp only [copyImage, fillScratch, core_modCore, if_neg h]

/-- The image of a group fills scratchpads and changes nothing else. -/
theorem copyImage_atStart (g h : Group) (keep : Nat → Bool) (c first : Nat) (start : (s.core c).AtStart h c first) :
    ((s.copyImage g keep c).core c).AtStart h c first := by
  simp only [copyImage, fillScratch, core_modCore, if_pos]
  exact start

theorem copyImage_keepsModule (g : Group) (keep : Nat → Bool) (c : Nat) : KeepsModule s (s.copyImage g keep c) := ⟨rfl, rfl, rfl, rfl⟩

section
variable (g : Group) (code : Option LoadedCode) (first : Nat → Nat) (c : Nat)

/-- A core started is a core changed, beside a fresh identifier and results of guests on the agenda. -/
theorem startCore_eq_modCore : ∃ t f, startCore g code first s c = modCore t c f ∧ KeepsSite s t
    ∧ ((s.core c).Clean → (f (s.core c)).AtStart g c (first c)) := by
  unfold startCore
  refine ⟨_, _, rfl, ?_, fun ⟨home, mbs, hs, tlb⟩ => ?_⟩
  · exact s.fresh_keepsSite.trans (foldl_keepsSite (fun t p => schedule_keepsSite t ..) ..)
  · refine ⟨rfl, rfl, rfl, rfl, rfl, rfl, rfl, rfl, mbs, hs, tlb, s.fresh.1, ?_⟩
    rw [home.filter_guest]
    rfl

theorem startCore_keepsModule : KeepsModule s (startCore g code first s c) := by
  obtain ⟨t, f, e, keeps, -⟩ := s.startCore_eq_modCore g code first c
  exact e ▸ keeps.toKeepsModule.trans (t.modCore_keepsModule c f)

theorem startCore_core_other (d : Nat) (h : c ≠ d) : (startCore g code first s c).core d = s.core d := by
  obtain ⟨t, f, e, keeps, -⟩ := s.startCore_eq_modCore g code first c
  rw [e, core_modCore, if_neg h, keeps.core]

theorem startCore_atStart (clean : (s.core c).Clean) : ((startCore g code first s c).core c).AtStart g c (first c) := by
  obtain ⟨t, f, e, keeps, start⟩ := s.startCore_eq_modCore g code first c
  rw [e, core_modCore, if_pos rfl, keeps.core]
  exact start clean

end

/-- A group out of the queue, and as it stands from now on. -/
def leaveQueue (g : Group) : State := { s with groups := tset s.groups g.gid g, queue := s.queue.filter fun x => x != g.gid }

/-- A group has taken its pitch: only the cores there are others, and those without guests are at the start of the group. -/
structure TakesPitch (g : Group) (s t : State) : Prop extends KeepsModule (s.leaveQueue g) t where
  others : ∀ c, c ∉ g.pitch → t.core c = s.core c
  pitch : g.pitch.Nodup → ∀ c ∈ g.pitch, (s.core c).NoGuests → (t.core c).AtStart g c (s.firstCycle g.pitch)

section
variable (g : Group)

/-- A pitch cleaned for a group: its engines' share, then its cores. -/
def cleanPitch : State :=
  g.pitch.foldl cleanCore (((s.rebaseTurns g.pitch).leaveQueue g).scrubShare g.pitch g.header.features fun _ => false)

theorem takePitch_eq : s.takePitch g =
    g.pitch.foldl (startCore g ((s.cleanPitch g).loadCode g).1 fun _ => s.firstCycle g.pitch) ((s.cleanPitch g).loadCode g).2 := rfl

theorem leaveQueue_rebaseTurns_keepsSite : KeepsSite (s.leaveQueue g) ((s.rebaseTurns g.pitch).leaveQueue g) := ⟨⟨rfl, rfl, rfl, rfl⟩, rfl⟩

theorem scrubbedShare_keepsSite : KeepsSite (s.leaveQueue g)
    (((s.rebaseTurns g.pitch).leaveQueue g).scrubShare g.pitch g.header.features fun _ => false) :=
  (s.leaveQueue_rebaseTurns_keepsSite g).trans (scrubShare_keepsSite ..)

theorem cleanPitch_keepsModule : KeepsModule (s.leaveQueue g) (s.cleanPitch g) :=
  (s.scrubbedShare_keepsSite g).toKeepsModule.trans (foldl_keepsModule (fun t c => t.modCore_keepsModule c _) ..)

theorem cleanPitch_core_other (c : Nat) (h : c ∉ g.pitch) : (s.cleanPitch g).core c = s.core c :=
  (foldl_core_other cleanCore_core_other _ _ c h).trans ((s.scrubbedShare_keepsSite g).core c)

theorem cleanPitch_clean (nodup : g.pitch.Nodup) (c : Nat) (h : c ∈ g.pitch) (home : (s.core c).NoGuests) : ((s.cleanPitch g).core c).Clean :=
  foldl_core_own cleanCore_core_other c (fun t => t.cleanCore_clean c) _ _ nodup h (((s.scrubbedShare_keepsSite g).core c).symm ▸ home)

theorem takePitch_takesPitch : TakesPitch g s (s.takePitch g) := by
  have code := (s.cleanPitch g).loadCode_keepsSite g
  rw [takePitch_eq]
  refine ⟨?_, fun c h => ?_, fun nodup c h home => ?_⟩
  · exact (s.cleanPitch_keepsModule g).trans (code.toKeepsModule.trans (foldl_keepsModule (fun t c => t.startCore_keepsModule g _ _ c) ..))
  · rw [foldl_core_other (fun t => t.startCore_core_other g _ _) _ _ c h, code.core, s.cleanPitch_core_other g c h]
  · refine foldl_core_own (fun t => t.startCore_core_other g _ _) c (fun t => t.startCore_atStart g _ _ c) _ _ nodup h ?_
    rw [code.core]
    exact s.cleanPitch_clean g nodup c h home

/-- The image of a group that has taken its pitch, and its first refreshes, leave the pitch at the start of the group. -/
theorem TakesPitch.imaged {s t : State} {g : Group} (take : TakesPitch g s t) :
    TakesPitch g s (g.pitch.foldl (firstRefresh g) (g.pitch.foldl (copyImage · g (fun _ => false) ·) t)) := by
  have refresh : KeepsSite (g.pitch.foldl (copyImage · g (fun _ => false) ·) t) _ :=
    foldl_keepsSite (fun t c => t.firstRefresh_keepsSite g c) g.pitch _
  refine ⟨?_, fun c h => ?_, fun nodup c h home => ?_⟩
  · exact take.toKeepsModule.trans ((foldl_keepsModule (fun t c => t.copyImage_keepsModule g _ c) ..).trans refresh.toKeepsModule)
  · rw [refresh.core, foldl_core_other (fun t => t.copyImage_core_other g _) _ _ c h, take.others c h]
  · rw [refresh.core]
    exact foldl_core_own (fun t => t.copyImage_core_other g _) c (fun t => t.copyImage_atStart g g _ c _) _ _ nodup h (take.pitch nodup c h home)

theorem startFresh_takesPitch : TakesPitch { g with state := .running } s (s.startFresh g) :=
  (s.takePitch_takesPitch { g with state := .running }).imaged

end

end State

/-! ### The steps of the scheduler -/

theorem exec_pitchRelease (s : State) : exec .pitchRelease s = .next s.release := rfl
theorem exec_releaseScrubDone (s : State) : exec .releaseScrubDone s = .next s.scrubbed := rfl
theorem exec_placement (s : State) : exec .placement s = .next s.placeAll := rfl

namespace State
variable (s : State)

theorem group?_modGroup_same {k : Nat} {f : Group → Group} {g : Group} (found : s.group? k = some g) : (s.modGroup k f).group? k = some (f g) := by
  rw [group?] at found
  rw [modGroup, found]
  exact tfind_tset_same ..

/-! ### Which group a step finds, and when it does nothing -/

theorem release_of_busy {g : Group} (found : s.group? s.obj.a = some g) (busy : g.state ≠ .ending ∨ s.unitsBusy g = true) : s.release = s := by
  unfold release
  rw [found]
  exact if_pos (by simpa using busy)

theorem release_of_idle {g : Group} (found : s.group? s.obj.a = some g) (ending : g.state = .ending) (idle : s.unitsBusy g = false) :
    s.release = ((s.releasePitch g).modGroup g.gid fun g => { g with state := .releasing, rdv := [] }).unclocked 0 .placement := by
  unfold release
  rw [found]
  exact if_neg (by simp [ending, idle])

theorem placeAll_of_queue_nil (empty : s.queue = []) : s.placeAll = s := by
  unfold placeAll
  rw [empty]
  rfl

theorem scrubbed_of_releasing {g : Group} (found : s.group? s.obj.a = some g) (releasing : g.state = .releasing) (empty : s.queue = []) :
    s.scrubbed = { s with groups := tdel s.groups g.gid } := by
  unfold scrubbed
  dsimp only
  rw [found]
  dsimp only
  rw [if_pos releasing]
  exact placeAll_of_queue_nil _ empty

/-! ### The placement of the one request of the queue (R253, R254) -/

section
variable {s} {g : Group} (queue : s.queue = [g.gid]) (groups : s.groups = [(g.gid, g)]) (queued : g.state = .queued)

include groups in
theorem group?_of_single : s.group? g.gid = some g := by simp [group?, groups, tfind]

include queue groups in
/-- A request alone in the queue comes first (R253). -/
theorem placeAll_of_single : s.placeAll = s.placeOne g.gid := by
  unfold placeAll
  simp [queue, group?_of_single groups, insertRequest]

include groups queued in
/-- No group is placed that could be pre-empted for the request (R255, R256). -/
theorem makeRoom_of_single : s.makeRoom g = s := by
  have no_victims : s.victims g = [] := by simp [victims, groups, mayStop, queued, GState.placed]
  unfold makeRoom
  rw [no_victims]
  split
  next fits => rfl
  next => rfl

include groups in
theorem placeOne_of_budget (exceeds : s.budgetAllows g = false) : s.placeOne g.gid = s := by
  unfold placeOne
  rw [group?_of_single groups]
  exact if_pos (by simp [exceeds])

/-- No pitch that fits is free of guests where none fits. -/
theorem findPitch_none_mono {ok open_ : List Nat → Bool} (narrower : ∀ p, open_ p = true → ok p = true) (noFit : findPitch g ok = none) :
    findPitch g open_ = none := by
  simp only [findPitch, List.findSome?_eq_none_iff, List.find?_eq_none] at noFit ⊢
  exact fun d hd p hp => mt (narrower p) (noFit d hd p hp)

include groups queued in
theorem placeOne_of_no_fit (allows : s.budgetAllows g = true) (noFit : findPitch g (s.fits s.coreFree g) = none) : s.placeOne g.gid = s := by
  have no_open : findPitch g (fun p => s.fits s.coreFree g p && (s.barredCores g p).isEmpty) = none :=
    findPitch_none_mono (fun p h => (Bool.and_eq_true_iff.mp h).1) noFit
  unfold placeOne
  rw [group?_of_single groups]
  dsimp only
  rw [if_neg (by simp [allows, queued]), no_open, noFit]
  exact makeRoom_of_single groups queued

include groups queued in
theorem placeOne_of_open {p : List Nat} (allows : s.budgetAllows g = true)
    (first : findPitch g (fun p => s.fits s.coreFree g p && (s.barredCores g p).isEmpty) = some p) :
    s.placeOne g.gid = s.startFresh { g with pitch := p } := by
  unfold placeOne
  rw [group?_of_single groups]
  dsimp only
  rw [if_neg (by simp [allows, queued]), first]
  exact if_neg (by simp [queued])

end

/-- A single core of a die is one of the die's pitches (R208). -/
theorem findPitch_core {g : Group} {d k : Nat} (die : g.die = d) (hd : d < 8) (single : g.shape = 0) (hk : k < 256) :
    findPitch g (fun p => p == [256 * d + k]) = some [256 * d + k] := by
  have dies : diesOf g.die = [d] := by rw [die, diesOf, if_neg (by omega)]
  have pitches : (pitchesOn g.shape g.cols g.rows d).find? (fun p => p == [256 * d + k]) = some [256 * d + k] := by
    rw [single, pitchesOn]
    have there : [256 * d + k] ∈ (List.range 256).map fun c => [256 * d + c] := List.mem_map.mpr ⟨k, List.mem_range.mpr hk, rfl⟩
    obtain ⟨q, found⟩ := Option.isSome_iff_exists.mp (List.find?_isSome (p := fun p => p == [256 * d + k]).mpr ⟨_, there, BEq.rfl⟩)
    have accepted : (q == [256 * d + k]) = true := List.find?_some (p := fun p => p == [256 * d + k]) found
    rw [found, eq_of_beq accepted]
  rw [findPitch, dies]
  simp [pitches]

end State
end Sys2Proof.Machine

namespace Sys2Proof.Claims
open Sys2Proof.Machine

theorem Released.of_core {s t u : State} {c : Nat} (h : Released s t c) (e : u.core c = t.core c) : Released s u c := by
  unfold Released at h ⊢
  rwa [e]

/-- The cores of a pitch leave it, and the end of their scrub is due 8,192 cycles on (R231). -/
theorem releasePitch_spec (s : State) (g : Group) (idle : ∀ c ∈ g.pitch, (s.core c).chans = [] ∧ (s.core c).NoGuests) :
    State.KeepsModule s (s.releasePitch g) ∧ (∀ c ∈ g.pitch, Released s (s.releasePitch g) c)
      ∧ (∀ c, c ∉ g.pitch → (s.core c).EndsWaits ((s.releasePitch g).core c))
      ∧ { due := .cycle (s.cycle + 8192), rank := 0, ins := .releaseScrubDone, obj := { a := g.gid } } ∈ (s.releasePitch g).agenda := by
  obtain ⟨keeps, left, others⟩ := foldl_releaseCore_spec g.pitch s idle
  have kick := State.foldl_keepsSite State.kickGuests_keepsSite (g.pitch.map dieOf).eraseDups (g.pitch.foldl State.releaseCore s)
  have kept := keeps.trans kick.toKeepsModule
  unfold State.releasePitch
  dsimp only
  rw [kept.cycle]
  have done := kick.trans (State.schedule_keepsSite _ (.cycle (s.cycle + 8192)) 0 .releaseScrubDone { a := g.gid })
  exact ⟨keeps.trans done.toKeepsModule, fun c h => (left c h).of_core (done.core c), fun c h => done.core c ▸ others c h,
    List.mem_append_right _ (List.mem_singleton_self _)⟩

section
variable {s : State} {g : Group} (step : stepGroup s g)
include step

theorem pitchRelease_waits (busy : g.state ≠ .ending ∨ s.unitsBusy g = true) : exec .pitchRelease s = .next s := by
  obtain ⟨found, -⟩ := step
  rw [exec_pitchRelease, s.release_of_busy found busy]

theorem pitchRelease_releases (ending : g.state = .ending) (idle : s.unitsBusy g = false)
    (empty : ∀ c ∈ g.pitch, (s.core c).chans = [] ∧ (s.core c).NoGuests) :
    ∃ t, exec .pitchRelease s = .next t ∧ t.mem = s.mem ∧ (∀ c ∈ g.pitch, Released s t c)
      ∧ (∀ c, c ∉ g.pitch → (t.core c).sp = (s.core c).sp ∧ (t.core c).gid = (s.core c).gid)
      ∧ { due := .cycle (s.cycle + 8192), rank := 0, ins := .releaseScrubDone, obj := { a := g.gid } } ∈ t.agenda ∧ Due_ t .placement {}
      ∧ ∃ h, t.group? g.gid = some h ∧ h.state = .releasing ∧ h.header = g.header := by
  obtain ⟨found, named⟩ := step
  obtain ⟨kept, left, others, scrub⟩ := releasePitch_spec s g empty
  have marked : (s.releasePitch g).group? g.gid = some g := by rw [State.group?, kept.groups, named]; exact found
  have core : ∀ c, (s.release).core c = (s.releasePitch g).core c := fun c => by
    rw [s.release_of_idle found ending idle, (State.unclocked_keepsSite ..).core, State.core, State.modGroup_cores, State.core]
  refine ⟨s.release, exec_pitchRelease s, ?_, fun c h => (left c h).of_core (core c), fun c h => ?_, ?_⟩
  · rw [s.release_of_idle found ending idle, (State.unclocked_keepsSite ..).mem, State.modGroup_mem, kept.mem]
  · rw [core]
    exact ⟨(others c h).sp, (others c h).gid⟩
  · rw [s.release_of_idle found ending idle]
    refine ⟨List.mem_append_left _ ?_, ⟨_, List.mem_append_right _ (List.mem_singleton_self _), rfl, rfl⟩,
      { g with state := .releasing, rdv := [] }, ?_, rfl, rfl⟩
    · rwa [State.delay_agenda, State.modGroup_agenda]
    · rw [State.group?, (State.unclocked_keepsSite ..).groups]
      exact State.group?_modGroup_same _ marked

theorem releaseScrubDone_forgets (releasing : g.state = .releasing) (empty : s.queue = []) :
    ∃ t, exec .releaseScrubDone s = .next t ∧ { t with groups := s.groups } = s ∧ t.group? g.gid = none
      ∧ ∀ k, k ≠ g.gid → t.group? k = s.group? k := by
  obtain ⟨found, -⟩ := step
  refine ⟨{ s with groups := tdel s.groups g.gid }, ?_, rfl, ?_, fun k other => ?_⟩
  · rw [exec_releaseScrubDone, s.scrubbed_of_releasing found releasing empty]
  · rw [State.group?, tfind_tdel, if_pos rfl]
  · rw [State.group?, tfind_tdel, if_neg (Ne.symm other), State.group?]

end

/-- A core at the start of a group has its control context alone in it, in slot 0. -/
theorem started_of_atStart {t : State} {g : Group} {c first : Nat} (h : (t.core c).AtStart g c first) : Started t g c := by
  obtain ⟨on, gid, rank, turn, -, vlim, issued, bankstall, mbs, hs, tlb, serial, slots⟩ := h
  have control : t.slot c 0 = g.control c serial := by rw [State.slot, slots]; rfl
  have alone : ∀ i, 1 ≤ i → t.slot c i = {} := fun i h => by
    rw [State.slot, slots, tget, if_neg (by omega)]
    rfl
  unfold Started
  dsimp only
  rw [control]
  exact ⟨on, gid, rank, turn, vlim, issued, bankstall, mbs, hs, tlb, rfl, rfl, rfl, rfl, rfl, rfl, rfl, rfl, fun i h => by rw [alone i h]⟩

section
variable {s : State} {g : Group} (queue : s.queue = [g.gid]) (groups : s.groups = [(g.gid, g)]) (queued : g.state = .queued)
include queue groups

theorem placement_over_budget (exceeds : s.budgetAllows g = false) : exec .placement s = .next s := by
  rw [exec_placement, State.placeAll_of_single queue groups, State.placeOne_of_budget groups exceeds]

include queued

theorem placement_waits (allows : s.budgetAllows g = true) (noFit : State.findPitch g (s.fits s.coreFree g) = none) : exec .placement s = .next s := by
  rw [exec_placement, State.placeAll_of_single queue groups, State.placeOne_of_no_fit groups queued allows noFit]

theorem placement_starts {p : List Nat} (allows : s.budgetAllows g = true)
    (first : State.findPitch g (fun p => s.fits s.coreFree g p && (s.barredCores g p).isEmpty) = some p)
    (home : ∀ c ∈ p, (s.core c).NoGuests) (nodup : p.Nodup) :
    ∃ t, exec .placement s = .next t ∧ t.mem = s.mem ∧ t.queue = [] ∧ (∀ c ∈ p, Started t { g with pitch := p } c)
      ∧ (∀ c ∈ p, s.cycle < (t.core c).nextCycle ∧ ∀ d ∈ p, (t.core d).nextCycle = (t.core c).nextCycle)
      ∧ (∀ c, c ∉ p → (t.core c).sp = (s.core c).sp ∧ (t.core c).gid = (s.core c).gid ∧ ∀ i, t.slot c i = s.slot c i)
      ∧ t.group? g.gid = some { g with pitch := p, state := .running } := by
  have take := s.startFresh_takesPitch { g with pitch := p }
  have start := fun c h => take.pitch nodup c h (home c h)
  have turn0 : ∀ c ∈ p, ((s.startFresh { g with pitch := p }).core c).nextCycle = s.firstCycle p := fun c h => by
    obtain ⟨-, -, -, -, next, -⟩ := start c h
    exact next
  refine ⟨_, ?_, take.mem, ?_, fun c h => started_of_atStart (start c h), fun c h => ⟨?_, fun d h' => ?_⟩, fun c h => ?_, ?_⟩
  · rw [exec_placement, State.placeAll_of_single queue groups, State.placeOne_of_open groups queued allows first]
  · rw [take.queue]
    simp [State.leaveQueue, queue]
  · rw [turn0 c h]
    exact s.cycle_lt_firstCycle p
  · rw [turn0 c h, turn0 d h']
  · have same := take.others c h
    exact ⟨congrArg Core.sp same, congrArg Core.gid same, fun i => by rw [State.slot, same, State.slot]⟩
  · rw [State.group?, take.groups]
    exact tfind_tset_same ..

end

/-- Settles O59: the release of a pitch core by core, and the placement of the one request of the queue, whose start touches only
the cores of its pitch. -/
theorem scheduleSteps : Obligations.ScheduleSteps := by
  unfold Obligations.ScheduleSteps
  refine ⟨fun s g step => ⟨pitchRelease_waits step, pitchRelease_releases step⟩, fun s g step => releaseScrubDone_forgets step,
    fun s g queue groups queued => ?_, fun g d k => State.findPitch_core⟩
  exact ⟨placement_over_budget queue groups, placement_waits queue groups queued, fun p => placement_starts queue groups queued⟩

end Sys2Proof.Claims
